-- ==== Sys2Proof/Word.lean ====
section
/-!
DEFINITION. The word types of the Unlyn (ZSL-4180) and the plain data type of every table of like things.
Sizes are those of spec/00_scope.md (R1, R2, R8).
-/

namespace Sys2Proof

/-- A 64-bit word: G registers, op words, headers, control registers. -/
abbrev Word := BitVec 64

/-- A 32-bit lane of the matrix register file (R64). -/
abbrev Lane := BitVec 32

/-- One byte of a storage level. -/
abbrev Byte := BitVec 8

/-- One 40-bit E8M31 accumulator element (R152). -/
abbrev Acc := BitVec 40

/-- A table of like things as plain data: pairs of an index and a value, indices strictly rising, no entry equal to
what an unlisted index reads as. The functions over it are in Machine/Maps.lean. -/
abbrev RMap (α : Type) := List (Nat × α)

/-- Bits [hi:lo] of a natural number (R8). -/
def bits (x hi lo : Nat) : Nat := (x / 2 ^ lo) % 2 ^ (hi + 1 - lo)

/-- One bit of a natural number. -/
def bit (x n : Nat) : Bool := x / 2 ^ n % 2 == 1

/-- The n-bit pattern x read as a two's complement integer (R8, Sext). -/
def sextI (x n : Nat) : Int := if x % 2 ^ n < 2 ^ (n - 1) then (x % 2 ^ n : Nat) else (x % 2 ^ n : Nat) - (2 ^ n : Nat)

/-- An integer taken modulo 2^64 as a word (R8, Wrap64). -/
def wrap64 (x : Int) : Word := BitVec.ofInt 64 x

end Sys2Proof
end

