-- ==== Sys2Proof/Config.lean ====
section
/-!
DEFINITION. What an implementation fixes, and the free values of the model: constants without a body, so that no proof
can rest on a value of them. Each is named in a row of notes/assumptions/.
-/

namespace Sys2Proof.Config

/-- The n-th free word of a run; State.free counts the words taken. DESIGN CHOICE, safe: notes/assumptions/17.md. -/
opaque freeWord : Nat → BitVec 64

/-- Whether the Grove's L1 still holds the line it once filled, at the n-th choice (R114, R129). DESIGN CHOICE, safe: notes/assumptions/11.md. -/
opaque l1Keeps : Nat → Bool

/-- Whether an L2 TLB still holds the entry it once filled, at the n-th choice (R432). DESIGN CHOICE, safe: notes/assumptions/12.md. -/
opaque tlbKeeps : Nat → Bool

/-- Whether in a cycle the LLC holds a line of a row that another agent has read: an access to it does not reach the array
(R500, R502, R506). DESIGN CHOICE, safe: notes/assumptions/13.md. -/
opaque llcKeeps : Nat → Nat → Bool

/-- Whether in a cycle the L2 of the Glade still holds a line that it once took: other Glades' publications drop it too (R16, R121).
DESIGN CHOICE, safe: notes/assumptions/89.md. -/
opaque l2Keeps : Nat → Nat → Bool

/-- Which of its lines a full L2 gives up for the line that it takes (R16). DESIGN CHOICE, safe: notes/assumptions/89.md. -/
opaque l2Victim : Nat → Nat

/-- Which of its lines a full LLC gives up for the line that it takes (R10, R16). DESIGN CHOICE, safe: notes/assumptions/13.md. -/
opaque llcVictim : Nat → Nat

/-- Which of its entries a full L2 TLB gives up for the entry it fills, at the n-th choice (R432). DESIGN CHOICE, safe:
notes/assumptions/12.md. -/
opaque tlbVictim : Nat → Nat

/-- Which of its lines a full L1 gives up for the line it fills, at the n-th choice (R16, R114). DESIGN CHOICE, safe:
notes/assumptions/11.md. -/
opaque l1Victim : Nat → Nat

/-- Whether a prefetch whose page misses in the L2 TLB finds the miss file full, at the n-th choice (R438). DESIGN CHOICE, safe: notes/assumptions/64.md. -/
opaque missFull : Nat → Bool

/-- Whether the signature in an image's 512-byte header verifies with the vendor key fused in the device (R534). DESIGN CHOICE, safe: notes/assumptions/15.md. -/
opaque signatureValid : List Byte → Bool

/-- The signature that the device key makes of a report's bytes (R483, R534). DESIGN CHOICE, safe: notes/assumptions/15.md. -/
opaque signReport : List Byte → List Byte

/-- The minimum SVN fused in the device for an image type (R534). DESIGN CHOICE, safe: notes/assumptions/15.md. -/
opaque minSvn : Nat → Nat

/-- The eight words that QUERY SEL 1 writes of a queue's head, tail, state and eight chain words: R479 gives no layout of
them in the 64 bytes. DESIGN CHOICE, safe: notes/assumptions/16.md. -/
opaque queryLayout : List (BitVec 64) → List (BitVec 64)

/-- The device serial number (R483). DESIGN CHOICE, safe: notes/assumptions/15.md. -/
opaque serial : BitVec 128

/-- The SHA-256 digest of the boot ROM, M0 (R534). DESIGN CHOICE, safe: notes/assumptions/15.md. -/
opaque romDigest : BitVec 256

end Sys2Proof.Config
end

