-- ==== Sys2Proof/Syntax.lean ====
section
/-!
DEFINITION. The instructions: one constructor for each row of spec/opcode_table.json. The table's rows are the ops of
the five opcode maps (R237 to R241), the micro-ops (R374), and the indivisible events of the device's other units
(spec/95_what_each_step_holds.md). An op carries its guard and the fields it uses; an event carries what comes from
outside the model (an input, an arrival of another Grove, an outcome of a physical process).
-/

namespace Sys2Proof

/-- A G register number (R62). -/
abbrev Reg := BitVec 6

/-- A 13-bit MRF operand: direction and index (R65). -/
abbrev Mrf := BitVec 13

/-- The guard field of an op word (R63). -/
structure Guard where
  ge : Bool
  gn : Bool
  greg : Reg
  gbit : BitVec 6
  deriving DecidableEq, Repr

/-- The guard of an unguarded op (R247). -/
abbrev Guard.none : Guard := ⟨false, false, 0, 0⟩

/-- The seven positions of a bundle, in slot order (R222). -/
inductive Pos where
  | s0 | s1 | v0 | v1 | m | c | b
  deriving DecidableEq, Repr

/-- The two fates of an encoding that is no instruction (R243). -/
inductive DecErr where
  | illegalOp | illegalEnc
  deriving DecidableEq, Repr

/-- The element types of the vector map (R241). -/
inductive VTy where
  | fp32 | bf16 | fp16 | i8 | n8 | i16 | n16 | i32 | n32 | nar | bits
  deriving DecidableEq, Repr

/-- The source of LSET: an immediate or a G register (R275). -/
inductive LoopSrc where
  | imm (n : BitVec 32) | reg (r : Reg)
  deriving DecidableEq, Repr

/-- The shape fields of a barrier op (R299). -/
structure BarShape where
  lw : BitVec 3
  lh : BitVec 3
  lnch : Bool
  deriving DecidableEq, Repr

/-- What an HBM4E access is and what happens to its data (R502, R506): a read, a write, a read that array ECC corrects,
a read that finds a line of the row uncorrectable, a read whose row-remap table is uncorrectable. -/
inductive HbmEvt where
  | ok | write | ecc | uncorrectable (line : Nat) | remapUe
  deriving DecidableEq, Repr

/-- The CLR and STEP bits of VSTAT (R321, R350). -/
structure StatForm where
  clr : Bool
  step : Bool
  deriving DecidableEq, Repr

/-- An ARBITRATE event: the stream that this Grove's arbiter serves, and what the other Groves of the rectangles have done since
the last one: the records that their arbiters have taken, by queue and serial; their tasks that have ended, by launch and tile;
their BALLOCs, as launch, bytes asked and tile, in the order of their arrival; the tap points that they have presented in the
phase, by launch and point; what of their stores and job writes has come home, as launch, address and bytes, and the adds of their
jobs to counters, as launch, address and increment, in the order of their performance (R33, R44, R46, R127, R128, R144, R179, R314,
R415). -/
structure ArbTold where
  strm : Bool
  took : List (Nat × Nat) := []
  ended : List (Nat × Nat) := []
  allocs : List (Nat × Nat × Nat) := []
  shown : List (Nat × Nat) := []
  wrote : List (Nat × Nat × List Byte) := []
  adds : List (Nat × Nat × Nat) := []
  deriving DecidableEq, Repr

/-- What the copy reads of a relocation have found: pages of the block that are lost, by number, and how many codewords were corrected
(R495, R498). -/
structure CopyFound where
  lost : List Nat := []
  corrected : Nat := 0
  deriving DecidableEq, Repr

/-- What the other Groves of a launch bring to a TAP_COMPARE: their partials as (Grove, key, value), and the points that they
presented, with or without partials (R179, R181). -/
structure TapTold where
  partials : List (Nat × Nat × Acc)
  shown : List Nat
  deriving DecidableEq, Repr

/-- A transfer that meets a CRC error: the pseudo-channel, and the bank, row and kind of the access it belongs to (R503). -/
structure CrcSite where
  pc : Nat
  bank : Nat
  row : Nat
  evt : HbmEvt
  deriving DecidableEq, Repr

/-- The sender of an inbound RMA write: its Ultra Ethernet job identifier and its IPv6 address, low word first (R529, R531). -/
structure FabricSender where
  job : Nat
  addrLow : Word
  addrHigh : Word
  deriving DecidableEq, Repr

/-- A packet of a command queue (R464): its queue, header fields and payload words. -/
structure Pkt where
  q : Nat
  opc : Nat
  nw : Nat
  cmpl : Bool
  fnc : Bool
  tag : Nat
  caddr : Word
  pay : List Word
  deriving DecidableEq, Repr

/-- The instructions of the machine. -/
inductive Instr where
  | add (q : Guard) (d a b : Reg)
  | sub (q : Guard) (d a b : Reg)
  | mul (q : Guard) (d a b : Reg)
  | mulh (q : Guard) (d a b : Reg)
  | mulhn (q : Guard) (d a b : Reg)
  | div (q : Guard) (d a b : Reg)
  | divn (q : Guard) (d a b : Reg)
  | rem (q : Guard) (d a b : Reg)
  | remn (q : Guard) (d a b : Reg)
  | and (q : Guard) (d a b : Reg)
  | andn (q : Guard) (d a b : Reg)
  | or (q : Guard) (d a b : Reg)
  | xor (q : Guard) (d a b : Reg)
  | nor (q : Guard) (d a b : Reg)
  | shl (q : Guard) (d a b : Reg)
  | shr (q : Guard) (d a b : Reg)
  | sra (q : Guard) (d a b : Reg)
  | rot (q : Guard) (d a b : Reg)
  | brev (q : Guard) (d a : Reg)
  | clz (q : Guard) (d a : Reg)
  | ctz (q : Guard) (d a : Reg)
  | popc (q : Guard) (d a : Reg)
  | min (q : Guard) (d a b : Reg)
  | max (q : Guard) (d a b : Reg)
  | minn (q : Guard) (d a b : Reg)
  | maxn (q : Guard) (d a b : Reg)
  | sel (q : Guard) (d a b : Reg) (f1 f2 : BitVec 6)
  | cmp (q : Guard) (d a b : Reg) (bit cond : BitVec 6)
  | bset (q : Guard) (d a b : Reg)
  | bclr (q : Guard) (d a b : Reg)
  | bins (q : Guard) (d a b : Reg) (f1 f2 : BitVec 6)
  | extr (q : Guard) (d a b : Reg) (w : BitVec 6)
  | depo (q : Guard) (d a b : Reg) (w : BitVec 6)
  | aadd (q : Guard) (d a b : Reg)
  | adiff (q : Guard) (d a b : Reg)
  | achk (q : Guard) (d a b : Reg)
  | addImm (q : Guard) (d a : Reg) (imm : BitVec 28)
  | subImm (q : Guard) (d a : Reg) (imm : BitVec 28)
  | mulImm (q : Guard) (d a : Reg) (imm : BitVec 28)
  | andImm (q : Guard) (d a : Reg) (imm : BitVec 28)
  | andnImm (q : Guard) (d a : Reg) (imm : BitVec 28)
  | orImm (q : Guard) (d a : Reg) (imm : BitVec 28)
  | xorImm (q : Guard) (d a : Reg) (imm : BitVec 28)
  | shlImm (q : Guard) (d a : Reg) (n : BitVec 6)
  | shrImm (q : Guard) (d a : Reg) (n : BitVec 6)
  | sraImm (q : Guard) (d a : Reg) (n : BitVec 6)
  | rotImm (q : Guard) (d a : Reg) (n : BitVec 6)
  | minImm (q : Guard) (d a : Reg) (imm : BitVec 28)
  | maxImm (q : Guard) (d a : Reg) (imm : BitVec 28)
  | minnImm (q : Guard) (d a : Reg) (imm : BitVec 28)
  | maxnImm (q : Guard) (d a : Reg) (imm : BitVec 28)
  | cmpImm (q : Guard) (d a : Reg) (imm : BitVec 16) (bit cond : BitVec 6)
  | bsetImm (q : Guard) (d a : Reg) (n : BitVec 6)
  | bclrImm (q : Guard) (d a : Reg) (n : BitVec 6)
  | extrImm (q : Guard) (d a : Reg) (lo w : BitVec 6)
  | depoImm (q : Guard) (d a : Reg) (lo w : BitVec 6)
  | aaddImm (q : Guard) (d a : Reg) (imm : BitVec 28)
  | achkImm (q : Guard) (d a : Reg) (imm : BitVec 28)
  | movi (q : Guard) (d : Reg) (imm : BitVec 34)
  | movhi (q : Guard) (d : Reg) (imm : BitVec 30)
  | movc (q : Guard) (d : Reg) (num : BitVec 12)
  | movs (q : Guard) (a : Reg) (num : BitVec 12)
  | br (q : Guard) (off : BitVec 34)
  | bri (q : Guard) (n : Reg) (off : BitVec 34)
  | call (q : Guard) (n : Reg) (off : BitVec 34)
  | calli (q : Guard) (n link : Reg)
  | ret (q : Guard) (n : Reg)
  | lset (q : Guard) (k : BitVec 3) (src : LoopSrc)
  | loop (q : Guard) (k : BitVec 3) (off : BitVec 34)
  | lcld (q : Guard) (n : Reg) (off : BitVec 34)
  | skset (q : Guard) (n : BitVec 6)
  | skclr (q : Guard) (n : BitVec 6)
  | cont (q : Guard) (n : Reg) (off : BitVec 34)
  | endTask (q : Guard)
  | trap (q : Guard) (code : BitVec 6) (payload : BitVec 16)
  | brk (q : Guard) (tag : BitVec 16)
  | eret (q : Guard) (n : Reg)
  | idle (q : Guard) (n : Reg)
  | idleWake (strm : Bool)
  | ldB (q : Guard) (d a : Reg) (off : BitVec 14)
  | ldH (q : Guard) (d a : Reg) (off : BitVec 14)
  | ldW (q : Guard) (d a : Reg) (off : BitVec 14)
  | ldD (q : Guard) (d a : Reg) (off : BitVec 14)
  | ldNB (q : Guard) (d a : Reg) (off : BitVec 14)
  | ldNH (q : Guard) (d a : Reg) (off : BitVec 14)
  | ldNW (q : Guard) (d a : Reg) (off : BitVec 14)
  | stB (q : Guard) (d a : Reg) (off : BitVec 14)
  | stH (q : Guard) (d a : Reg) (off : BitVec 14)
  | stW (q : Guard) (d a : Reg) (off : BitVec 14)
  | stD (q : Guard) (d a : Reg) (off : BitVec 14)
  | loadComplete (strm : Bool)
  | ldv (q : Guard) (m : Mrf) (a : Reg) (off : BitVec 14) (step : Bool)
  | stv (q : Guard) (m : Mrf) (msk a : Reg) (off : BitVec 14) (step : Bool)
  | ldvx (q : Guard) (m : Mrf) (msk a : Reg) (off : BitVec 14) (step : Bool)
  | stvx (q : Guard) (m : Mrf) (msk a : Reg) (off : BitVec 14) (step : Bool)
  | amoAdd (q : Guard) (d a b : Reg) (off : BitVec 14)
  | amoMin (q : Guard) (d a b : Reg) (off : BitVec 14)
  | amoMax (q : Guard) (d a b : Reg) (off : BitVec 14)
  | amoMinn (q : Guard) (d a b : Reg) (off : BitVec 14)
  | amoMaxn (q : Guard) (d a b : Reg) (off : BitVec 14)
  | amoAnd (q : Guard) (d a b : Reg) (off : BitVec 14)
  | amoOr (q : Guard) (d a b : Reg) (off : BitVec 14)
  | amoXor (q : Guard) (d a b : Reg) (off : BitVec 14)
  | amoSwap (q : Guard) (d a b : Reg) (off : BitVec 14)
  | amocas (q : Guard) (d a b : Reg) (off : BitVec 14)
  | amoAddW (q : Guard) (d a b : Reg) (off : BitVec 14)
  | amoMinW (q : Guard) (d a b : Reg) (off : BitVec 14)
  | amoMaxW (q : Guard) (d a b : Reg) (off : BitVec 14)
  | amoMinnW (q : Guard) (d a b : Reg) (off : BitVec 14)
  | amoMaxnW (q : Guard) (d a b : Reg) (off : BitVec 14)
  | amoAndW (q : Guard) (d a b : Reg) (off : BitVec 14)
  | amoOrW (q : Guard) (d a b : Reg) (off : BitVec 14)
  | amoXorW (q : Guard) (d a b : Reg) (off : BitVec 14)
  | amoSwapW (q : Guard) (d a b : Reg) (off : BitVec 14)
  | amocasW (q : Guard) (d a b : Reg) (off : BitVec 14)
  | amofadd (q : Guard) (d a b : Reg) (off : BitVec 14)
  | fence (q : Guard) (pred succ : BitVec 5) (scope : BitVec 3)
  | pref (q : Guard) (lvl : BitVec 6) (a : Reg) (off : BitVec 14)
  | barArrive (q : Guard) (shp : BarShape)
  | barWait (q : Guard) (shp : BarShape)
  | barPhase (q : Guard)
  | barr (q : Guard) (d a : Reg) (shp : BarShape) (rop : BitVec 3) (phm : Bool)
  | barrierNodeComplete (launch shape : Nat) (others : List (Nat × Option Nat × Word))
  | cwait (q : Guard) (d a b : Reg) (off : BitVec 14)
  | cwaitSatisfied (strm : Bool)
  | cread (q : Guard) (d a : Reg) (off : BitVec 14)
  | cadd (q : Guard) (d a b : Reg) (off : BitVec 14)
  | wqenq (q : Guard) (m : Mrf) (d a : Reg)
  | wqdeq (q : Guard) (m : Mrf) (d a : Reg)
  | wqpeek (q : Guard) (m : Mrf) (d a : Reg)
  | jdec (q : Guard) (d a : Reg)
  | talloc (q : Guard) (d a : Reg) (canopy launchLife : Bool) (fbank wcode : BitVec 5)
  | tfree (q : Guard) (a : Reg)
  | tqry (q : Guard) (d a : Reg) (sel : BitVec 2)
  | balloc (q : Guard) (d a : Reg)
  | cact (q : Guard) (a : Reg)
  | cpre (q : Guard) (a : Reg)
  | cref (q : Guard) (a : Reg)
  | cld (q : Guard) (m : Mrf) (a : Reg) (off : BitVec 14) (step : Bool)
  | cst (q : Guard) (m : Mrf) (a : Reg) (off : BitVec 14) (step : Bool)
  | cldDelivery
  | backgroundRefresh (bank : Nat)
  | emergencyRefresh (bank : Nat)
  | htest (q : Guard) (d a : Reg) (sel : BitVec 2)
  | hreq (q : Guard) (a : Reg)
  | hpin (q : Guard) (a : Reg)
  | hrel (q : Guard) (a : Reg)
  | xcopy (q : Guard) (gb gc : Reg) (inc : BitVec 16) (exch : Bool)
  | xgath (q : Guard) (gb gc : Reg) (inc : BitVec 16) (exch : Bool)
  | xscat (q : Guard) (gb gc : Reg) (inc : BitVec 16) (exch : Bool)
  | xred (q : Guard) (gb gc : Reg) (inc : BitVec 16) (exch : Bool)
  | xconv (q : Guard) (gb gc : Reg) (inc : BitVec 16) (exch : Bool)
  | xfill (q : Guard) (gb gc : Reg) (inc : BitVec 16) (exch : Bool)
  | xcoll (q : Guard) (gb gc : Reg) (inc : BitVec 16)
  | xpeer (q : Guard) (gb gc : Reg) (inc : BitVec 16)
  | xcanw (q : Guard) (gb gc : Reg) (inc : BitVec 16)
  | rtsub (q : Guard) (gb gc : Reg) (inc : BitVec 16)
  | spalloc (q : Guard) (gb gc : Reg) (inc : BitVec 16)
  | gcmt (q : Guard) (gb gc : Reg) (inc : BitVec 16)
  | tapx (q : Guard) (gb : Reg)
  | shres (q : Guard) (gb : Reg)
  | tapq (q : Guard) (d a : Reg)
  | shprd (q : Guard) (d : Reg)
  | tlbi (q : Guard) (d a : Reg) (kind : BitVec 3)
  | l1inv (q : Guard) (a : Reg) (kind : BitVec 3)
  | ctxsv (q : Guard) (d a : Reg)
  | ctxld (q : Guard) (d a : Reg)
  | mldw (q : Guard) (src : Mrf) (wt : BitVec 5)
  | mldwc (q : Guard) (gr : Reg) (wt : BitVec 5) (half : Bool)
  | planeReady
  | mstrm (q : Guard) (acc : BitVec 3) (src : Mrf) (arow : BitVec 5) (gr : Reg) (sw step : Bool)
  | mbatch (q : Guard) (acc : BitVec 3) (src : Mrf) (arow : BitVec 5) (gr : Reg) (sw step : Bool)
  | mdrain (q : Guard) (acc : BitVec 3) (dst : Mrf) (chk : BitVec 6) (cmask : BitVec 4) (tt : BitVec 6) (rs cs pack step : Bool)
  | mzero (q : Guard) (acc : BitVec 3)
  | mfree (q : Guard) (acc : BitVec 3)
  | mscl (q : Guard) (src : Mrf) (col : Bool)
  | mcall (q : Guard) (entry : BitVec 8) (acc : BitVec 3)
  | mmpw (q : Guard) (src : Mrf) (gr : Reg) (tbl : Bool)
  | mstat (q : Guard) (gr : Reg) (wait : Bool)
  | wload (px : BitVec 2) (typ : BitVec 5)
  | wswap
  | stream (px : BitVec 2) (imm : BitVec 16)
  | accum (acc : BitVec 3) (imm : BitVec 16) (batch : Bool)
  | drain (acc : BitVec 3) (px : BitVec 2) (typ : BitVec 5) (imm : BitVec 16) (cmask : BitVec 4) (rs cs pack : Bool)
  | mask (mpx : BitVec 3)
  | microLoop (lx : BitVec 2) (tgt : BitVec 10)
  | microStep (px : BitVec 2) (imm : BitVec 16)
  | param (px lx : BitVec 2) (mpx : BitVec 3) (opd : BitVec 13) (imm : BitVec 16) (flg : BitVec 2)
  | branchz (lx : BitVec 2) (tgt : BitVec 10)
  | waitw
  | scale (px : BitVec 2) (col : Bool)
  | nopm (imm : BitVec 16)
  | endm
  | vadd (q : Guard) (ty : VTy) (d a b : Mrf) (step : Bool)
  | vsub (q : Guard) (ty : VTy) (d a b : Mrf) (step : Bool)
  | vmul (q : Guard) (ty : VTy) (d a b : Mrf) (step : Bool)
  | vfma (q : Guard) (ty : VTy) (d a b : Mrf) (step : Bool)
  | vfms (q : Guard) (ty : VTy) (d a b : Mrf) (step : Bool)
  | vmax (q : Guard) (ty : VTy) (d a b : Mrf) (step : Bool)
  | vmin (q : Guard) (ty : VTy) (d a b : Mrf) (step : Bool)
  | vabs (q : Guard) (ty : VTy) (d a : Mrf) (step : Bool)
  | vneg (q : Guard) (ty : VTy) (d a : Mrf) (step : Bool)
  | vrcp (q : Guard) (ty : VTy) (d a : Mrf) (step : Bool)
  | vrsq (q : Guard) (ty : VTy) (d a : Mrf) (step : Bool)
  | vexp2 (q : Guard) (ty : VTy) (d a : Mrf) (step : Bool)
  | vlog2 (q : Guard) (ty : VTy) (d a : Mrf) (step : Bool)
  | vcmp (q : Guard) (ty : VTy) (d a : Mrf) (cond : BitVec 4) (step : Bool)
  | vsel (q : Guard) (ty : VTy) (d a b : Mrf) (step : Bool)
  | vand (q : Guard) (ty : VTy) (d a b : Mrf) (step : Bool)
  | vor (q : Guard) (ty : VTy) (d a b : Mrf) (step : Bool)
  | vxor (q : Guard) (ty : VTy) (d a b : Mrf) (step : Bool)
  | vnot (q : Guard) (ty : VTy) (d a : Mrf) (step : Bool)
  | vshl (q : Guard) (ty : VTy) (d a : Mrf) (sh : BitVec 6) (step : Bool)
  | vshr (q : Guard) (ty : VTy) (d a : Mrf) (sh : BitVec 6) (step : Bool)
  | vsra (q : Guard) (ty : VTy) (d a : Mrf) (sh : BitVec 6) (step : Bool)
  | vcvt (q : Guard) (ty : VTy) (d a : Mrf) (dt : BitVec 5) (sf : BitVec 4) (part : BitVec 3) (step : Bool)
  | vpack (q : Guard) (ty : VTy) (d a : Mrf) (w : BitVec 5) (sat : Bool) (part : BitVec 3) (step : Bool)
  | vunpk (q : Guard) (ty : VTy) (d a : Mrf) (w : BitVec 5) (part : BitVec 3) (step : Bool)
  | vbcst (q : Guard) (ty : VTy) (d a : Mrf) (idx : BitVec 8) (step : Bool)
  | vmov (q : Guard) (ty : VTy) (d a : Mrf) (step : Bool)
  | vperm (q : Guard) (ty : VTy) (d a b : Mrf) (step : Bool)
  | vrot (q : Guard) (ty : VTy) (d a : Mrf) (sh : BitVec 8) (step : Bool)
  | vred (q : Guard) (ty : VTy) (d a : Mrf) (rop : BitVec 3) (len : BitVec 8) (step : Bool)
  | vscan (q : Guard) (ty : VTy) (d a : Mrf) (rop : BitVec 2) (excl : Bool) (len : BitVec 8) (step : Bool)
  | vnorm (q : Guard) (ty : VTy) (d a : Mrf) (len : BitVec 8) (step : Bool)
  | vclamp (q : Guard) (ty : VTy) (d a b : Mrf) (step : Bool)
  | vlut (q : Guard) (ty : VTy) (d a b : Mrf) (step : Bool)
  | vbmt (q : Guard) (ty : VTy) (d a b : Mrf) (step : Bool)
  | vscatx (q : Guard) (ty : VTy) (d a b : Mrf) (step : Bool)
  | vgathx (q : Guard) (ty : VTy) (d a b : Mrf) (step : Bool)
  | vcnt (q : Guard) (ty : VTy) (d a : Mrf) (step : Bool)
  | vmatch (q : Guard) (ty : VTy) (d a b : Mrf) (step : Bool)
  | vpsum (q : Guard) (ty : VTy) (d a : Mrf) (lane : BitVec 5) (lv : Bool) (step : Bool)
  | vdsc (q : Guard) (ty : VTy) (d a : Mrf) (hnd last first : Bool) (step : Bool)
  | vrng (q : Guard) (ty : VTy) (d a : Mrf) (step : Bool)
  | vstat (q : Guard) (ty : VTy) (d : Mrf) (form : StatForm)
  | rweRingRefill (slot : Nat)
  | bundleIssue (strm : Bool) (hdr : Word) (ops : List Word)
  | secondaryForcedIssue (hdr : Word) (ops : List Word)
  | segmentOverrun (strm : Bool)
  | sliceBoundary
  | arbitrate (told : ArbTold)
  | urgentSave (strm : Bool)
  | phaseNodeComplete (launch : Nat) (arrived : List Nat) (others : List (Nat × Nat × Word × Word))
  | phaseDrainDone (launch : Nat)
  | phaseExchangeDone (launch : Nat)
  | settlement (launch : Nat)
  | tapCompare (launch : Nat) (others : TapTold)
  | phaseFlip (launch : Nat)
  | phaseStall (launch : Nat)
  | operatorExpand (cq : Nat)
  | shapeResolution (launch : Nat)
  | jobStart (job : Nat) (memErr : Bool)
  | jobComplete (job : Nat) (peers : List (Nat × List Byte))
  | fabricTimeout (job : Nat)
  | routerSubmission (job : Nat)
  | orchardReadIssue (stack : Nat)
  | orchardPageLand (stack : Nat) (corrected : List Nat) (lost : Bool)
  | evictionEnd (handle : Nat)
  | relocationStart (stack : Nat)
  | relocationCommit (stack : Nat) (copied : CopyFound)
  | blockErase (stack : Nat) (ok : Bool)
  | hbmAccess (stack pc bank row : Nat) (evt : HbmEvt)
  | hbmMgmtWindowEnd (stack pc bank : Nat)
  | hbmRowIdleClose (stack pc bank : Nat)
  | remapReload (stack pc : Nat) (ok : Bool)
  | linkCrc (stack : Nat) (site : CrcSite)
  | linkRetrainDone (stack pc : Nat) (ok : Bool)
  | thermalReading (col temp watts tin tout : Nat)
  | inletOvertemp (celsius : Nat)
  | inboundRmaWrite (who : FabricSender) (off : Nat) (data : List Byte)
  | cqTailDoorbell (cq : Nat) (value : Word)
  | cqResetDoorbell (cq : Nat)
  | packetParse (cq : Nat)
  | nop (p : Pkt)
  | launch (p : Pkt)
  | pred (p : Pkt)
  | predTest (cq : Nat)
  | signalAdd (p : Pkt)
  | signalStore (p : Pkt)
  | signalChainWord (p : Pkt)
  | signalRefused (p : Pkt)
  | waitc (p : Pkt)
  | waitcSatisfied (cq : Nat)
  | hcopy (p : Pkt)
  | cqFence (p : Pkt)
  | seqcfg (p : Pkt)
  | seedseq (p : Pkt)
  | tapcfgPoint (p : Pkt)
  | tapcfgSteer (p : Pkt)
  | sptcfg (p : Pkt)
  | qcfg (p : Pkt)
  | hbindBind (p : Pkt)
  | hbindClear (p : Pkt)
  | hbindRebind (p : Pkt)
  | hbindRefused (p : Pkt)
  | evqcfg (p : Pkt)
  | eventRingRoom (ring : Nat)
  | preempt (p : Pkt)
  | resume (p : Pkt)
  | queryStatus (p : Pkt)
  | queryQueue (p : Pkt)
  | querySlots (p : Pkt)
  | queryRefused (p : Pkt)
  | patch (p : Pkt)
  | attest (p : Pkt)
  | ctrlMismatch (part : Nat)
  | workerSelfcheckFail
  | powerOn (failStep : Option Nat) (salvaged : Bool)
  | deviceReset (value : Byte)
  | pctlStart (part : Nat)
  | pctlStop (part : Nat)
  | pctlFlagClear (value : Word)
  | partitionTableWrite (entry word : Nat) (value : Word)
  | imageLoad (src lpn0 npg : Word)
  | imageLoadDone
  | arbSliceWrite (value : Word)
  | arbOvrcntClear (value : Word)
  | portmapWrite (value : Word)
  | psWrite (set word : Nat) (value : Word)
  | canopyDebtClear (value : Word)
  | hintdropClear (value : Word)
  | hbmWatchWrite (stack pc : Nat) (value : Word)
  | hbmCounterClear (stack pc off : Nat)
  | registerWrite (num : Nat) (value : Word)
  | stkfail (stack : Nat)
  | peerReject (job : Nat)
  | collMismatch (job : Nat)
  | inletFallsBelow40 (celsius : Nat)
  | ctrlRecoveryDone
  deriving DecidableEq, Repr

end Sys2Proof
end

