-- ==== Sys2Proof/Machine/Num.lean ====
section
/-!
DEFINITION. Number formats and exact arithmetic (spec/06_number_formats.md): every value is an exact dyadic
m × 2^e, every rounding is stated here. Flag bits are those of R87.
-/

namespace Sys2Proof.Machine

/-- A number format with sign S, exponent width E, mantissa width M, bias B and NaN mode (R155): 0 IEEE-like,
1 one NaN code, 2 all finite. -/
structure Fmt where
  S : Bool
  E : Nat
  M : Nat
  B : Int
  nan : Nat
  deriving DecidableEq, Repr

/-- A type that data may have: a floating or narrow format, or an integer of w bits (R68, R152). -/
inductive NTy where
  | flt (f : Fmt)
  | int (w : Nat) (signed : Bool)
  deriving DecidableEq, Repr

/-- A value: NaN with sign and payload, infinity, or the exact (−1)^s × m × 2^e with the sign of a zero kept. -/
inductive XV where
  | nan (s : Bool) (pay : Nat)
  | inf (s : Bool)
  | fin (s : Bool) (m : Nat) (e : Int)
  deriving DecidableEq, Repr

/-- FP32 (R152). -/
def fFP32 : Fmt := ⟨true, 8, 23, 127, 0⟩
/-- BF16 (R152). -/
def fBF16 : Fmt := ⟨true, 8, 7, 127, 0⟩
/-- FP16 (R152). -/
def fFP16 : Fmt := ⟨true, 5, 10, 15, 0⟩
/-- E8M31 (R152). -/
def fE8M31 : Fmt := ⟨true, 8, 31, 127, 0⟩

/-- FLAGS bits (R87). -/
def fNX : Nat := 1
def fUF : Nat := 2
def fOF : Nat := 4
def fDZ : Nat := 8
def fIV : Nat := 16
def fNANIN : Nat := 32

/-- Storage bits of a format's code. -/
def Fmt.width (f : Fmt) : Nat := f.S.toNat + f.E + f.M

/-- The value of a code (R152, R153, R155). -/
def decF (f : Fmt) (c : Nat) : XV :=
  let s := f.S && bit c (f.E + f.M)
  let ef := c / 2 ^ f.M % 2 ^ f.E
  let fr := c % 2 ^ f.M
  if f.E = 0 then .fin s fr (-f.B)
  else if f.nan = 0 && ef == 2 ^ f.E - 1 then (if fr = 0 then .inf s else .nan s fr)
  else if f.nan = 1 && c % 2 ^ f.width == 2 ^ f.width - 1 then .nan s fr
  else if ef = 0 then .fin s fr (1 - f.B - f.M)
  else .fin s (2 ^ f.M + fr) (ef - f.B - f.M)

/-- The sign bit of a code in place. -/
def signCode (f : Fmt) (s : Bool) : Nat := if f.S && s then 2 ^ (f.E + f.M) else 0

/-- The largest finite magnitude code of a sign (R156). -/
def maxMag (f : Fmt) (s : Bool) : Nat :=
  if f.nan = 0 then (2 ^ f.E - 1) * 2 ^ f.M - 1
  else if f.nan = 1 then (if f.S && !s then 2 ^ (f.E + f.M) - 1 else 2 ^ (f.E + f.M) - 2)
  else 2 ^ (f.E + f.M) - 1

/-- The code of infinity in a format that has one (mode 0). -/
def infCode (f : Fmt) (s : Bool) : Nat := signCode f s + (2 ^ f.E - 1) * 2 ^ f.M

/-- The format has NaN codes (R156). -/
def hasNan (f : Fmt) : Bool := (f.nan == 0 && f.M != 0) || f.nan == 1

/-- The canonical NaN of a format (R154, R164). -/
def canonNan (f : Fmt) : Nat :=
  if f.nan = 1 then 2 ^ f.width - 1 else (2 ^ f.E - 1) * 2 ^ f.M + 2 ^ (f.M - 1)

/-- m × 2^sh rounded to an integer, to nearest even or toward zero, with an inexact mark. -/
def roundShift (rtz : Bool) (m : Nat) (sh : Int) : Nat × Bool :=
  match sh with
  | .ofNat k => (m * 2 ^ k, false)
  | .negSucc k' =>
    let k := k' + 1
    let q := m / 2 ^ k
    let r := m % 2 ^ k
    let up := !rtz && (decide (2 ^ (k - 1) < r) || (r == 2 ^ (k - 1) && q % 2 == 1))
    (if up then q + 1 else q, r != 0)

/-- The result of rounding a non-zero magnitude m × 2^e into a format: magnitude code with unbounded exponent,
inexact, tiny (R171). In a format without mantissa bits both neighbours of a tie have an empty mantissa: between two normal values
it goes to the larger magnitude, between zero and the smallest normal value to zero (DESIGN CHOICES, notes/assumptions/80.md). -/
def roundMag (f : Fmt) (rtz : Bool) (m : Nat) (e : Int) : Nat × Bool × Bool :=
  if f.E = 0 then
    let (n, ix) := roundShift rtz m (e + f.B)
    (n, ix, decide ((m.log2 : Int) + e < -f.B))
  else
    let emin : Int := 1 - f.B
    let p : Int := m.log2 + e
    let qe : Int := max p emin - f.M
    let (n, ix) := roundShift rtz m (e - qe)
    ((qe - (emin - f.M)).toNat * 2 ^ f.M + n, ix, decide (p < emin))

/-- A rounded result: its code, its flags and whether it was clamped to the largest finite value (DRSAT, R164). -/
abbrev Rnd := Nat × Nat × Bool

/-- A finite exact value into a format by RNE (R165): overflow to infinity where there is one, else saturation. A value
without a place for its sign is the caller's case. -/
def rneF (f : Fmt) (s : Bool) (m : Nat) (e : Int) : Nat × Nat :=
  if m = 0 then (signCode f s, 0)
  else
    let (c, ix, tiny) := roundMag f false m e
    if c > maxMag f s then
      (if f.nan = 0 then infCode f s else signCode f s + maxMag f s, fOF ||| fNX)
    else (signCode f s + c, (if ix then fNX else 0) ||| (if ix && tiny then fUF else 0))

/-- The flags of a NaN payload kept with its top mantissa bit set (R154): the code of the first NaN operand. -/
def quietCode (f : Fmt) (c : Nat) : Nat := if bit c (f.M - 1) then c else c + 2 ^ (f.M - 1)

/-- The value is a NaN. -/
def XV.isNan : XV → Bool
  | .nan _ _ => true
  | _ => false

/-- The value is a NaN or an infinity. -/
def XV.isSpecial : XV → Bool
  | .fin _ _ _ => false
  | _ => true

/-- The value's sign bit. -/
def XV.sign : XV → Bool
  | .nan s _ => s
  | .inf s => s
  | .fin s _ _ => s

/-- The value is a zero. -/
def XV.isZero : XV → Bool
  | .fin _ m _ => m == 0
  | _ => false

/-- A signed exact value as an integer multiple of 2^e0, e0 at most its exponent. -/
def scaleTo (s : Bool) (m : Nat) (e e0 : Int) : Int :=
  let n : Int := m * 2 ^ (e - e0).toNat
  if s then -n else n

/-- The exact sum of two values without NaN, and IV for ∞ − ∞ (none): an exact zero sum of unlike signs is +0. -/
def xadd (a b : XV) : Option XV :=
  match a, b with
  | .inf s, .inf t => if s == t then some (.inf s) else none
  | .inf s, _ => some (.inf s)
  | _, .inf t => some (.inf t)
  | .fin s m e, .fin t n g =>
    if m = 0 && n = 0 then some (.fin (s && t) 0 0)
    else
      let e0 := min e g
      let v := scaleTo s m e e0 + scaleTo t n g e0
      if v = 0 then some (.fin false 0 0) else some (.fin (decide (v < 0)) v.natAbs e0)
  | _, _ => none

/-- The exact product of two values without NaN, and none for 0 × ∞. -/
def xmul (a b : XV) : Option XV :=
  match a, b with
  | .inf s, .inf t => some (.inf (s != t))
  | .inf s, .fin t n _ => if n = 0 then none else some (.inf (s != t))
  | .fin s m _, .inf t => if m = 0 then none else some (.inf (s != t))
  | .fin s m e, .fin t n g => some (.fin (s != t) (m * n) (e + g))
  | _, _ => none

/-- Sign change of a value. -/
def xneg : XV → XV
  | .nan s p => .nan s p
  | .inf s => .inf (!s)
  | .fin s m e => .fin (!s) m e

/-- The order of two values without NaN; zeros of both signs are equal. -/
def xcmp (a b : XV) : Ordering :=
  match a, b with
  | .inf s, .inf t => if s == t then .eq else if s then .lt else .gt
  | .inf s, _ => if s then .lt else .gt
  | _, .inf t => if t then .gt else .lt
  | .fin s m e, .fin t n g =>
    let e0 := min e g
    compare (scaleTo s m e e0) (scaleTo t n g e0)
  | _, _ => .eq

/-- An exact result into a format by RNE, with the canonical NaN and IV for an invalid operation (R154). -/
def rneX (f : Fmt) : Option XV → Nat × Nat
  | none => (canonNan f, fIV)
  | some (.nan s p) => (signCode f s + (2 ^ f.E - 1) * 2 ^ f.M + p, 0)
  | some (.inf s) => (infCode f s, 0)
  | some (.fin s m e) => rneF f s m e

/-- The first NaN among operand codes, quieted, with NANIN (R154). -/
def firstNan (f : Fmt) (cs : List Nat) : Option (Nat × Nat) :=
  match cs.find? (fun c => (decF f c).isNan) with
  | some c => some (quietCode f c, fNANIN)
  | none => none

/-- a + b in a format (R154, R322). -/
def fAdd (f : Fmt) (a b : Nat) : Nat × Nat :=
  (firstNan f [a, b]).getD (rneX f (xadd (decF f a) (decF f b)))

/-- a − b in a format. -/
def fSub (f : Fmt) (a b : Nat) : Nat × Nat :=
  (firstNan f [a, b]).getD (rneX f (xadd (decF f a) (xneg (decF f b))))

/-- a × b in a format. -/
def fMul (f : Fmt) (a b : Nat) : Nat × Nat :=
  (firstNan f [a, b]).getD (rneX f (xmul (decF f a) (decF f b)))

/-- a × b + d in a format, rounded once (R327). Where a × b is 0 × ∞ and d is a NaN, NANIN alone is set (DESIGN CHOICE,
notes/assumptions/81.md). -/
def fFma (f : Fmt) (a b d : Nat) : Nat × Nat :=
  (firstNan f [a, b, d]).getD
    (rneX f (match xmul (decF f a) (decF f b) with | none => none | some p => xadd p (decF f d)))

/-- d − a × b in a format, rounded once (R327); flags as for fFma (notes/assumptions/81.md). -/
def fFms (f : Fmt) (a b d : Nat) : Nat × Nat :=
  (firstNan f [a, b, d]).getD
    (rneX f (match xmul (decF f a) (decF f b) with | none => none | some p => xadd (decF f d) (xneg p)))

/-- a is below b in the order of Max and Min, −0 below +0 (R328); no NaN. -/
def fBelow (f : Fmt) (a b : Nat) : Bool :=
  match xcmp (decF f a) (decF f b) with
  | .lt => true
  | .gt => false
  | .eq => (decF f a).isZero && (decF f a).sign && !(decF f b).sign

/-- Max (R328). -/
def fMax (f : Fmt) (a b : Nat) : Nat × Nat :=
  (firstNan f [a, b]).getD (if fBelow f a b then b else a, 0)

/-- Min (R328). -/
def fMin (f : Fmt) (a b : Nat) : Nat × Nat :=
  (firstNan f [a, b]).getD (if fBelow f b a then b else a, 0)

/-! ## Conversions (R165 to R167) and the drain (R163, R164) -/

/-- The value of an integer code of w bits. -/
def decInt (w : Nat) (signed : Bool) (c : Nat) : XV :=
  let v : Int := if signed then sextI c w else (c % 2 ^ w : Nat)
  .fin (decide (v < 0)) v.natAbs 0

/-- The value of a code of a type. -/
def decT : NTy → Nat → XV
  | .flt f, c => decF f c
  | .int w s, c => decInt w s c

/-- The mantissa width of a type's NaN payloads. -/
def payWidth : NTy → Nat
  | .flt f => f.M
  | .int _ _ => 0

/-- The least and greatest integer of a type. -/
def intMin (w : Nat) (signed : Bool) : Int := if signed then -(2 ^ (w - 1) : Nat) else 0
def intMax (w : Nat) (signed : Bool) : Int := if signed then (2 ^ (w - 1) : Nat) - 1 else (2 ^ w : Nat) - 1

/-- An integer as a w-bit code. -/
def intCode (w : Nat) (v : Int) : Nat := (v % (2 ^ w : Nat)).toNat

/-- A NaN payload of M1 bits into a target (R167): through 23 bits of FP32, top bits kept. -/
def nanPayload (m1 m2 pay : Nat) : Nat :=
  let p32 := if m1 ≤ 23 then pay * 2 ^ (23 - m1) else pay / 2 ^ (m1 - 23)
  let p := if m2 ≤ 23 then p32 / 2 ^ (23 - m2) else p32 * 2 ^ (m2 - 23)
  if p = 0 then 2 ^ (m2 - 1) else p

/-- VCVT of a value of payload width m1 into a type (R165, R166): code and flags. -/
def cvtTo (m1 : Nat) (t : NTy) (v : XV) : Nat × Nat :=
  match t with
  | .flt f =>
    match v with
    | .nan s p =>
      if !hasNan f then (0, fIV ||| fNANIN)
      else if f.nan = 1 then (2 ^ f.width - 1, fNANIN)
      else (signCode f s + (2 ^ f.E - 1) * 2 ^ f.M + nanPayload m1 f.M p, fNANIN)
    | .inf s =>
      if s && !f.S then (0, fIV)
      else if f.nan = 0 then (infCode f s, 0)
      else (signCode f s + maxMag f s, fOF)
    | .fin s m e => if s && !f.S && m != 0 then (0, fIV) else rneF f s m e
  | .int w sg =>
    match v with
    | .nan _ _ => (0, fIV ||| fNANIN)
    | .inf s => if s && !sg then (0, fIV) else (intCode w (if s then intMin w sg else intMax w sg), fOF)
    | .fin s m e =>
      if s && !sg && m != 0 then (0, fIV)
      else
        let (n, ix) := roundShift false m e
        let v : Int := if s then -(n : Int) else n
        if v < intMin w sg then (intCode w (intMin w sg), fOF ||| fNX)
        else if v > intMax w sg then (intCode w (intMax w sg), fOF ||| fNX)
        else (intCode w v, if ix then fNX else 0)

/-- The drain of a value (R163, R164): code, flags, clamped. `iv` says that a NaN arose from 0 × ∞. A signed scaled integer (EXPB 0) is a
signed floating target here: it takes −0 with its sign bit (DESIGN CHOICE, notes/assumptions/95.md). -/
def drainTo (t : NTy) (iv : Bool) (v : XV) : Rnd :=
  let ivf := if iv then fIV else 0
  match t with
  | .flt f =>
    match v with
    | .nan _ _ => if hasNan f then (canonNan f, ivf, false) else (0, fIV, false)
    | .inf s =>
      if s && !f.S then (0, fIV, false)
      else if f.nan = 0 then (infCode f s, 0, false)
      else (signCode f s + maxMag f s, fOF, true)
    | .fin s m e =>
      if m = 0 then (signCode f s, 0, false)
      else if s && !f.S then (0, fIV, false)
      else
        let (c, ix, tiny) := roundMag f true m e
        if c > maxMag f s then (signCode f s + maxMag f s, fOF ||| fNX, true)
        else (signCode f s + c, (if ix then fNX else 0) ||| (if ix && tiny then fUF else 0), false)
  | .int w sg =>
    match v with
    | .nan _ _ => (0, fIV, false)
    | .inf s =>
      if s && !sg then (0, fIV, false)
      else (intCode w (if s then intMin w sg else intMax w sg), fOF, true)
    | .fin s m e =>
      if m = 0 then (0, 0, false)
      else if s && !sg then (0, fIV, false)
      else
        let (n, ix) := roundShift true m e
        let v : Int := if s then -(n : Int) else n
        if v < intMin w sg then (intCode w (intMin w sg), fOF ||| fNX, true)
        else if v > intMax w sg then (intCode w (intMax w sg), fOF ||| fNX, true)
        else (intCode w v, if ix then fNX else 0, false)

/-! ## Formats of type codes (R68, R70, R71) -/

/-- A format register read as a format. -/
def fmtOfReg (r : Word) : Fmt :=
  let x := r.toNat
  ⟨bit x 5, bits x 9 6, bits x 13 10, sextI (bits x 21 14) 8, bits x 23 22⟩

/-- A format register is invalid (R71). -/
def fmtInvalid (r : Word) : Bool :=
  let x := r.toNat
  let w := (bit x 5).toNat + bits x 9 6 + bits x 13 10
  w == 0 || decide (w > 8) || bits x 23 22 == 3 || (bits x 9 6 == 0 && bits x 23 22 != 2) ||
    (bits x 23 22 == 0 && bits x 9 6 == 1)

/-- Bits [9:6] and [13:10] reach 15 in the register, but a width above 8 makes it invalid. The type of a TYPE code
0 to 24, where fm reads a format register. -/
def tyOfCode (fm : Nat → Word) (c : Nat) : NTy :=
  if c < 16 then .flt (fmtOfReg (fm c))
  else if c = 16 then .flt fFP32 else if c = 17 then .flt fBF16 else if c = 18 then .flt fFP16
  else if c = 19 then .int 8 true else if c = 20 then .int 8 false
  else if c = 21 then .int 16 true else if c = 22 then .int 16 false
  else if c = 23 then .int 32 true else .int 32 false

/-- The value width of a type. -/
def NTy.width : NTy → Nat
  | .flt f => f.width
  | .int w _ => w

/-- The storage width of a type: 4, 8, 16 or 32 bits (R67). -/
def NTy.store (t : NTy) : Nat :=
  let w := t.width
  if w ≤ 4 then 4 else if w ≤ 8 then 8 else if w ≤ 16 then 16 else 32

/-- The type of a vector type that is not NAR or BITS. -/
def tyOfVTy : VTy → NTy
  | .fp32 => .flt fFP32 | .bf16 => .flt fBF16 | .fp16 => .flt fFP16
  | .i8 => .int 8 true | .n8 | .nar => .int 8 false | .i16 => .int 16 true | .n16 => .int 16 false
  | .i32 => .int 32 true | .n32 | .bits => .int 32 false

/-! ## Block sums (R158 to R162) -/

/-- The exact sum of signed terms n × 2^e: an integer at the least exponent. -/
def sumDy : List (Int × Int) → Int × Int
  | [] => (0, 0)
  | (n, e) :: r =>
    let (m, g) := sumDy r
    if m = 0 then (n, e) else if n = 0 then (m, g)
    else let e0 := min e g
      (n * 2 ^ (e - e0).toNat + m * 2 ^ (g - e0).toNat, e0)

/-- The largest floor(log2 |p|) of non-zero products (R159). -/
def maxExp : List (Bool × Nat × Int) → Option Int
  | [] => none
  | (_, m, e) :: r =>
    if m = 0 then maxExp r
    else match maxExp r with
      | none => some ((m.log2 : Int) + e)
      | some p => some (max ((m.log2 : Int) + e) p)

/-- One product aligned into the window of R159 in units of 2^(P − 88): magnitude and whether a bit was set. -/
def alignWin (p : Int) (m : Nat) (e : Int) : Nat × Bool :=
  let sh := e - (p - 88)
  match sh with
  | .ofNat k => (m * 2 ^ k, false)
  | .negSucc k' =>
    let q := m / 2 ^ (k' + 1)
    if m % 2 ^ (k' + 1) = 0 then (q, false) else (q ||| 1, true)

/-- Finite values as terms: signed integers with their exponents. -/
def signedTerms (ps : List (Bool × Nat × Int)) : List (Int × Int) := ps.map (fun x => (if x.1 then -(x.2.1 : Int) else x.2.1, x.2.2))

/-- The block sum over finite products: the exact path (R158) or the 16-bit window (R159); the sum and whether a bit
was set below the window. -/
def blockSum (wide : Bool) (ps : List (Bool × Nat × Int)) : (Int × Int) × Bool :=
  if wide then
    match maxExp ps with
    | none => ((0, 0), false)
    | some p =>
      let al := ps.map (fun x => (x.1, alignWin p x.2.1 x.2.2))
      ((al.foldl (fun a x => if x.1 then a - (x.2.1 : Int) else a + (x.2.1 : Int)) 0, p - 88),
        al.any (fun x => x.2.2))
  else (sumDy (signedTerms ps), false)

/-- The E8M31 code of a NaN operand of payload width m: its sign and payload kept, its top mantissa bit set (R154). The payload stands at
the left of the 31 mantissa bits, as R167 places that of FP32 (DESIGN CHOICE for other formats, notes/assumptions/95.md). -/
def blockNan (m : Nat) : XV → Option Nat
  | .nan s p => some (signCode fE8M31 s + (2 ^ 8 - 1) * 2 ^ 31 + (2 ^ 30 ||| p * 2 ^ (31 - m)))
  | _ => none

/-- The first NaN among the operands of a block, in the order of the depth positions and at each the activation before
the weight, whose payload widths are given (R154; the order is DEDUCED, notes/assumptions/14.md). -/
def firstBlockNan (pw : Nat × Nat) (ps : List (XV × XV)) : Option Nat :=
  ps.findSome? (fun x => (blockNan pw.1 x.1).or (blockNan pw.2 x.2))

/-- A finite value is not zero and lies below the smallest normal magnitude of E8M31 (R162, R171). -/
def tinyDy (v : Int × Int) : Bool := v.1 != 0 && decide ((v.1.natAbs.log2 : Int) + v.2 < -126)

/-- The block sum bs of products without NaN: the invalid operation as none; an infinity; zero where the exact sum is
zero; else the sum of blockSum, where a window sum of 0 counts as +0 (the spec gives it no sign: DESIGN CHOICE,
notes/assumptions/62.md) (R160). -/
def blockTotal (w : Int × Int) (prods : List (Option XV)) (fins : List (Bool × Nat × Int)) : Option XV :=
  let infs := prods.filterMap (fun x => match x with | some (.inf s) => some s | _ => none)
  if prods.any (fun x => x.isNone) || (infs.any id && infs.any (fun s => !s)) then none
  else match infs with
    | s :: _ => some (.inf s)
    | [] =>
      if (sumDy (signedTerms fins)).1 = 0 then some (.fin (fins.all (fun x => x.1 && x.2.1 == 0)) 0 0)
      else some (.fin (decide (w.1 < 0)) w.1.natAbs w.2)

/-- What a block step does to one accumulator element (R160, R162): new code, flags, ACCOF, NANACC. The operand pairs are
an activation and a weight, with the payload widths of their types. UF is judged on the exact result, which the window
of the 16-bit path may have rounded. A bit lost below the window sets NX whatever the result comes to (DESIGN CHOICE,
notes/assumptions/62.md). -/
def blockStep (wide : Bool) (pw : Nat × Nat) (acc : Nat) (ps : List (XV × XV)) : Nat × Nat × Nat × Nat :=
  let av := decF fE8M31 acc
  let prods := ps.map (fun x => xmul x.1 x.2)
  let fins := prods.filterMap (fun x => match x with | some (.fin s m e) => some (s, m, e) | _ => none)
  let w := blockSum wide fins
  let lost := if w.2 then fNX else 0
  let toNan (code fl : Nat) : Nat × Nat × Nat × Nat :=
    if av.isNan then (quietCode fE8M31 acc, fl ||| lost, 0, 0) else (code, fl ||| lost, 0, 1)
  match firstBlockNan pw ps with
  | some code => toNan code fNANIN
  | none =>
    match blockTotal w.1 prods fins with
    | none => toNan (canonNan fE8M31) fIV
    | some bs =>
      if av.isNan then (quietCode fE8M31 acc, lost, 0, 0)
      else match xadd av bs with
        | none => (canonNan fE8M31, fIV ||| lost, 0, 1)
        | some r =>
          let (c, fl) := rneX fE8M31 (some r)
          let exact := match av, bs with
            | .fin s m e, .fin _ _ _ => sumDy ((if s then -(m : Int) else m, e) :: signedTerms fins)
            | _, _ => (0, 0)
          let fl := (if fl / fUF % 2 = 1 then fl - fUF else fl) ||| lost
          (c, if tinyDy exact && fl % 2 == 1 then fl ||| fUF else fl, fl / fOF % 2, 0)

/-! ## Helpers on FP32 codes used by the sampling and normalization ops -/

/-- The value of an FP32 lane. -/
def f32 (c : Nat) : XV := decF fFP32 c

/-- The largest finite FP32. -/
def maxF32 : Nat := 0x7F7FFFFF

/-- RNE to FP32 of an exact value. -/
def rne32 (v : XV) : Nat × Nat := rneX fFP32 (some v)

end Sys2Proof.Machine
end

