-- ==== Sys2Proof/WellFormed.lean ====
section
/-!
DEFINITION. Well-formed instructions: the static checks that the spec makes of an op's fields at decoding (every case
of R243 and of the instruction chapters whose fate is ILLEGAL_ENC and that the fields alone decide), and the pairs of
vector operation and type that the map holds (R324). A check that needs a register is made by the op's meaning.
-/

namespace Sys2Proof

/-- The guard field is legal: GE = 0 leaves GN, GREG and GBIT zero (R63). -/
def guardOk (q : Guard) : Bool := q.ge || (!q.gn && q.greg == 0 && q.gbit == 0)

/-- The direction of an MRF operand (R65): 0 row, 1 column, 2 diagonal, 3 stream port. -/
def mrfDir (m : Mrf) : Nat := m.toNat / 2 ^ 11

/-- The index of an MRF operand (R65). -/
def mrfIdx (m : Mrf) : Nat := m.toNat % 2 ^ 11

/-- The operand is a stream port (R65). -/
def isPort (m : Mrf) : Bool := mrfDir m == 3

/-- A row operand with a legal index (R65). -/
def rowOk (m : Mrf) : Bool := mrfDir m == 0 && decide (mrfIdx m ≤ 1535)

/-- A row operand whose next row exists too (R292). -/
def pairOk (m : Mrf) : Bool := mrfDir m == 0 && decide (mrfIdx m ≤ 1534)

/-- An operand that may stand in a destination field (R65). -/
def dstOk (m : Mrf) : Bool := !isPort m && decide (mrfIdx m ≤ 1535)

/-- An operand that may stand in a source field (R65). -/
def srcOk (m : Mrf) : Bool := if isPort m then decide (mrfIdx m < 16) else decide (mrfIdx m ≤ 1535)

/-- A row operand or a port pop (R356, R359): no column, no diagonal, no peek. -/
def streamOk (m : Mrf) : Bool := rowOk m || (isPort m && decide (8 ≤ mrfIdx m) && decide (mrfIdx m < 16))

/-- The first of four card registers (R229): a multiple of 4, not 0. -/
def cardOk (gb : Reg) : Bool := gb != 0 && decide (gb.toNat % 4 = 0)

/-- The shape bits of a barrier op (R299, R304). -/
def barOk (s : BarShape) (phm : Bool) : Bool :=
  if phm then s.lw == 0 && s.lh == 0 && !s.lnch
  else if s.lnch then s.lw == 0 && s.lh == 0
  else decide (s.lw.toNat ≤ 4) && decide (s.lh.toNat ≤ 4) && decide (s.lw.toNat ≤ s.lh.toNat + 1) &&
    decide (s.lh.toNat ≤ s.lw.toNat + 1)

/-- The floating element types (R324, F). -/
def isFloat (t : VTy) : Bool := t == .fp32 || t == .bf16 || t == .fp16

/-- The integer element types (R324, I). -/
def isInt (t : VTy) : Bool := t == .i8 || t == .n8 || t == .i16 || t == .n16 || t == .i32 || t == .n32

/-- Element width in bits of a type that fixes it; NAR is taken at its byte width (R322). -/
def tyWidth : VTy → Nat
  | .fp32 | .i32 | .n32 | .bits => 32
  | .bf16 | .fp16 | .i16 | .n16 => 16
  | .i8 | .n8 | .nar => 8

/-- Elements of an operand vector at a type that fixes the width (R322). -/
def tyCount (t : VTy) : Nat := 1024 / tyWidth t

/-- Storage width of a w-bit integer: nibble, byte or 16 bits (R67, R335). -/
def storeWidth (w : Nat) : Nat := if w ≤ 4 then 4 else if w ≤ 8 then 8 else if w ≤ 16 then 16 else 32

/-- The number of parts that a conversion between two storage widths has (R333). -/
def partCount (w1 w2 : Nat) : Nat := max w1 w2 / min w1 w2

/-- The operation and type pairs of the vector map (R324). -/
def vecTyOk (o : Nat) (t : VTy) : Bool :=
  match o with
  | 0x00 | 0x01 | 0x02 | 0x05 | 0x06 | 0x0D | 0x1D | 0x20 => isFloat t || isInt t
  | 0x03 | 0x04 | 0x1F => isFloat t
  | 0x07 | 0x08 => isFloat t || t == .i8 || t == .i16 || t == .i32
  | 0x09 | 0x0A | 0x0B | 0x0C | 0x27 | 0x28 => t == .fp32
  | 0x0E | 0x1B | 0x1C | 0x25 | 0x26 => t == .bits || t == .n16 || t == .n8
  | 0x0F | 0x10 | 0x11 | 0x12 | 0x1A | 0x22 | 0x2A => t == .bits
  | 0x13 | 0x14 | 0x15 | 0x17 | 0x18 => isInt t || t == .bits
  | 0x16 => isFloat t || isInt t || t == .nar
  | 0x19 => isFloat t || isInt t || t == .bits
  | 0x1E => t == .fp32 || t == .i32 || t == .n32
  | 0x21 => t == .bits || t == .n16
  | 0x23 | 0x24 => isFloat t || t == .i16 || t == .n16 || t == .i32 || t == .n32 || t == .bits
  | 0x29 => t == .n32
  | _ => false

/-- The instruction's fields pass every static check. An event of another unit has no encoding and is well formed. -/
def wellFormed : Instr → Bool
  | .add q _ _ _ => guardOk q
  | .sub q _ _ _ => guardOk q
  | .mul q _ _ _ => guardOk q
  | .mulh q _ _ _ => guardOk q
  | .mulhn q _ _ _ => guardOk q
  | .div q _ _ _ => guardOk q
  | .divn q _ _ _ => guardOk q
  | .rem q _ _ _ => guardOk q
  | .remn q _ _ _ => guardOk q
  | .and q _ _ _ => guardOk q
  | .andn q _ _ _ => guardOk q
  | .or q _ _ _ => guardOk q
  | .xor q _ _ _ => guardOk q
  | .nor q _ _ _ => guardOk q
  | .shl q _ _ _ => guardOk q
  | .shr q _ _ _ => guardOk q
  | .sra q _ _ _ => guardOk q
  | .rot q _ _ _ => guardOk q
  | .brev q _ _ => guardOk q
  | .clz q _ _ => guardOk q
  | .ctz q _ _ => guardOk q
  | .popc q _ _ => guardOk q
  | .min q _ _ _ => guardOk q
  | .max q _ _ _ => guardOk q
  | .minn q _ _ _ => guardOk q
  | .maxn q _ _ _ => guardOk q
  | .sel q _ _ _ _ _ => guardOk q
  | .cmp q _ _ _ _ cond => guardOk q && decide (cond.toNat ≤ 0x0B)
  | .bset q _ _ _ => guardOk q
  | .bclr q _ _ _ => guardOk q
  | .bins q _ _ _ _ _ => guardOk q
  | .extr q _ _ _ _ => guardOk q
  | .depo q _ _ _ _ => guardOk q
  | .aadd q _ _ _ => guardOk q
  | .adiff q _ _ _ => guardOk q
  | .achk q _ _ _ => guardOk q
  | .addImm q _ _ _ => guardOk q
  | .subImm q _ _ _ => guardOk q
  | .mulImm q _ _ _ => guardOk q
  | .andImm q _ _ _ => guardOk q
  | .andnImm q _ _ _ => guardOk q
  | .orImm q _ _ _ => guardOk q
  | .xorImm q _ _ _ => guardOk q
  | .shlImm q _ _ _ => guardOk q
  | .shrImm q _ _ _ => guardOk q
  | .sraImm q _ _ _ => guardOk q
  | .rotImm q _ _ _ => guardOk q
  | .minImm q _ _ _ => guardOk q
  | .maxImm q _ _ _ => guardOk q
  | .minnImm q _ _ _ => guardOk q
  | .maxnImm q _ _ _ => guardOk q
  | .cmpImm q _ _ _ _ cond => guardOk q && decide (cond.toNat ≤ 0x0B)
  | .bsetImm q _ _ _ => guardOk q
  | .bclrImm q _ _ _ => guardOk q
  | .extrImm q _ _ _ _ => guardOk q
  | .depoImm q _ _ _ _ => guardOk q
  | .aaddImm q _ _ _ => guardOk q
  | .achkImm q _ _ imm => guardOk q && decide (imm.toNat < 2 ^ 27)
  | .movi q _ _ => guardOk q
  | .movhi q _ _ => guardOk q
  | .movc q _ _ => guardOk q
  | .movs q _ _ => guardOk q
  | .br q _ => guardOk q
  | .bri q _ _ => guardOk q
  | .call q _ _ => guardOk q
  | .calli q _ _ => guardOk q
  | .ret q _ => guardOk q
  | .lset q _ _ => guardOk q
  | .loop q _ _ => guardOk q
  | .lcld q _ _ => guardOk q
  | .skset q _ => guardOk q
  | .skclr q _ => guardOk q
  | .cont q _ _ => guardOk q
  | .endTask q => guardOk q
  | .trap q _ _ => guardOk q
  | .brk q _ => guardOk q
  | .eret q _ => guardOk q
  | .idle q _ => guardOk q
  | .idleWake _ => true
  | .ldB q _ _ _ => guardOk q
  | .ldH q _ _ _ => guardOk q
  | .ldW q _ _ _ => guardOk q
  | .ldD q _ _ _ => guardOk q
  | .ldNB q _ _ _ => guardOk q
  | .ldNH q _ _ _ => guardOk q
  | .ldNW q _ _ _ => guardOk q
  | .stB q _ _ _ => guardOk q
  | .stH q _ _ _ => guardOk q
  | .stW q _ _ _ => guardOk q
  | .stD q _ _ _ => guardOk q
  | .loadComplete _ => true
  | .ldv q m _ _ _ => guardOk q && dstOk m
  | .stv q m _ _ _ _ => guardOk q && srcOk m
  | .ldvx q m _ _ _ _ => guardOk q && pairOk m
  | .stvx q m _ _ _ _ => guardOk q && pairOk m
  | .amoAdd q _ _ _ _ => guardOk q
  | .amoMin q _ _ _ _ => guardOk q
  | .amoMax q _ _ _ _ => guardOk q
  | .amoMinn q _ _ _ _ => guardOk q
  | .amoMaxn q _ _ _ _ => guardOk q
  | .amoAnd q _ _ _ _ => guardOk q
  | .amoOr q _ _ _ _ => guardOk q
  | .amoXor q _ _ _ _ => guardOk q
  | .amoSwap q _ _ _ _ => guardOk q
  | .amocas q _ _ _ _ => guardOk q
  | .amoAddW q _ _ _ _ => guardOk q
  | .amoMinW q _ _ _ _ => guardOk q
  | .amoMaxW q _ _ _ _ => guardOk q
  | .amoMinnW q _ _ _ _ => guardOk q
  | .amoMaxnW q _ _ _ _ => guardOk q
  | .amoAndW q _ _ _ _ => guardOk q
  | .amoOrW q _ _ _ _ => guardOk q
  | .amoXorW q _ _ _ _ => guardOk q
  | .amoSwapW q _ _ _ _ => guardOk q
  | .amocasW q _ _ _ _ => guardOk q
  | .amofadd q _ _ _ _ => guardOk q
  | .fence q pred succ scope => guardOk q && pred != 0 && succ != 0 && decide (scope.toNat ≤ 4)
  | .pref q lvl _ _ => guardOk q && decide (lvl.toNat ≤ 2)
  | .barArrive q shp => guardOk q && barOk shp false
  | .barWait q shp => guardOk q && barOk shp false
  | .barPhase q => guardOk q
  | .barr q _ _ shp _ phm => guardOk q && barOk shp phm
  | .barrierNodeComplete _ _ _ => true
  | .cwait q _ _ _ _ => guardOk q
  | .cwaitSatisfied _ => true
  | .cread q _ _ _ => guardOk q
  | .cadd q _ _ _ _ => guardOk q
  | .wqenq q m _ _ => guardOk q && rowOk m
  | .wqdeq q m _ _ => guardOk q && rowOk m
  | .wqpeek q m _ _ => guardOk q && rowOk m
  | .jdec q _ _ => guardOk q
  | .talloc q _ _ canopy _ fbank wcode => guardOk q && decide (1 ≤ wcode.toNat) && decide (wcode.toNat ≤ 10) && (canopy || fbank == 0)
  | .tfree q _ => guardOk q
  | .tqry q _ _ sel => guardOk q && decide (sel.toNat ≤ 1)
  | .balloc q _ _ => guardOk q
  | .cact q _ => guardOk q
  | .cpre q _ => guardOk q
  | .cref q _ => guardOk q
  | .cld q m _ off _ => guardOk q && rowOk m && decide (off.toNat % 128 = 0)
  | .cst q m _ off _ => guardOk q && rowOk m && decide (off.toNat % 128 = 0)
  | .cldDelivery => true
  | .backgroundRefresh _ => true
  | .emergencyRefresh _ => true
  | .htest q _ _ sel => guardOk q && decide (sel.toNat ≤ 1)
  | .hreq q _ => guardOk q
  | .hpin q _ => guardOk q
  | .hrel q _ => guardOk q
  | .xcopy q gb gc inc _ => guardOk q && cardOk gb && (gc != 0 || inc == 0)
  | .xgath q gb gc inc _ => guardOk q && cardOk gb && (gc != 0 || inc == 0)
  | .xscat q gb gc inc _ => guardOk q && cardOk gb && (gc != 0 || inc == 0)
  | .xred q gb gc inc _ => guardOk q && cardOk gb && (gc != 0 || inc == 0)
  | .xconv q gb gc inc _ => guardOk q && cardOk gb && (gc != 0 || inc == 0)
  | .xfill q gb gc inc _ => guardOk q && cardOk gb && (gc != 0 || inc == 0)
  | .xcoll q gb gc inc => guardOk q && cardOk gb && (gc != 0 || inc == 0)
  | .xpeer q gb gc inc => guardOk q && cardOk gb && (gc != 0 || inc == 0)
  | .xcanw q gb gc inc => guardOk q && cardOk gb && (gc != 0 || inc == 0)
  | .rtsub q gb gc inc => guardOk q && cardOk gb && (gc != 0 || inc == 0)
  | .spalloc q gb gc inc => guardOk q && cardOk gb && (gc != 0 || inc == 0)
  | .gcmt q gb gc inc => guardOk q && cardOk gb && (gc != 0 || inc == 0)
  | .tapx q gb => guardOk q && cardOk gb
  | .shres q gb => guardOk q && cardOk gb
  | .tapq q _ _ => guardOk q
  | .shprd q _ => guardOk q
  | .tlbi q d a kind => guardOk q && ((kind == 0 && d == 0 && a == 0) || (kind == 1 && d == 0) || kind == 2)
  | .l1inv q a kind => guardOk q && ((kind == 0 && a == 0) || kind == 1 || kind == 2)
  | .ctxsv q _ _ => guardOk q
  | .ctxld q _ _ => guardOk q
  | .mldw q src wt => guardOk q && streamOk src && decide (wt.toNat ≤ 24)
  | .mldwc q _ wt _ => guardOk q && decide (wt.toNat ≤ 24)
  | .planeReady => true
  | .mstrm q _ src _ gr _ _ => guardOk q && streamOk src && decide (gr.toNat % 2 = 0)
  | .mbatch q _ src _ gr _ _ => guardOk q && streamOk src && decide (gr.toNat % 2 = 0)
  | .mdrain q _ dst _ cmask tt _ _ pack _ => guardOk q && rowOk dst && decide (tt.toNat ≤ 24) && (pack == (cmask != 0))
  | .mzero q _ => guardOk q
  | .mfree q _ => guardOk q
  | .mscl q src _ => guardOk q && rowOk src
  | .mcall q _ _ => guardOk q
  | .mmpw q src _ _ => guardOk q && rowOk src
  | .mstat q _ _ => guardOk q
  | .wload _ _ => true
  | .wswap => true
  | .stream _ _ => true
  | .accum _ imm _ => decide (imm.toNat < 32)
  | .drain _ _ _ imm _ _ _ _ => decide (imm.toNat / 64 % 4 = 0)
  | .mask mpx => decide (mpx.toNat % 2 = 0)
  | .microLoop _ _ => true
  | .microStep _ _ => true
  | .param _ _ _ _ _ _ => true
  | .branchz _ _ => true
  | .waitw => true
  | .scale _ _ => true
  | .nopm _ => true
  | .endm => true
  | .vadd q ty d a b _ => guardOk q && vecTyOk 0x00 ty && dstOk d && srcOk a && srcOk b
  | .vsub q ty d a b _ => guardOk q && vecTyOk 0x01 ty && dstOk d && srcOk a && srcOk b
  | .vmul q ty d a b _ => guardOk q && vecTyOk 0x02 ty && dstOk d && srcOk a && srcOk b
  | .vfma q ty d a b _ => guardOk q && vecTyOk 0x03 ty && dstOk d && srcOk a && srcOk b
  | .vfms q ty d a b _ => guardOk q && vecTyOk 0x04 ty && dstOk d && srcOk a && srcOk b
  | .vmax q ty d a b _ => guardOk q && vecTyOk 0x05 ty && dstOk d && srcOk a && srcOk b
  | .vmin q ty d a b _ => guardOk q && vecTyOk 0x06 ty && dstOk d && srcOk a && srcOk b
  | .vabs q ty d a _ => guardOk q && vecTyOk 0x07 ty && dstOk d && srcOk a
  | .vneg q ty d a _ => guardOk q && vecTyOk 0x08 ty && dstOk d && srcOk a
  | .vrcp q ty d a _ => guardOk q && vecTyOk 0x09 ty && dstOk d && srcOk a
  | .vrsq q ty d a _ => guardOk q && vecTyOk 0x0A ty && dstOk d && srcOk a
  | .vexp2 q ty d a _ => guardOk q && vecTyOk 0x0B ty && dstOk d && srcOk a
  | .vlog2 q ty d a _ => guardOk q && vecTyOk 0x0C ty && dstOk d && srcOk a
  | .vcmp q ty d a cond _ => guardOk q && vecTyOk 0x0D ty && dstOk d && srcOk a && decide (cond.toNat ≤ 7) && (decide (cond.toNat < 6) || isFloat ty)
  | .vsel q ty d a b _ => guardOk q && vecTyOk 0x0E ty && dstOk d && srcOk a && srcOk b
  | .vand q ty d a b _ => guardOk q && vecTyOk 0x0F ty && dstOk d && srcOk a && srcOk b
  | .vor q ty d a b _ => guardOk q && vecTyOk 0x10 ty && dstOk d && srcOk a && srcOk b
  | .vxor q ty d a b _ => guardOk q && vecTyOk 0x11 ty && dstOk d && srcOk a && srcOk b
  | .vnot q ty d a _ => guardOk q && vecTyOk 0x12 ty && dstOk d && srcOk a
  | .vshl q ty d a _ _ => guardOk q && vecTyOk 0x13 ty && dstOk d && srcOk a
  | .vshr q ty d a _ _ => guardOk q && vecTyOk 0x14 ty && dstOk d && srcOk a
  | .vsra q ty d a _ _ => guardOk q && vecTyOk 0x15 ty && dstOk d && srcOk a
  | .vcvt q ty d a dt sf _ _ => guardOk q && vecTyOk 0x16 ty && dstOk d && srcOk a && decide (dt.toNat ≤ 24) && (sf == 0 || (ty == VTy.nar && isPort a))
  | .vpack q ty d a w _ _ _ => guardOk q && vecTyOk 0x17 ty && dstOk d && srcOk a && decide (1 ≤ w.toNat) && decide (w.toNat ≤ 16) && decide (w.toNat < tyWidth ty)
  | .vunpk q ty d a w _ _ => guardOk q && vecTyOk 0x18 ty && dstOk d && srcOk a && decide (1 ≤ w.toNat) && decide (w.toNat ≤ 16) && decide (w.toNat < tyWidth ty)
  | .vbcst q ty d a idx _ => guardOk q && vecTyOk 0x19 ty && dstOk d && srcOk a && decide (idx.toNat < tyCount ty)
  | .vmov q ty d a _ => guardOk q && vecTyOk 0x1A ty && dstOk d && srcOk a
  | .vperm q ty d a b _ => guardOk q && vecTyOk 0x1B ty && dstOk d && srcOk a && srcOk b
  | .vrot q ty d a sh _ => guardOk q && vecTyOk 0x1C ty && dstOk d && srcOk a && decide (sh.toNat < tyCount ty)
  | .vred q ty d a rop len _ => guardOk q && vecTyOk 0x1D ty && dstOk d && srcOk a && decide (rop.toNat ≤ 5) && decide (len.toNat ≤ tyCount ty) && (decide (rop.toNat < 4) || isFloat ty)
  | .vscan q ty d a rop _ len _ => guardOk q && vecTyOk 0x1E ty && dstOk d && srcOk a && decide (rop.toNat ≤ 2) && decide (len.toNat ≤ 32)
  | .vnorm q ty d a len _ => guardOk q && vecTyOk 0x1F ty && dstOk d && srcOk a && decide (len.toNat ≤ tyCount ty)
  | .vclamp q ty d a b _ => guardOk q && vecTyOk 0x20 ty && dstOk d && srcOk a && srcOk b
  | .vlut q ty d a b _ => guardOk q && vecTyOk 0x21 ty && dstOk d && srcOk a && rowOk b
  | .vbmt q ty d a b _ => guardOk q && vecTyOk 0x22 ty && dstOk d && srcOk a && rowOk b
  | .vscatx q ty d a b _ => guardOk q && vecTyOk 0x23 ty && dstOk d && srcOk a && rowOk b
  | .vgathx q ty d a b _ => guardOk q && vecTyOk 0x24 ty && dstOk d && srcOk a && rowOk b
  | .vcnt q ty d a _ => guardOk q && vecTyOk 0x25 ty && dstOk d && srcOk a
  | .vmatch q ty d a b _ => guardOk q && vecTyOk 0x26 ty && dstOk d && srcOk a && srcOk b
  | .vpsum q ty d a _ _ _ => guardOk q && vecTyOk 0x27 ty && dstOk d && srcOk a
  | .vdsc q ty d a _ _ _ _ => guardOk q && vecTyOk 0x28 ty && rowOk d && rowOk a
  | .vrng q ty d a _ => guardOk q && vecTyOk 0x29 ty && dstOk d && srcOk a
  | .vstat q ty d _ => guardOk q && vecTyOk 0x2A ty && dstOk d
  | .rweRingRefill _ => true
  | .bundleIssue _ _ _ => true
  | .secondaryForcedIssue _ _ => true
  | .segmentOverrun _ => true
  | .sliceBoundary => true
  | .arbitrate _ => true
  | .urgentSave _ => true
  | .phaseNodeComplete _ _ _ => true
  | .phaseDrainDone _ => true
  | .phaseExchangeDone _ => true
  | .settlement _ => true
  | .tapCompare _ _ => true
  | .phaseFlip _ => true
  | .phaseStall _ => true
  | .operatorExpand _ => true
  | .shapeResolution _ => true
  | .jobStart _ _ => true
  | .jobComplete _ _ => true
  | .fabricTimeout _ => true
  | .routerSubmission _ => true
  | .orchardReadIssue _ => true
  | .orchardPageLand _ _ _ => true
  | .evictionEnd _ => true
  | .relocationStart _ => true
  | .relocationCommit _ _ => true
  | .blockErase _ _ => true
  | .hbmAccess _ _ _ _ _ => true
  | .hbmMgmtWindowEnd _ _ _ => true
  | .hbmRowIdleClose _ _ _ => true
  | .remapReload _ _ _ => true
  | .linkCrc _ _ => true
  | .linkRetrainDone _ _ _ => true
  | .thermalReading _ _ _ _ _ => true
  | .inletOvertemp _ => true
  | .inboundRmaWrite _ _ _ => true
  | .cqTailDoorbell _ _ => true
  | .cqResetDoorbell _ => true
  | .packetParse _ => true
  | .nop _ => true
  | .launch _ => true
  | .pred _ => true
  | .predTest _ => true
  | .signalAdd _ => true
  | .signalStore _ => true
  | .signalChainWord _ => true
  | .signalRefused _ => true
  | .waitc _ => true
  | .waitcSatisfied _ => true
  | .hcopy _ => true
  | .cqFence _ => true
  | .seqcfg _ => true
  | .seedseq _ => true
  | .tapcfgPoint _ => true
  | .tapcfgSteer _ => true
  | .sptcfg _ => true
  | .qcfg _ => true
  | .hbindBind _ => true
  | .hbindClear _ => true
  | .hbindRebind _ => true
  | .hbindRefused _ => true
  | .evqcfg _ => true
  | .eventRingRoom _ => true
  | .preempt _ => true
  | .resume _ => true
  | .queryStatus _ => true
  | .queryQueue _ => true
  | .querySlots _ => true
  | .queryRefused _ => true
  | .patch _ => true
  | .attest _ => true
  | .ctrlMismatch _ => true
  | .workerSelfcheckFail => true
  | .powerOn _ _ => true
  | .deviceReset _ => true
  | .pctlStart _ => true
  | .pctlStop _ => true
  | .pctlFlagClear _ => true
  | .partitionTableWrite _ _ _ => true
  | .imageLoad _ _ _ => true
  | .imageLoadDone => true
  | .arbSliceWrite _ => true
  | .arbOvrcntClear _ => true
  | .portmapWrite _ => true
  | .psWrite _ _ _ => true
  | .canopyDebtClear _ => true
  | .hintdropClear _ => true
  | .hbmWatchWrite _ _ _ => true
  | .hbmCounterClear _ _ _ => true
  | .registerWrite _ _ => true
  | .stkfail _ => true
  | .peerReject _ => true
  | .collMismatch _ => true
  | .inletFallsBelow40 _ => true
  | .ctrlRecoveryDone => true

end Sys2Proof
end

