-- ==== Sys2Proof/Decode.lean ====
section
/-!
DEFINITION. The decoder and the encoder of op words (R228 to R243), microwords (R373, R374) and bundles (R222), and
decodeTableWord. The decoder is total: a word that is no instruction is rejected as ILLEGAL_OP or ILLEGAL_ENC.
-/

namespace Sys2Proof

/-- Bits [lo + n - 1 : lo] of a word. -/
def fld (w : Word) (lo n : Nat) : BitVec n := BitVec.ofNat n (w.toNat / 2 ^ lo)

/-- Bit lo of a word. -/
def flg (w : Word) (lo : Nat) : Bool := w.toNat / 2 ^ lo % 2 == 1

/-- Bits [lo + n - 1 : lo] of a word are zero. -/
def zro (w : Word) (lo n : Nat) : Bool := w.toNat / 2 ^ lo % 2 ^ n == 0

/-- The guard field [63:50] (R63). -/
def guardOf (w : Word) : Guard := ⟨flg w 63, flg w 62, fld w 56 6, fld w 50 6⟩

/-- The opcode field [49:40] (R228). -/
def opcOf (w : Word) : Nat := w.toNat / 2 ^ 40 % 2 ^ 10

/-- An op whose reserved body bits are zero, else ILLEGAL_ENC (R243). -/
def rsv (ok : Bool) (i : Instr) : Except DecErr Instr := if ok then .ok i else .error .illegalEnc

/-- The element type of OPC[3:0] (R241). -/
def vtyOf : Nat → Option VTy
  | 0 => some .fp32 | 1 => some .bf16 | 2 => some .fp16 | 3 => some .i8 | 4 => some .n8 | 5 => some .i16
  | 6 => some .n16 | 7 => some .i32 | 8 => some .n32 | 9 => some .nar | 10 => some .bits | _ => none

/-- The code of an element type (R241). -/
def vtyCode : VTy → Nat
  | .fp32 => 0 | .bf16 => 1 | .fp16 => 2 | .i8 => 3 | .n8 => 4 | .i16 => 5 | .n16 => 6 | .i32 => 7 | .n32 => 8
  | .nar => 9 | .bits => 10

/-- The scalar map (R237). -/
def decodeS (w : Word) : Except DecErr Instr :=
  match opcOf w with
  | 0x000 => rsv (zro w 0 22) (.add (guardOf w) (fld w 34 6) (fld w 28 6) (fld w 22 6))
  | 0x001 => rsv (zro w 0 22) (.sub (guardOf w) (fld w 34 6) (fld w 28 6) (fld w 22 6))
  | 0x002 => rsv (zro w 0 22) (.mul (guardOf w) (fld w 34 6) (fld w 28 6) (fld w 22 6))
  | 0x003 => rsv (zro w 0 22) (.mulh (guardOf w) (fld w 34 6) (fld w 28 6) (fld w 22 6))
  | 0x004 => rsv (zro w 0 22) (.mulhn (guardOf w) (fld w 34 6) (fld w 28 6) (fld w 22 6))
  | 0x005 => rsv (zro w 0 22) (.div (guardOf w) (fld w 34 6) (fld w 28 6) (fld w 22 6))
  | 0x006 => rsv (zro w 0 22) (.divn (guardOf w) (fld w 34 6) (fld w 28 6) (fld w 22 6))
  | 0x007 => rsv (zro w 0 22) (.rem (guardOf w) (fld w 34 6) (fld w 28 6) (fld w 22 6))
  | 0x008 => rsv (zro w 0 22) (.remn (guardOf w) (fld w 34 6) (fld w 28 6) (fld w 22 6))
  | 0x009 => rsv (zro w 0 22) (.and (guardOf w) (fld w 34 6) (fld w 28 6) (fld w 22 6))
  | 0x00A => rsv (zro w 0 22) (.andn (guardOf w) (fld w 34 6) (fld w 28 6) (fld w 22 6))
  | 0x00B => rsv (zro w 0 22) (.or (guardOf w) (fld w 34 6) (fld w 28 6) (fld w 22 6))
  | 0x00C => rsv (zro w 0 22) (.xor (guardOf w) (fld w 34 6) (fld w 28 6) (fld w 22 6))
  | 0x00D => rsv (zro w 0 22) (.nor (guardOf w) (fld w 34 6) (fld w 28 6) (fld w 22 6))
  | 0x00E => rsv (zro w 0 22) (.shl (guardOf w) (fld w 34 6) (fld w 28 6) (fld w 22 6))
  | 0x00F => rsv (zro w 0 22) (.shr (guardOf w) (fld w 34 6) (fld w 28 6) (fld w 22 6))
  | 0x010 => rsv (zro w 0 22) (.sra (guardOf w) (fld w 34 6) (fld w 28 6) (fld w 22 6))
  | 0x011 => rsv (zro w 0 22) (.rot (guardOf w) (fld w 34 6) (fld w 28 6) (fld w 22 6))
  | 0x012 => rsv (zro w 0 28) (.brev (guardOf w) (fld w 34 6) (fld w 28 6))
  | 0x013 => rsv (zro w 0 28) (.clz (guardOf w) (fld w 34 6) (fld w 28 6))
  | 0x014 => rsv (zro w 0 28) (.ctz (guardOf w) (fld w 34 6) (fld w 28 6))
  | 0x015 => rsv (zro w 0 28) (.popc (guardOf w) (fld w 34 6) (fld w 28 6))
  | 0x016 => rsv (zro w 0 22) (.min (guardOf w) (fld w 34 6) (fld w 28 6) (fld w 22 6))
  | 0x017 => rsv (zro w 0 22) (.max (guardOf w) (fld w 34 6) (fld w 28 6) (fld w 22 6))
  | 0x018 => rsv (zro w 0 22) (.minn (guardOf w) (fld w 34 6) (fld w 28 6) (fld w 22 6))
  | 0x019 => rsv (zro w 0 22) (.maxn (guardOf w) (fld w 34 6) (fld w 28 6) (fld w 22 6))
  | 0x01A => rsv (zro w 0 10) (.sel (guardOf w) (fld w 34 6) (fld w 28 6) (fld w 22 6) (fld w 16 6) (fld w 10 6))
  | 0x01B => rsv (zro w 0 10) (.cmp (guardOf w) (fld w 34 6) (fld w 28 6) (fld w 22 6) (fld w 16 6) (fld w 10 6))
  | 0x01C => rsv (zro w 0 22) (.bset (guardOf w) (fld w 34 6) (fld w 28 6) (fld w 22 6))
  | 0x01D => rsv (zro w 0 22) (.bclr (guardOf w) (fld w 34 6) (fld w 28 6) (fld w 22 6))
  | 0x01E => rsv (zro w 0 10) (.bins (guardOf w) (fld w 34 6) (fld w 28 6) (fld w 22 6) (fld w 16 6) (fld w 10 6))
  | 0x01F => rsv (zro w 0 10 && zro w 16 6) (.extr (guardOf w) (fld w 34 6) (fld w 28 6) (fld w 22 6) (fld w 10 6))
  | 0x020 => rsv (zro w 0 10 && zro w 16 6) (.depo (guardOf w) (fld w 34 6) (fld w 28 6) (fld w 22 6) (fld w 10 6))
  | 0x021 => rsv (zro w 0 22) (.aadd (guardOf w) (fld w 34 6) (fld w 28 6) (fld w 22 6))
  | 0x022 => rsv (zro w 0 22) (.adiff (guardOf w) (fld w 34 6) (fld w 28 6) (fld w 22 6))
  | 0x023 => rsv (zro w 0 22) (.achk (guardOf w) (fld w 34 6) (fld w 28 6) (fld w 22 6))
  | 0x040 => rsv (true) (.addImm (guardOf w) (fld w 34 6) (fld w 28 6) (fld w 0 28))
  | 0x041 => rsv (true) (.subImm (guardOf w) (fld w 34 6) (fld w 28 6) (fld w 0 28))
  | 0x042 => rsv (true) (.mulImm (guardOf w) (fld w 34 6) (fld w 28 6) (fld w 0 28))
  | 0x049 => rsv (true) (.andImm (guardOf w) (fld w 34 6) (fld w 28 6) (fld w 0 28))
  | 0x04A => rsv (true) (.andnImm (guardOf w) (fld w 34 6) (fld w 28 6) (fld w 0 28))
  | 0x04B => rsv (true) (.orImm (guardOf w) (fld w 34 6) (fld w 28 6) (fld w 0 28))
  | 0x04C => rsv (true) (.xorImm (guardOf w) (fld w 34 6) (fld w 28 6) (fld w 0 28))
  | 0x056 => rsv (true) (.minImm (guardOf w) (fld w 34 6) (fld w 28 6) (fld w 0 28))
  | 0x057 => rsv (true) (.maxImm (guardOf w) (fld w 34 6) (fld w 28 6) (fld w 0 28))
  | 0x058 => rsv (true) (.minnImm (guardOf w) (fld w 34 6) (fld w 28 6) (fld w 0 28))
  | 0x059 => rsv (true) (.maxnImm (guardOf w) (fld w 34 6) (fld w 28 6) (fld w 0 28))
  | 0x061 => rsv (true) (.aaddImm (guardOf w) (fld w 34 6) (fld w 28 6) (fld w 0 28))
  | 0x063 => rsv (true) (.achkImm (guardOf w) (fld w 34 6) (fld w 28 6) (fld w 0 28))
  | 0x04E => rsv (zro w 6 22) (.shlImm (guardOf w) (fld w 34 6) (fld w 28 6) (fld w 0 6))
  | 0x04F => rsv (zro w 6 22) (.shrImm (guardOf w) (fld w 34 6) (fld w 28 6) (fld w 0 6))
  | 0x050 => rsv (zro w 6 22) (.sraImm (guardOf w) (fld w 34 6) (fld w 28 6) (fld w 0 6))
  | 0x051 => rsv (zro w 6 22) (.rotImm (guardOf w) (fld w 34 6) (fld w 28 6) (fld w 0 6))
  | 0x05C => rsv (zro w 6 22) (.bsetImm (guardOf w) (fld w 34 6) (fld w 28 6) (fld w 0 6))
  | 0x05D => rsv (zro w 6 22) (.bclrImm (guardOf w) (fld w 34 6) (fld w 28 6) (fld w 0 6))
  | 0x05B => rsv (true) (.cmpImm (guardOf w) (fld w 34 6) (fld w 28 6) (fld w 12 16) (fld w 6 6) (fld w 0 6))
  | 0x05F => rsv (zro w 12 16) (.extrImm (guardOf w) (fld w 34 6) (fld w 28 6) (fld w 6 6) (fld w 0 6))
  | 0x060 => rsv (zro w 12 16) (.depoImm (guardOf w) (fld w 34 6) (fld w 28 6) (fld w 6 6) (fld w 0 6))
  | 0x080 => rsv (true) (.movi (guardOf w) (fld w 34 6) (fld w 0 34))
  | 0x081 => rsv (zro w 30 4) (.movhi (guardOf w) (fld w 34 6) (fld w 0 30))
  | 0x090 => rsv (zro w 12 22) (.movc (guardOf w) (fld w 34 6) (fld w 0 12))
  | 0x091 => rsv (zro w 12 16 && zro w 34 6) (.movs (guardOf w) (fld w 28 6) (fld w 0 12))
  | _ => .error .illegalOp

/-- The branch map (R238). -/
def decodeB (w : Word) : Except DecErr Instr :=
  match opcOf w with
  | 0x000 => rsv (zro w 0 6) (.br (guardOf w) (fld w 6 34))
  | 0x001 => rsv (true) (.bri (guardOf w) (fld w 0 6) (fld w 6 34))
  | 0x002 => rsv (true) (.call (guardOf w) (fld w 0 6) (fld w 6 34))
  | 0x003 => rsv (zro w 12 28) (.calli (guardOf w) (fld w 0 6) (fld w 6 6))
  | 0x004 => rsv (zro w 6 34) (.ret (guardOf w) (fld w 0 6))
  | 0x008 => rsv (zro w 4 2 && (if flg w 3 then zro w 12 28 else zro w 38 2)) (.lset (guardOf w) (fld w 0 3) (if flg w 3 then .reg (fld w 6 6) else .imm (fld w 6 32)))
  | 0x009 => rsv (zro w 3 3) (.loop (guardOf w) (fld w 0 3) (fld w 6 34))
  | 0x00A => rsv (true) (.lcld (guardOf w) (fld w 0 6) (fld w 6 34))
  | 0x00C => rsv (zro w 6 34) (.skset (guardOf w) (fld w 0 6))
  | 0x00D => rsv (zro w 6 34) (.skclr (guardOf w) (fld w 0 6))
  | 0x010 => rsv (true) (.cont (guardOf w) (fld w 0 6) (fld w 6 34))
  | 0x011 => rsv (zro w 0 40) (.endTask (guardOf w))
  | 0x012 => rsv (zro w 22 18) (.trap (guardOf w) (fld w 0 6) (fld w 6 16))
  | 0x013 => rsv (zro w 0 6 && zro w 22 18) (.brk (guardOf w) (fld w 6 16))
  | 0x3F0 => rsv (zro w 6 34) (.eret (guardOf w) (fld w 0 6))
  | 0x3F1 => rsv (zro w 6 34) (.idle (guardOf w) (fld w 0 6))
  | _ => .error .illegalOp

/-- The memory and asynchronous map (R239). -/
def decodeC (w : Word) : Except DecErr Instr :=
  match opcOf w with
  | 0x000 => rsv (zro w 0 1 && zro w 27 13) (.ldB (guardOf w) (fld w 21 6) (fld w 15 6) (fld w 1 14))
  | 0x001 => rsv (zro w 0 1 && zro w 27 13) (.ldH (guardOf w) (fld w 21 6) (fld w 15 6) (fld w 1 14))
  | 0x002 => rsv (zro w 0 1 && zro w 27 13) (.ldW (guardOf w) (fld w 21 6) (fld w 15 6) (fld w 1 14))
  | 0x003 => rsv (zro w 0 1 && zro w 27 13) (.ldD (guardOf w) (fld w 21 6) (fld w 15 6) (fld w 1 14))
  | 0x004 => rsv (zro w 0 1 && zro w 27 13) (.ldNB (guardOf w) (fld w 21 6) (fld w 15 6) (fld w 1 14))
  | 0x005 => rsv (zro w 0 1 && zro w 27 13) (.ldNH (guardOf w) (fld w 21 6) (fld w 15 6) (fld w 1 14))
  | 0x006 => rsv (zro w 0 1 && zro w 27 13) (.ldNW (guardOf w) (fld w 21 6) (fld w 15 6) (fld w 1 14))
  | 0x008 => rsv (zro w 0 1 && zro w 27 13) (.stB (guardOf w) (fld w 21 6) (fld w 15 6) (fld w 1 14))
  | 0x009 => rsv (zro w 0 1 && zro w 27 13) (.stH (guardOf w) (fld w 21 6) (fld w 15 6) (fld w 1 14))
  | 0x00A => rsv (zro w 0 1 && zro w 27 13) (.stW (guardOf w) (fld w 21 6) (fld w 15 6) (fld w 1 14))
  | 0x00B => rsv (zro w 0 1 && zro w 27 13) (.stD (guardOf w) (fld w 21 6) (fld w 15 6) (fld w 1 14))
  | 0x010 => rsv (zro w 21 6) (.ldv (guardOf w) (fld w 27 13) (fld w 15 6) (fld w 1 14) (flg w 0))
  | 0x011 => rsv (true) (.stv (guardOf w) (fld w 27 13) (fld w 21 6) (fld w 15 6) (fld w 1 14) (flg w 0))
  | 0x012 => rsv (true) (.ldvx (guardOf w) (fld w 27 13) (fld w 21 6) (fld w 15 6) (fld w 1 14) (flg w 0))
  | 0x013 => rsv (true) (.stvx (guardOf w) (fld w 27 13) (fld w 21 6) (fld w 15 6) (fld w 1 14) (flg w 0))
  | 0x020 => rsv (zro w 0 1 && zro w 33 7) (.amoAdd (guardOf w) (fld w 21 6) (fld w 15 6) (fld w 27 6) (fld w 1 14))
  | 0x021 => rsv (zro w 0 1 && zro w 33 7) (.amoMin (guardOf w) (fld w 21 6) (fld w 15 6) (fld w 27 6) (fld w 1 14))
  | 0x022 => rsv (zro w 0 1 && zro w 33 7) (.amoMax (guardOf w) (fld w 21 6) (fld w 15 6) (fld w 27 6) (fld w 1 14))
  | 0x023 => rsv (zro w 0 1 && zro w 33 7) (.amoMinn (guardOf w) (fld w 21 6) (fld w 15 6) (fld w 27 6) (fld w 1 14))
  | 0x024 => rsv (zro w 0 1 && zro w 33 7) (.amoMaxn (guardOf w) (fld w 21 6) (fld w 15 6) (fld w 27 6) (fld w 1 14))
  | 0x025 => rsv (zro w 0 1 && zro w 33 7) (.amoAnd (guardOf w) (fld w 21 6) (fld w 15 6) (fld w 27 6) (fld w 1 14))
  | 0x026 => rsv (zro w 0 1 && zro w 33 7) (.amoOr (guardOf w) (fld w 21 6) (fld w 15 6) (fld w 27 6) (fld w 1 14))
  | 0x027 => rsv (zro w 0 1 && zro w 33 7) (.amoXor (guardOf w) (fld w 21 6) (fld w 15 6) (fld w 27 6) (fld w 1 14))
  | 0x028 => rsv (zro w 0 1 && zro w 33 7) (.amoSwap (guardOf w) (fld w 21 6) (fld w 15 6) (fld w 27 6) (fld w 1 14))
  | 0x029 => rsv (zro w 0 1 && zro w 33 7) (.amocas (guardOf w) (fld w 21 6) (fld w 15 6) (fld w 27 6) (fld w 1 14))
  | 0x030 => rsv (zro w 0 1 && zro w 33 7) (.amoAddW (guardOf w) (fld w 21 6) (fld w 15 6) (fld w 27 6) (fld w 1 14))
  | 0x031 => rsv (zro w 0 1 && zro w 33 7) (.amoMinW (guardOf w) (fld w 21 6) (fld w 15 6) (fld w 27 6) (fld w 1 14))
  | 0x032 => rsv (zro w 0 1 && zro w 33 7) (.amoMaxW (guardOf w) (fld w 21 6) (fld w 15 6) (fld w 27 6) (fld w 1 14))
  | 0x033 => rsv (zro w 0 1 && zro w 33 7) (.amoMinnW (guardOf w) (fld w 21 6) (fld w 15 6) (fld w 27 6) (fld w 1 14))
  | 0x034 => rsv (zro w 0 1 && zro w 33 7) (.amoMaxnW (guardOf w) (fld w 21 6) (fld w 15 6) (fld w 27 6) (fld w 1 14))
  | 0x035 => rsv (zro w 0 1 && zro w 33 7) (.amoAndW (guardOf w) (fld w 21 6) (fld w 15 6) (fld w 27 6) (fld w 1 14))
  | 0x036 => rsv (zro w 0 1 && zro w 33 7) (.amoOrW (guardOf w) (fld w 21 6) (fld w 15 6) (fld w 27 6) (fld w 1 14))
  | 0x037 => rsv (zro w 0 1 && zro w 33 7) (.amoXorW (guardOf w) (fld w 21 6) (fld w 15 6) (fld w 27 6) (fld w 1 14))
  | 0x038 => rsv (zro w 0 1 && zro w 33 7) (.amoSwapW (guardOf w) (fld w 21 6) (fld w 15 6) (fld w 27 6) (fld w 1 14))
  | 0x039 => rsv (zro w 0 1 && zro w 33 7) (.amocasW (guardOf w) (fld w 21 6) (fld w 15 6) (fld w 27 6) (fld w 1 14))
  | 0x03A => rsv (zro w 0 1 && zro w 33 7) (.amofadd (guardOf w) (fld w 21 6) (fld w 15 6) (fld w 27 6) (fld w 1 14))
  | 0x040 => rsv (zro w 0 2 && zro w 15 25) (.fence (guardOf w) (fld w 10 5) (fld w 5 5) (fld w 2 3))
  | 0x041 => rsv (zro w 0 1 && zro w 27 13) (.pref (guardOf w) (fld w 21 6) (fld w 15 6) (fld w 1 14))
  | 0x048 => rsv (zro w 0 8 && zro w 15 25) (.barArrive (guardOf w) ⟨fld w 12 3, fld w 9 3, flg w 8⟩)
  | 0x049 => rsv (zro w 0 8 && zro w 15 25) (.barWait (guardOf w) ⟨fld w 12 3, fld w 9 3, flg w 8⟩)
  | 0x04A => rsv (zro w 0 40) (.barPhase (guardOf w))
  | 0x04B => rsv (zro w 0 4 && zro w 27 13) (.barr (guardOf w) (fld w 21 6) (fld w 15 6) ⟨fld w 12 3, fld w 9 3, flg w 8⟩ (fld w 5 3) (flg w 4))
  | 0x050 => rsv (zro w 0 1 && zro w 33 7) (.cwait (guardOf w) (fld w 21 6) (fld w 15 6) (fld w 27 6) (fld w 1 14))
  | 0x051 => rsv (zro w 0 1 && zro w 27 13) (.cread (guardOf w) (fld w 21 6) (fld w 15 6) (fld w 1 14))
  | 0x052 => rsv (zro w 0 1 && zro w 33 7) (.cadd (guardOf w) (fld w 21 6) (fld w 15 6) (fld w 27 6) (fld w 1 14))
  | 0x058 => rsv (zro w 0 15) (.wqenq (guardOf w) (fld w 27 13) (fld w 21 6) (fld w 15 6))
  | 0x059 => rsv (zro w 0 15) (.wqdeq (guardOf w) (fld w 27 13) (fld w 21 6) (fld w 15 6))
  | 0x05A => rsv (zro w 0 15) (.wqpeek (guardOf w) (fld w 27 13) (fld w 21 6) (fld w 15 6))
  | 0x05B => rsv (zro w 0 15 && zro w 27 13) (.jdec (guardOf w) (fld w 21 6) (fld w 15 6))
  | 0x060 => rsv (zro w 0 3 && zro w 27 13) (.talloc (guardOf w) (fld w 21 6) (fld w 15 6) (flg w 14) (flg w 13) (fld w 8 5) (fld w 3 5))
  | 0x061 => rsv (zro w 0 15 && zro w 21 19) (.tfree (guardOf w) (fld w 15 6))
  | 0x062 => rsv (zro w 0 1 && zro w 3 12 && zro w 27 13) (.tqry (guardOf w) (fld w 21 6) (fld w 15 6) (fld w 1 2))
  | 0x063 => rsv (zro w 0 15 && zro w 27 13) (.balloc (guardOf w) (fld w 21 6) (fld w 15 6))
  | 0x068 => rsv (zro w 0 15 && zro w 21 19) (.cact (guardOf w) (fld w 15 6))
  | 0x069 => rsv (zro w 0 15 && zro w 21 19) (.cpre (guardOf w) (fld w 15 6))
  | 0x06A => rsv (zro w 0 15 && zro w 21 19) (.cref (guardOf w) (fld w 15 6))
  | 0x06B => rsv (zro w 21 6) (.cld (guardOf w) (fld w 27 13) (fld w 15 6) (fld w 1 14) (flg w 0))
  | 0x06C => rsv (zro w 21 6) (.cst (guardOf w) (fld w 27 13) (fld w 15 6) (fld w 1 14) (flg w 0))
  | 0x070 => rsv (zro w 0 1 && zro w 3 12 && zro w 27 13) (.htest (guardOf w) (fld w 21 6) (fld w 15 6) (fld w 1 2))
  | 0x071 => rsv (zro w 0 15 && zro w 21 19) (.hreq (guardOf w) (fld w 15 6))
  | 0x072 => rsv (zro w 0 15 && zro w 21 19) (.hpin (guardOf w) (fld w 15 6))
  | 0x073 => rsv (zro w 0 15 && zro w 21 19) (.hrel (guardOf w) (fld w 15 6))
  | 0x100 => rsv (zro w 0 11) (.xcopy (guardOf w) (fld w 34 6) (fld w 28 6) (fld w 12 16) (flg w 11))
  | 0x101 => rsv (zro w 0 11) (.xgath (guardOf w) (fld w 34 6) (fld w 28 6) (fld w 12 16) (flg w 11))
  | 0x102 => rsv (zro w 0 11) (.xscat (guardOf w) (fld w 34 6) (fld w 28 6) (fld w 12 16) (flg w 11))
  | 0x103 => rsv (zro w 0 11) (.xred (guardOf w) (fld w 34 6) (fld w 28 6) (fld w 12 16) (flg w 11))
  | 0x104 => rsv (zro w 0 11) (.xconv (guardOf w) (fld w 34 6) (fld w 28 6) (fld w 12 16) (flg w 11))
  | 0x105 => rsv (zro w 0 11) (.xfill (guardOf w) (fld w 34 6) (fld w 28 6) (fld w 12 16) (flg w 11))
  | 0x106 => rsv (zro w 0 12) (.xcoll (guardOf w) (fld w 34 6) (fld w 28 6) (fld w 12 16))
  | 0x107 => rsv (zro w 0 12) (.xpeer (guardOf w) (fld w 34 6) (fld w 28 6) (fld w 12 16))
  | 0x108 => rsv (zro w 0 12) (.xcanw (guardOf w) (fld w 34 6) (fld w 28 6) (fld w 12 16))
  | 0x110 => rsv (zro w 0 12) (.rtsub (guardOf w) (fld w 34 6) (fld w 28 6) (fld w 12 16))
  | 0x111 => rsv (zro w 0 12) (.spalloc (guardOf w) (fld w 34 6) (fld w 28 6) (fld w 12 16))
  | 0x112 => rsv (zro w 0 12) (.gcmt (guardOf w) (fld w 34 6) (fld w 28 6) (fld w 12 16))
  | 0x113 => rsv (zro w 0 34) (.tapx (guardOf w) (fld w 34 6))
  | 0x114 => rsv (zro w 0 34) (.shres (guardOf w) (fld w 34 6))
  | 0x118 => rsv (zro w 0 15 && zro w 27 13) (.tapq (guardOf w) (fld w 21 6) (fld w 15 6))
  | 0x119 => rsv (zro w 0 21 && zro w 27 13) (.shprd (guardOf w) (fld w 21 6))
  | 0x3E0 => rsv (zro w 0 12 && zro w 27 13) (.tlbi (guardOf w) (fld w 21 6) (fld w 15 6) (fld w 12 3))
  | 0x3E1 => rsv (zro w 0 12 && zro w 21 19) (.l1inv (guardOf w) (fld w 15 6) (fld w 12 3))
  | 0x3E2 => rsv (zro w 0 15 && zro w 27 13) (.ctxsv (guardOf w) (fld w 21 6) (fld w 15 6))
  | 0x3E3 => rsv (zro w 0 15 && zro w 27 13) (.ctxld (guardOf w) (fld w 21 6) (fld w 15 6))
  | _ => .error .illegalOp

/-- The matrix map (R240). -/
def decodeM (w : Word) : Except DecErr Instr :=
  match opcOf w with
  | 0x000 => rsv (zro w 0 11 && zro w 16 8 && zro w 37 3) (.mldw (guardOf w) (fld w 24 13) (fld w 11 5))
  | 0x001 => rsv (zro w 0 1 && zro w 2 3 && zro w 16 24) (.mldwc (guardOf w) (fld w 5 6) (fld w 11 5) (flg w 1))
  | 0x002 => rsv (zro w 2 3 && zro w 16 8) (.mstrm (guardOf w) (fld w 37 3) (fld w 24 13) (fld w 11 5) (fld w 5 6) (flg w 1) (flg w 0))
  | 0x003 => rsv (zro w 2 3 && zro w 16 8) (.mbatch (guardOf w) (fld w 37 3) (fld w 24 13) (fld w 11 5) (fld w 5 6) (flg w 1) (flg w 0))
  | 0x004 => rsv (zro w 4 1 && zro w 21 3) (.mdrain (guardOf w) (fld w 37 3) (fld w 24 13) (fld w 11 6) (fld w 17 4) (fld w 5 6) (flg w 1) (flg w 2) (flg w 3) (flg w 0))
  | 0x005 => rsv (zro w 0 37) (.mzero (guardOf w) (fld w 37 3))
  | 0x006 => rsv (zro w 0 37) (.mfree (guardOf w) (fld w 37 3))
  | 0x007 => rsv (zro w 0 1 && zro w 2 22 && zro w 37 3) (.mscl (guardOf w) (fld w 24 13) (flg w 1))
  | 0x008 => rsv (zro w 0 11 && zro w 19 18) (.mcall (guardOf w) (fld w 11 8) (fld w 37 3))
  | 0x009 => rsv (zro w 0 1 && zro w 2 3 && zro w 11 13 && zro w 37 3) (.mmpw (guardOf w) (fld w 24 13) (fld w 5 6) (flg w 1))
  | 0x00A => rsv (zro w 0 1 && zro w 2 3 && zro w 11 29) (.mstat (guardOf w) (fld w 5 6) (flg w 1))
  | _ => .error .illegalOp

/-- MAXNUM and MINNUM of VRED are listed for floating types only (R324). -/
def vredPairOk (ty : VTy) (w : Word) : Bool := isFloat ty || !((fld w 1 3).toNat == 4 || (fld w 1 3).toNat == 5)

/-- The vector map (R241): operation OPC[9:4], type OPC[3:0]. -/
def decodeV (w : Word) : Except DecErr Instr :=
  match vtyOf (opcOf w % 16) with
  | none => .error .illegalOp
  | some ty =>
    if !vecTyOk (opcOf w / 16) ty then .error .illegalOp else
    match opcOf w / 16 with
    | 0x00 => rsv (true) (.vadd (guardOf w) ty (fld w 27 13) (fld w 14 13) (fld w 1 13) (flg w 0))
    | 0x01 => rsv (true) (.vsub (guardOf w) ty (fld w 27 13) (fld w 14 13) (fld w 1 13) (flg w 0))
    | 0x02 => rsv (true) (.vmul (guardOf w) ty (fld w 27 13) (fld w 14 13) (fld w 1 13) (flg w 0))
    | 0x03 => rsv (true) (.vfma (guardOf w) ty (fld w 27 13) (fld w 14 13) (fld w 1 13) (flg w 0))
    | 0x04 => rsv (true) (.vfms (guardOf w) ty (fld w 27 13) (fld w 14 13) (fld w 1 13) (flg w 0))
    | 0x05 => rsv (true) (.vmax (guardOf w) ty (fld w 27 13) (fld w 14 13) (fld w 1 13) (flg w 0))
    | 0x06 => rsv (true) (.vmin (guardOf w) ty (fld w 27 13) (fld w 14 13) (fld w 1 13) (flg w 0))
    | 0x07 => rsv (zro w 1 13) (.vabs (guardOf w) ty (fld w 27 13) (fld w 14 13) (flg w 0))
    | 0x08 => rsv (zro w 1 13) (.vneg (guardOf w) ty (fld w 27 13) (fld w 14 13) (flg w 0))
    | 0x09 => rsv (zro w 1 13) (.vrcp (guardOf w) ty (fld w 27 13) (fld w 14 13) (flg w 0))
    | 0x0A => rsv (zro w 1 13) (.vrsq (guardOf w) ty (fld w 27 13) (fld w 14 13) (flg w 0))
    | 0x0B => rsv (zro w 1 13) (.vexp2 (guardOf w) ty (fld w 27 13) (fld w 14 13) (flg w 0))
    | 0x0C => rsv (zro w 1 13) (.vlog2 (guardOf w) ty (fld w 27 13) (fld w 14 13) (flg w 0))
    | 0x0D => rsv (zro w 5 9) (.vcmp (guardOf w) ty (fld w 27 13) (fld w 14 13) (fld w 1 4) (flg w 0))
    | 0x0E => rsv (true) (.vsel (guardOf w) ty (fld w 27 13) (fld w 14 13) (fld w 1 13) (flg w 0))
    | 0x0F => rsv (true) (.vand (guardOf w) ty (fld w 27 13) (fld w 14 13) (fld w 1 13) (flg w 0))
    | 0x10 => rsv (true) (.vor (guardOf w) ty (fld w 27 13) (fld w 14 13) (fld w 1 13) (flg w 0))
    | 0x11 => rsv (true) (.vxor (guardOf w) ty (fld w 27 13) (fld w 14 13) (fld w 1 13) (flg w 0))
    | 0x12 => rsv (zro w 1 13) (.vnot (guardOf w) ty (fld w 27 13) (fld w 14 13) (flg w 0))
    | 0x13 => rsv (zro w 7 7) (.vshl (guardOf w) ty (fld w 27 13) (fld w 14 13) (fld w 1 6) (flg w 0))
    | 0x14 => rsv (zro w 7 7) (.vshr (guardOf w) ty (fld w 27 13) (fld w 14 13) (fld w 1 6) (flg w 0))
    | 0x15 => rsv (zro w 7 7) (.vsra (guardOf w) ty (fld w 27 13) (fld w 14 13) (fld w 1 6) (flg w 0))
    | 0x16 => rsv (zro w 13 1) (.vcvt (guardOf w) ty (fld w 27 13) (fld w 14 13) (fld w 1 5) (fld w 6 4) (fld w 10 3) (flg w 0))
    | 0x17 => rsv (zro w 10 4) (.vpack (guardOf w) ty (fld w 27 13) (fld w 14 13) (fld w 1 5) (flg w 6) (fld w 7 3) (flg w 0))
    | 0x18 => rsv (zro w 6 1 && zro w 10 4) (.vunpk (guardOf w) ty (fld w 27 13) (fld w 14 13) (fld w 1 5) (fld w 7 3) (flg w 0))
    | 0x19 => rsv (zro w 9 5) (.vbcst (guardOf w) ty (fld w 27 13) (fld w 14 13) (fld w 1 8) (flg w 0))
    | 0x1A => rsv (zro w 1 13) (.vmov (guardOf w) ty (fld w 27 13) (fld w 14 13) (flg w 0))
    | 0x1B => rsv (true) (.vperm (guardOf w) ty (fld w 27 13) (fld w 14 13) (fld w 1 13) (flg w 0))
    | 0x1C => rsv (zro w 9 5) (.vrot (guardOf w) ty (fld w 27 13) (fld w 14 13) (fld w 1 8) (flg w 0))
    | 0x1D => if vredPairOk ty w then rsv (zro w 12 2) (.vred (guardOf w) ty (fld w 27 13) (fld w 14 13) (fld w 1 3) (fld w 4 8) (flg w 0)) else .error .illegalOp
    | 0x1E => rsv (zro w 12 2) (.vscan (guardOf w) ty (fld w 27 13) (fld w 14 13) (fld w 1 2) (flg w 3) (fld w 4 8) (flg w 0))
    | 0x1F => rsv (zro w 1 3 && zro w 12 2) (.vnorm (guardOf w) ty (fld w 27 13) (fld w 14 13) (fld w 4 8) (flg w 0))
    | 0x20 => rsv (true) (.vclamp (guardOf w) ty (fld w 27 13) (fld w 14 13) (fld w 1 13) (flg w 0))
    | 0x21 => rsv (true) (.vlut (guardOf w) ty (fld w 27 13) (fld w 14 13) (fld w 1 13) (flg w 0))
    | 0x22 => rsv (true) (.vbmt (guardOf w) ty (fld w 27 13) (fld w 14 13) (fld w 1 13) (flg w 0))
    | 0x23 => rsv (true) (.vscatx (guardOf w) ty (fld w 27 13) (fld w 14 13) (fld w 1 13) (flg w 0))
    | 0x24 => rsv (true) (.vgathx (guardOf w) ty (fld w 27 13) (fld w 14 13) (fld w 1 13) (flg w 0))
    | 0x25 => rsv (zro w 1 13) (.vcnt (guardOf w) ty (fld w 27 13) (fld w 14 13) (flg w 0))
    | 0x26 => rsv (true) (.vmatch (guardOf w) ty (fld w 27 13) (fld w 14 13) (fld w 1 13) (flg w 0))
    | 0x27 => rsv (zro w 7 7) (.vpsum (guardOf w) ty (fld w 27 13) (fld w 14 13) (fld w 1 5) (flg w 6) (flg w 0))
    | 0x28 => rsv (zro w 4 10) (.vdsc (guardOf w) ty (fld w 27 13) (fld w 14 13) (flg w 1) (flg w 2) (flg w 3) (flg w 0))
    | 0x29 => rsv (zro w 1 13) (.vrng (guardOf w) ty (fld w 27 13) (fld w 14 13) (flg w 0))
    | 0x2A => rsv (zro w 2 25) (.vstat (guardOf w) ty (fld w 27 13) ⟨flg w 1, flg w 0⟩)
    | _ => .error .illegalOp

/-- The op word w at position p: its instruction, or the fate of its encoding (R228, R243). -/
def decodeOp (p : Pos) (w : Word) : Except DecErr Instr :=
  let r := match p with
    | .s0 | .s1 => decodeS w
    | .v0 | .v1 => decodeV w
    | .m => decodeM w
    | .c => decodeC w
    | .b => decodeB w
  match r with
  | .ok i => if wellFormed i then .ok i else .error .illegalEnc
  | .error e => .error e

/-- A microword (R373, R374): its micro-op, or none for sub-code 1 (R375). -/
def decodeMicro (w : Word) : Option Instr :=
  let r : Option Instr := match w.toNat / 2 ^ 59 with
    | 0 => if zro w 0 4 && zro w 9 45 && zro w 56 3 then some (.wload (fld w 54 2) (fld w 4 5)) else none
    | 1 => if zro w 0 59 then some (.wswap) else none
    | 2 => if zro w 0 19 && zro w 35 19 && zro w 56 3 then some (.stream (fld w 54 2) (fld w 19 16)) else none
    | 3 => if zro w 1 18 && zro w 35 21 && zro w 24 11 then some (.accum (fld w 56 3) (fld w 19 16) (flg w 0)) else none
    | 4 => if zro w 3 1 && zro w 13 6 && zro w 35 19 && zro w 25 2 then some (.drain (fld w 56 3) (fld w 54 2) (fld w 4 5) (fld w 19 16) (fld w 9 4) (flg w 0) (flg w 1) (flg w 2)) else none
    | 5 => if zro w 0 48 && zro w 51 8 then some (.mask (fld w 48 3)) else none
    | 6 => if zro w 0 9 && zro w 19 33 && zro w 54 5 then some (.microLoop (fld w 52 2) (fld w 9 10)) else none
    | 7 => if zro w 0 19 && zro w 35 19 && zro w 56 3 then some (.microStep (fld w 54 2) (fld w 19 16)) else none
    | 8 => if zro w 2 17 && zro w 51 1 && zro w 56 3 then some (.param (fld w 54 2) (fld w 52 2) (fld w 48 3) (fld w 35 13) (fld w 19 16) (fld w 0 2)) else none
    | 9 => if zro w 0 9 && zro w 19 33 && zro w 54 5 then some (.branchz (fld w 52 2) (fld w 9 10)) else none
    | 10 => if zro w 0 59 then some (.waitw) else none
    | 11 => if zro w 1 53 && zro w 56 3 then some (.scale (fld w 54 2) (flg w 0)) else none
    | 12 => if zro w 0 19 && zro w 35 24 then some (.nopm (fld w 19 16)) else none
    | 13 => if zro w 0 59 then some (.endm) else none
    | _ => none
  match r with
  | some i => if wellFormed i then some i else none
  | none => none

/-- The opcode map that a position uses (R228). -/
def mapPos : Instr → Option Pos
  | .add _ _ _ _ => some .s0
  | .sub _ _ _ _ => some .s0
  | .mul _ _ _ _ => some .s0
  | .mulh _ _ _ _ => some .s0
  | .mulhn _ _ _ _ => some .s0
  | .div _ _ _ _ => some .s0
  | .divn _ _ _ _ => some .s0
  | .rem _ _ _ _ => some .s0
  | .remn _ _ _ _ => some .s0
  | .and _ _ _ _ => some .s0
  | .andn _ _ _ _ => some .s0
  | .or _ _ _ _ => some .s0
  | .xor _ _ _ _ => some .s0
  | .nor _ _ _ _ => some .s0
  | .shl _ _ _ _ => some .s0
  | .shr _ _ _ _ => some .s0
  | .sra _ _ _ _ => some .s0
  | .rot _ _ _ _ => some .s0
  | .brev _ _ _ => some .s0
  | .clz _ _ _ => some .s0
  | .ctz _ _ _ => some .s0
  | .popc _ _ _ => some .s0
  | .min _ _ _ _ => some .s0
  | .max _ _ _ _ => some .s0
  | .minn _ _ _ _ => some .s0
  | .maxn _ _ _ _ => some .s0
  | .sel _ _ _ _ _ _ => some .s0
  | .cmp _ _ _ _ _ _ => some .s0
  | .bset _ _ _ _ => some .s0
  | .bclr _ _ _ _ => some .s0
  | .bins _ _ _ _ _ _ => some .s0
  | .extr _ _ _ _ _ => some .s0
  | .depo _ _ _ _ _ => some .s0
  | .aadd _ _ _ _ => some .s0
  | .adiff _ _ _ _ => some .s0
  | .achk _ _ _ _ => some .s0
  | .addImm _ _ _ _ => some .s0
  | .subImm _ _ _ _ => some .s0
  | .mulImm _ _ _ _ => some .s0
  | .andImm _ _ _ _ => some .s0
  | .andnImm _ _ _ _ => some .s0
  | .orImm _ _ _ _ => some .s0
  | .xorImm _ _ _ _ => some .s0
  | .shlImm _ _ _ _ => some .s0
  | .shrImm _ _ _ _ => some .s0
  | .sraImm _ _ _ _ => some .s0
  | .rotImm _ _ _ _ => some .s0
  | .minImm _ _ _ _ => some .s0
  | .maxImm _ _ _ _ => some .s0
  | .minnImm _ _ _ _ => some .s0
  | .maxnImm _ _ _ _ => some .s0
  | .cmpImm _ _ _ _ _ _ => some .s0
  | .bsetImm _ _ _ _ => some .s0
  | .bclrImm _ _ _ _ => some .s0
  | .extrImm _ _ _ _ _ => some .s0
  | .depoImm _ _ _ _ _ => some .s0
  | .aaddImm _ _ _ _ => some .s0
  | .achkImm _ _ _ _ => some .s0
  | .movi _ _ _ => some .s0
  | .movhi _ _ _ => some .s0
  | .movc _ _ _ => some .s0
  | .movs _ _ _ => some .s0
  | .br _ _ => some .b
  | .bri _ _ _ => some .b
  | .call _ _ _ => some .b
  | .calli _ _ _ => some .b
  | .ret _ _ => some .b
  | .lset _ _ _ => some .b
  | .loop _ _ _ => some .b
  | .lcld _ _ _ => some .b
  | .skset _ _ => some .b
  | .skclr _ _ => some .b
  | .cont _ _ _ => some .b
  | .endTask _ => some .b
  | .trap _ _ _ => some .b
  | .brk _ _ => some .b
  | .eret _ _ => some .b
  | .idle _ _ => some .b
  | .ldB _ _ _ _ => some .c
  | .ldH _ _ _ _ => some .c
  | .ldW _ _ _ _ => some .c
  | .ldD _ _ _ _ => some .c
  | .ldNB _ _ _ _ => some .c
  | .ldNH _ _ _ _ => some .c
  | .ldNW _ _ _ _ => some .c
  | .stB _ _ _ _ => some .c
  | .stH _ _ _ _ => some .c
  | .stW _ _ _ _ => some .c
  | .stD _ _ _ _ => some .c
  | .ldv _ _ _ _ _ => some .c
  | .stv _ _ _ _ _ _ => some .c
  | .ldvx _ _ _ _ _ _ => some .c
  | .stvx _ _ _ _ _ _ => some .c
  | .amoAdd _ _ _ _ _ => some .c
  | .amoMin _ _ _ _ _ => some .c
  | .amoMax _ _ _ _ _ => some .c
  | .amoMinn _ _ _ _ _ => some .c
  | .amoMaxn _ _ _ _ _ => some .c
  | .amoAnd _ _ _ _ _ => some .c
  | .amoOr _ _ _ _ _ => some .c
  | .amoXor _ _ _ _ _ => some .c
  | .amoSwap _ _ _ _ _ => some .c
  | .amocas _ _ _ _ _ => some .c
  | .amoAddW _ _ _ _ _ => some .c
  | .amoMinW _ _ _ _ _ => some .c
  | .amoMaxW _ _ _ _ _ => some .c
  | .amoMinnW _ _ _ _ _ => some .c
  | .amoMaxnW _ _ _ _ _ => some .c
  | .amoAndW _ _ _ _ _ => some .c
  | .amoOrW _ _ _ _ _ => some .c
  | .amoXorW _ _ _ _ _ => some .c
  | .amoSwapW _ _ _ _ _ => some .c
  | .amocasW _ _ _ _ _ => some .c
  | .amofadd _ _ _ _ _ => some .c
  | .fence _ _ _ _ => some .c
  | .pref _ _ _ _ => some .c
  | .barArrive _ _ => some .c
  | .barWait _ _ => some .c
  | .barPhase _ => some .c
  | .barr _ _ _ _ _ _ => some .c
  | .cwait _ _ _ _ _ => some .c
  | .cread _ _ _ _ => some .c
  | .cadd _ _ _ _ _ => some .c
  | .wqenq _ _ _ _ => some .c
  | .wqdeq _ _ _ _ => some .c
  | .wqpeek _ _ _ _ => some .c
  | .jdec _ _ _ => some .c
  | .talloc _ _ _ _ _ _ _ => some .c
  | .tfree _ _ => some .c
  | .tqry _ _ _ _ => some .c
  | .balloc _ _ _ => some .c
  | .cact _ _ => some .c
  | .cpre _ _ => some .c
  | .cref _ _ => some .c
  | .cld _ _ _ _ _ => some .c
  | .cst _ _ _ _ _ => some .c
  | .htest _ _ _ _ => some .c
  | .hreq _ _ => some .c
  | .hpin _ _ => some .c
  | .hrel _ _ => some .c
  | .xcopy _ _ _ _ _ => some .c
  | .xgath _ _ _ _ _ => some .c
  | .xscat _ _ _ _ _ => some .c
  | .xred _ _ _ _ _ => some .c
  | .xconv _ _ _ _ _ => some .c
  | .xfill _ _ _ _ _ => some .c
  | .xcoll _ _ _ _ => some .c
  | .xpeer _ _ _ _ => some .c
  | .xcanw _ _ _ _ => some .c
  | .rtsub _ _ _ _ => some .c
  | .spalloc _ _ _ _ => some .c
  | .gcmt _ _ _ _ => some .c
  | .tapx _ _ => some .c
  | .shres _ _ => some .c
  | .tapq _ _ _ => some .c
  | .shprd _ _ => some .c
  | .tlbi _ _ _ _ => some .c
  | .l1inv _ _ _ => some .c
  | .ctxsv _ _ _ => some .c
  | .ctxld _ _ _ => some .c
  | .mldw _ _ _ => some .m
  | .mldwc _ _ _ _ => some .m
  | .mstrm _ _ _ _ _ _ _ => some .m
  | .mbatch _ _ _ _ _ _ _ => some .m
  | .mdrain _ _ _ _ _ _ _ _ _ _ => some .m
  | .mzero _ _ => some .m
  | .mfree _ _ => some .m
  | .mscl _ _ _ => some .m
  | .mcall _ _ _ => some .m
  | .mmpw _ _ _ _ => some .m
  | .mstat _ _ _ => some .m
  | .vadd _ _ _ _ _ _ => some .v0
  | .vsub _ _ _ _ _ _ => some .v0
  | .vmul _ _ _ _ _ _ => some .v0
  | .vfma _ _ _ _ _ _ => some .v0
  | .vfms _ _ _ _ _ _ => some .v0
  | .vmax _ _ _ _ _ _ => some .v0
  | .vmin _ _ _ _ _ _ => some .v0
  | .vabs _ _ _ _ _ => some .v0
  | .vneg _ _ _ _ _ => some .v0
  | .vrcp _ _ _ _ _ => some .v0
  | .vrsq _ _ _ _ _ => some .v0
  | .vexp2 _ _ _ _ _ => some .v0
  | .vlog2 _ _ _ _ _ => some .v0
  | .vcmp _ _ _ _ _ _ => some .v0
  | .vsel _ _ _ _ _ _ => some .v0
  | .vand _ _ _ _ _ _ => some .v0
  | .vor _ _ _ _ _ _ => some .v0
  | .vxor _ _ _ _ _ _ => some .v0
  | .vnot _ _ _ _ _ => some .v0
  | .vshl _ _ _ _ _ _ => some .v0
  | .vshr _ _ _ _ _ _ => some .v0
  | .vsra _ _ _ _ _ _ => some .v0
  | .vcvt _ _ _ _ _ _ _ _ => some .v0
  | .vpack _ _ _ _ _ _ _ _ => some .v0
  | .vunpk _ _ _ _ _ _ _ => some .v0
  | .vbcst _ _ _ _ _ _ => some .v0
  | .vmov _ _ _ _ _ => some .v0
  | .vperm _ _ _ _ _ _ => some .v0
  | .vrot _ _ _ _ _ _ => some .v0
  | .vred _ _ _ _ _ _ _ => some .v0
  | .vscan _ _ _ _ _ _ _ _ => some .v0
  | .vnorm _ _ _ _ _ _ => some .v0
  | .vclamp _ _ _ _ _ _ => some .v0
  | .vlut _ _ _ _ _ _ => some .v0
  | .vbmt _ _ _ _ _ _ => some .v0
  | .vscatx _ _ _ _ _ _ => some .v0
  | .vgathx _ _ _ _ _ _ => some .v0
  | .vcnt _ _ _ _ _ => some .v0
  | .vmatch _ _ _ _ _ _ => some .v0
  | .vpsum _ _ _ _ _ _ _ => some .v0
  | .vdsc _ _ _ _ _ _ _ _ => some .v0
  | .vrng _ _ _ _ _ => some .v0
  | .vstat _ _ _ _ => some .v0
  | _ => none

/-! The packed fields of each body layout: field k at the bit its name gives (R229, R373). -/

/-- Fields at bits 34, 28, 22. -/
def pk_34_28_22 (x0 x1 x2 : Nat) : Nat := x0 * 2 ^ 34 + x1 * 2 ^ 28 + x2 * 2 ^ 22

/-- Fields at bits 34, 28. -/
def pk_34_28 (x0 x1 : Nat) : Nat := x0 * 2 ^ 34 + x1 * 2 ^ 28

/-- Fields at bits 34, 28, 22, 16, 10. -/
def pk_34_28_22_16_10 (x0 x1 x2 x3 x4 : Nat) : Nat := x0 * 2 ^ 34 + x1 * 2 ^ 28 + x2 * 2 ^ 22 + x3 * 2 ^ 16 + x4 * 2 ^ 10

/-- Fields at bits 34, 28, 22, 10. -/
def pk_34_28_22_10 (x0 x1 x2 x3 : Nat) : Nat := x0 * 2 ^ 34 + x1 * 2 ^ 28 + x2 * 2 ^ 22 + x3 * 2 ^ 10

/-- Fields at bits 34, 28, 0. -/
def pk_34_28_0 (x0 x1 x2 : Nat) : Nat := x0 * 2 ^ 34 + x1 * 2 ^ 28 + x2 * 2 ^ 0

/-- Fields at bits 34, 28, 12, 6, 0. -/
def pk_34_28_12_6_0 (x0 x1 x2 x3 x4 : Nat) : Nat := x0 * 2 ^ 34 + x1 * 2 ^ 28 + x2 * 2 ^ 12 + x3 * 2 ^ 6 + x4 * 2 ^ 0

/-- Fields at bits 34, 28, 6, 0. -/
def pk_34_28_6_0 (x0 x1 x2 x3 : Nat) : Nat := x0 * 2 ^ 34 + x1 * 2 ^ 28 + x2 * 2 ^ 6 + x3 * 2 ^ 0

/-- Fields at bits 34, 0. -/
def pk_34_0 (x0 x1 : Nat) : Nat := x0 * 2 ^ 34 + x1 * 2 ^ 0

/-- Fields at bits 28, 0. -/
def pk_28_0 (x0 x1 : Nat) : Nat := x0 * 2 ^ 28 + x1 * 2 ^ 0

/-- Fields at bits 6. -/
def pk_6 (x0 : Nat) : Nat := x0 * 2 ^ 6

/-- Fields at bits 6, 0. -/
def pk_6_0 (x0 x1 : Nat) : Nat := x0 * 2 ^ 6 + x1 * 2 ^ 0

/-- Fields at bits 0. -/
def pk_0 (x0 : Nat) : Nat := x0 * 2 ^ 0

/-- Fields at bits 3, 0. -/
def pk_3_0 (x0 x1 : Nat) : Nat := x0 * 2 ^ 3 + x1 * 2 ^ 0

/-- Fields at bits 21, 15, 1. -/
def pk_21_15_1 (x0 x1 x2 : Nat) : Nat := x0 * 2 ^ 21 + x1 * 2 ^ 15 + x2 * 2 ^ 1

/-- Fields at bits 27, 15, 1, 0. -/
def pk_27_15_1_0 (x0 x1 x2 x3 : Nat) : Nat := x0 * 2 ^ 27 + x1 * 2 ^ 15 + x2 * 2 ^ 1 + x3 * 2 ^ 0

/-- Fields at bits 27, 21, 15, 1, 0. -/
def pk_27_21_15_1_0 (x0 x1 x2 x3 x4 : Nat) : Nat := x0 * 2 ^ 27 + x1 * 2 ^ 21 + x2 * 2 ^ 15 + x3 * 2 ^ 1 + x4 * 2 ^ 0

/-- Fields at bits 27, 21, 15, 1. -/
def pk_27_21_15_1 (x0 x1 x2 x3 : Nat) : Nat := x0 * 2 ^ 27 + x1 * 2 ^ 21 + x2 * 2 ^ 15 + x3 * 2 ^ 1

/-- Fields at bits 10, 5, 2. -/
def pk_10_5_2 (x0 x1 x2 : Nat) : Nat := x0 * 2 ^ 10 + x1 * 2 ^ 5 + x2 * 2 ^ 2

/-- Fields at bits 12, 9, 8. -/
def pk_12_9_8 (x0 x1 x2 : Nat) : Nat := x0 * 2 ^ 12 + x1 * 2 ^ 9 + x2 * 2 ^ 8

/-- Fields at bits 21, 15, 12, 9, 8, 5, 4. -/
def pk_21_15_12_9_8_5_4 (x0 x1 x2 x3 x4 x5 x6 : Nat) : Nat := x0 * 2 ^ 21 + x1 * 2 ^ 15 + x2 * 2 ^ 12 + x3 * 2 ^ 9 + x4 * 2 ^ 8 + x5 * 2 ^ 5 + x6 * 2 ^ 4

/-- Fields at bits 27, 21, 15. -/
def pk_27_21_15 (x0 x1 x2 : Nat) : Nat := x0 * 2 ^ 27 + x1 * 2 ^ 21 + x2 * 2 ^ 15

/-- Fields at bits 21, 15. -/
def pk_21_15 (x0 x1 : Nat) : Nat := x0 * 2 ^ 21 + x1 * 2 ^ 15

/-- Fields at bits 21, 15, 14, 13, 8, 3. -/
def pk_21_15_14_13_8_3 (x0 x1 x2 x3 x4 x5 : Nat) : Nat := x0 * 2 ^ 21 + x1 * 2 ^ 15 + x2 * 2 ^ 14 + x3 * 2 ^ 13 + x4 * 2 ^ 8 + x5 * 2 ^ 3

/-- Fields at bits 15. -/
def pk_15 (x0 : Nat) : Nat := x0 * 2 ^ 15

/-- Fields at bits 34, 28, 12, 11. -/
def pk_34_28_12_11 (x0 x1 x2 x3 : Nat) : Nat := x0 * 2 ^ 34 + x1 * 2 ^ 28 + x2 * 2 ^ 12 + x3 * 2 ^ 11

/-- Fields at bits 34, 28, 12. -/
def pk_34_28_12 (x0 x1 x2 : Nat) : Nat := x0 * 2 ^ 34 + x1 * 2 ^ 28 + x2 * 2 ^ 12

/-- Fields at bits 34. -/
def pk_34 (x0 : Nat) : Nat := x0 * 2 ^ 34

/-- Fields at bits 21. -/
def pk_21 (x0 : Nat) : Nat := x0 * 2 ^ 21

/-- Fields at bits 21, 15, 12. -/
def pk_21_15_12 (x0 x1 x2 : Nat) : Nat := x0 * 2 ^ 21 + x1 * 2 ^ 15 + x2 * 2 ^ 12

/-- Fields at bits 15, 12. -/
def pk_15_12 (x0 x1 : Nat) : Nat := x0 * 2 ^ 15 + x1 * 2 ^ 12

/-- Fields at bits 24, 11. -/
def pk_24_11 (x0 x1 : Nat) : Nat := x0 * 2 ^ 24 + x1 * 2 ^ 11

/-- Fields at bits 11, 5, 1. -/
def pk_11_5_1 (x0 x1 x2 : Nat) : Nat := x0 * 2 ^ 11 + x1 * 2 ^ 5 + x2 * 2 ^ 1

/-- Fields at bits 37, 24, 11, 5, 1, 0. -/
def pk_37_24_11_5_1_0 (x0 x1 x2 x3 x4 x5 : Nat) : Nat := x0 * 2 ^ 37 + x1 * 2 ^ 24 + x2 * 2 ^ 11 + x3 * 2 ^ 5 + x4 * 2 ^ 1 + x5 * 2 ^ 0

/-- Fields at bits 37, 24, 17, 11, 5, 3, 2, 1, 0. -/
def pk_37_24_17_11_5_3_2_1_0 (x0 x1 x2 x3 x4 x5 x6 x7 x8 : Nat) : Nat := x0 * 2 ^ 37 + x1 * 2 ^ 24 + x2 * 2 ^ 17 + x3 * 2 ^ 11 + x4 * 2 ^ 5 + x5 * 2 ^ 3 + x6 * 2 ^ 2 + x7 * 2 ^ 1 + x8 * 2 ^ 0

/-- Fields at bits 37. -/
def pk_37 (x0 : Nat) : Nat := x0 * 2 ^ 37

/-- Fields at bits 24, 1. -/
def pk_24_1 (x0 x1 : Nat) : Nat := x0 * 2 ^ 24 + x1 * 2 ^ 1

/-- Fields at bits 37, 11. -/
def pk_37_11 (x0 x1 : Nat) : Nat := x0 * 2 ^ 37 + x1 * 2 ^ 11

/-- Fields at bits 24, 5, 1. -/
def pk_24_5_1 (x0 x1 x2 : Nat) : Nat := x0 * 2 ^ 24 + x1 * 2 ^ 5 + x2 * 2 ^ 1

/-- Fields at bits 5, 1. -/
def pk_5_1 (x0 x1 : Nat) : Nat := x0 * 2 ^ 5 + x1 * 2 ^ 1

/-- Fields at bits 59, 54, 4. -/
def pk_59_54_4 (x0 x1 x2 : Nat) : Nat := x0 * 2 ^ 59 + x1 * 2 ^ 54 + x2 * 2 ^ 4

/-- Fields at bits 59. -/
def pk_59 (x0 : Nat) : Nat := x0 * 2 ^ 59

/-- Fields at bits 59, 54, 19. -/
def pk_59_54_19 (x0 x1 x2 : Nat) : Nat := x0 * 2 ^ 59 + x1 * 2 ^ 54 + x2 * 2 ^ 19

/-- Fields at bits 59, 56, 19, 0. -/
def pk_59_56_19_0 (x0 x1 x2 x3 : Nat) : Nat := x0 * 2 ^ 59 + x1 * 2 ^ 56 + x2 * 2 ^ 19 + x3 * 2 ^ 0

/-- Fields at bits 59, 56, 54, 19, 9, 4, 2, 1, 0. -/
def pk_59_56_54_19_9_4_2_1_0 (x0 x1 x2 x3 x4 x5 x6 x7 x8 : Nat) : Nat := x0 * 2 ^ 59 + x1 * 2 ^ 56 + x2 * 2 ^ 54 + x3 * 2 ^ 19 + x4 * 2 ^ 9 + x5 * 2 ^ 4 + x6 * 2 ^ 2 + x7 * 2 ^ 1 + x8 * 2 ^ 0

/-- Fields at bits 59, 48. -/
def pk_59_48 (x0 x1 : Nat) : Nat := x0 * 2 ^ 59 + x1 * 2 ^ 48

/-- Fields at bits 59, 52, 9. -/
def pk_59_52_9 (x0 x1 x2 : Nat) : Nat := x0 * 2 ^ 59 + x1 * 2 ^ 52 + x2 * 2 ^ 9

/-- Fields at bits 59, 54, 52, 48, 35, 19, 0. -/
def pk_59_54_52_48_35_19_0 (x0 x1 x2 x3 x4 x5 x6 : Nat) : Nat := x0 * 2 ^ 59 + x1 * 2 ^ 54 + x2 * 2 ^ 52 + x3 * 2 ^ 48 + x4 * 2 ^ 35 + x5 * 2 ^ 19 + x6 * 2 ^ 0

/-- Fields at bits 59, 54, 0. -/
def pk_59_54_0 (x0 x1 x2 : Nat) : Nat := x0 * 2 ^ 59 + x1 * 2 ^ 54 + x2 * 2 ^ 0

/-- Fields at bits 59, 19. -/
def pk_59_19 (x0 x1 : Nat) : Nat := x0 * 2 ^ 59 + x1 * 2 ^ 19

/-- Fields at bits 27, 14, 1, 0. -/
def pk_27_14_1_0 (x0 x1 x2 x3 : Nat) : Nat := x0 * 2 ^ 27 + x1 * 2 ^ 14 + x2 * 2 ^ 1 + x3 * 2 ^ 0

/-- Fields at bits 27, 14, 0. -/
def pk_27_14_0 (x0 x1 x2 : Nat) : Nat := x0 * 2 ^ 27 + x1 * 2 ^ 14 + x2 * 2 ^ 0

/-- Fields at bits 27, 14, 10, 6, 1, 0. -/
def pk_27_14_10_6_1_0 (x0 x1 x2 x3 x4 x5 : Nat) : Nat := x0 * 2 ^ 27 + x1 * 2 ^ 14 + x2 * 2 ^ 10 + x3 * 2 ^ 6 + x4 * 2 ^ 1 + x5 * 2 ^ 0

/-- Fields at bits 27, 14, 7, 6, 1, 0. -/
def pk_27_14_7_6_1_0 (x0 x1 x2 x3 x4 x5 : Nat) : Nat := x0 * 2 ^ 27 + x1 * 2 ^ 14 + x2 * 2 ^ 7 + x3 * 2 ^ 6 + x4 * 2 ^ 1 + x5 * 2 ^ 0

/-- Fields at bits 27, 14, 7, 1, 0. -/
def pk_27_14_7_1_0 (x0 x1 x2 x3 x4 : Nat) : Nat := x0 * 2 ^ 27 + x1 * 2 ^ 14 + x2 * 2 ^ 7 + x3 * 2 ^ 1 + x4 * 2 ^ 0

/-- Fields at bits 27, 14, 4, 1, 0. -/
def pk_27_14_4_1_0 (x0 x1 x2 x3 x4 : Nat) : Nat := x0 * 2 ^ 27 + x1 * 2 ^ 14 + x2 * 2 ^ 4 + x3 * 2 ^ 1 + x4 * 2 ^ 0

/-- Fields at bits 27, 14, 4, 3, 1, 0. -/
def pk_27_14_4_3_1_0 (x0 x1 x2 x3 x4 x5 : Nat) : Nat := x0 * 2 ^ 27 + x1 * 2 ^ 14 + x2 * 2 ^ 4 + x3 * 2 ^ 3 + x4 * 2 ^ 1 + x5 * 2 ^ 0

/-- Fields at bits 27, 14, 4, 0. -/
def pk_27_14_4_0 (x0 x1 x2 x3 : Nat) : Nat := x0 * 2 ^ 27 + x1 * 2 ^ 14 + x2 * 2 ^ 4 + x3 * 2 ^ 0

/-- Fields at bits 27, 14, 6, 1, 0. -/
def pk_27_14_6_1_0 (x0 x1 x2 x3 x4 : Nat) : Nat := x0 * 2 ^ 27 + x1 * 2 ^ 14 + x2 * 2 ^ 6 + x3 * 2 ^ 1 + x4 * 2 ^ 0

/-- Fields at bits 27, 14, 3, 2, 1, 0. -/
def pk_27_14_3_2_1_0 (x0 x1 x2 x3 x4 x5 : Nat) : Nat := x0 * 2 ^ 27 + x1 * 2 ^ 14 + x2 * 2 ^ 3 + x3 * 2 ^ 2 + x4 * 2 ^ 1 + x5 * 2 ^ 0

/-- Fields at bits 27, 1, 0. -/
def pk_27_1_0 (x0 x1 x2 : Nat) : Nat := x0 * 2 ^ 27 + x1 * 2 ^ 1 + x2 * 2 ^ 0

/-- The op word of a guard, an opcode and a body (R228). -/
def mkOp (q : Guard) (opc body : Nat) : Word :=
  BitVec.ofNat 64 (q.ge.toNat * 2 ^ 63 + q.gn.toNat * 2 ^ 62 + q.greg.toNat * 2 ^ 56 + q.gbit.toNat * 2 ^ 50 +
    opc * 2 ^ 40 + body)

/-- OFF34 and AUX[3] of LSET (R275). -/
def loopSrcBits : LoopSrc → Nat
  | .imm n => n.toNat * 2 ^ 3
  | .reg r => r.toNat * 2 ^ 3 + 1

/-- The words of an instruction: one op word for an op, one microword for a micro-op, none for an event. -/
def encode : Instr → List Word
  | .add q d a b => [mkOp q 0x000 (pk_34_28_22 d.toNat a.toNat b.toNat)]
  | .sub q d a b => [mkOp q 0x001 (pk_34_28_22 d.toNat a.toNat b.toNat)]
  | .mul q d a b => [mkOp q 0x002 (pk_34_28_22 d.toNat a.toNat b.toNat)]
  | .mulh q d a b => [mkOp q 0x003 (pk_34_28_22 d.toNat a.toNat b.toNat)]
  | .mulhn q d a b => [mkOp q 0x004 (pk_34_28_22 d.toNat a.toNat b.toNat)]
  | .div q d a b => [mkOp q 0x005 (pk_34_28_22 d.toNat a.toNat b.toNat)]
  | .divn q d a b => [mkOp q 0x006 (pk_34_28_22 d.toNat a.toNat b.toNat)]
  | .rem q d a b => [mkOp q 0x007 (pk_34_28_22 d.toNat a.toNat b.toNat)]
  | .remn q d a b => [mkOp q 0x008 (pk_34_28_22 d.toNat a.toNat b.toNat)]
  | .and q d a b => [mkOp q 0x009 (pk_34_28_22 d.toNat a.toNat b.toNat)]
  | .andn q d a b => [mkOp q 0x00A (pk_34_28_22 d.toNat a.toNat b.toNat)]
  | .or q d a b => [mkOp q 0x00B (pk_34_28_22 d.toNat a.toNat b.toNat)]
  | .xor q d a b => [mkOp q 0x00C (pk_34_28_22 d.toNat a.toNat b.toNat)]
  | .nor q d a b => [mkOp q 0x00D (pk_34_28_22 d.toNat a.toNat b.toNat)]
  | .shl q d a b => [mkOp q 0x00E (pk_34_28_22 d.toNat a.toNat b.toNat)]
  | .shr q d a b => [mkOp q 0x00F (pk_34_28_22 d.toNat a.toNat b.toNat)]
  | .sra q d a b => [mkOp q 0x010 (pk_34_28_22 d.toNat a.toNat b.toNat)]
  | .rot q d a b => [mkOp q 0x011 (pk_34_28_22 d.toNat a.toNat b.toNat)]
  | .brev q d a => [mkOp q 0x012 (pk_34_28 d.toNat a.toNat)]
  | .clz q d a => [mkOp q 0x013 (pk_34_28 d.toNat a.toNat)]
  | .ctz q d a => [mkOp q 0x014 (pk_34_28 d.toNat a.toNat)]
  | .popc q d a => [mkOp q 0x015 (pk_34_28 d.toNat a.toNat)]
  | .min q d a b => [mkOp q 0x016 (pk_34_28_22 d.toNat a.toNat b.toNat)]
  | .max q d a b => [mkOp q 0x017 (pk_34_28_22 d.toNat a.toNat b.toNat)]
  | .minn q d a b => [mkOp q 0x018 (pk_34_28_22 d.toNat a.toNat b.toNat)]
  | .maxn q d a b => [mkOp q 0x019 (pk_34_28_22 d.toNat a.toNat b.toNat)]
  | .sel q d a b f1 f2 => [mkOp q 0x01A (pk_34_28_22_16_10 d.toNat a.toNat b.toNat f1.toNat f2.toNat)]
  | .cmp q d a b bit cond => [mkOp q 0x01B (pk_34_28_22_16_10 d.toNat a.toNat b.toNat bit.toNat cond.toNat)]
  | .bset q d a b => [mkOp q 0x01C (pk_34_28_22 d.toNat a.toNat b.toNat)]
  | .bclr q d a b => [mkOp q 0x01D (pk_34_28_22 d.toNat a.toNat b.toNat)]
  | .bins q d a b f1 f2 => [mkOp q 0x01E (pk_34_28_22_16_10 d.toNat a.toNat b.toNat f1.toNat f2.toNat)]
  | .extr q d a b w => [mkOp q 0x01F (pk_34_28_22_10 d.toNat a.toNat b.toNat w.toNat)]
  | .depo q d a b w => [mkOp q 0x020 (pk_34_28_22_10 d.toNat a.toNat b.toNat w.toNat)]
  | .aadd q d a b => [mkOp q 0x021 (pk_34_28_22 d.toNat a.toNat b.toNat)]
  | .adiff q d a b => [mkOp q 0x022 (pk_34_28_22 d.toNat a.toNat b.toNat)]
  | .achk q d a b => [mkOp q 0x023 (pk_34_28_22 d.toNat a.toNat b.toNat)]
  | .addImm q d a imm => [mkOp q 0x040 (pk_34_28_0 d.toNat a.toNat imm.toNat)]
  | .subImm q d a imm => [mkOp q 0x041 (pk_34_28_0 d.toNat a.toNat imm.toNat)]
  | .mulImm q d a imm => [mkOp q 0x042 (pk_34_28_0 d.toNat a.toNat imm.toNat)]
  | .andImm q d a imm => [mkOp q 0x049 (pk_34_28_0 d.toNat a.toNat imm.toNat)]
  | .andnImm q d a imm => [mkOp q 0x04A (pk_34_28_0 d.toNat a.toNat imm.toNat)]
  | .orImm q d a imm => [mkOp q 0x04B (pk_34_28_0 d.toNat a.toNat imm.toNat)]
  | .xorImm q d a imm => [mkOp q 0x04C (pk_34_28_0 d.toNat a.toNat imm.toNat)]
  | .shlImm q d a n => [mkOp q 0x04E (pk_34_28_0 d.toNat a.toNat n.toNat)]
  | .shrImm q d a n => [mkOp q 0x04F (pk_34_28_0 d.toNat a.toNat n.toNat)]
  | .sraImm q d a n => [mkOp q 0x050 (pk_34_28_0 d.toNat a.toNat n.toNat)]
  | .rotImm q d a n => [mkOp q 0x051 (pk_34_28_0 d.toNat a.toNat n.toNat)]
  | .minImm q d a imm => [mkOp q 0x056 (pk_34_28_0 d.toNat a.toNat imm.toNat)]
  | .maxImm q d a imm => [mkOp q 0x057 (pk_34_28_0 d.toNat a.toNat imm.toNat)]
  | .minnImm q d a imm => [mkOp q 0x058 (pk_34_28_0 d.toNat a.toNat imm.toNat)]
  | .maxnImm q d a imm => [mkOp q 0x059 (pk_34_28_0 d.toNat a.toNat imm.toNat)]
  | .cmpImm q d a imm bit cond => [mkOp q 0x05B (pk_34_28_12_6_0 d.toNat a.toNat imm.toNat bit.toNat cond.toNat)]
  | .bsetImm q d a n => [mkOp q 0x05C (pk_34_28_0 d.toNat a.toNat n.toNat)]
  | .bclrImm q d a n => [mkOp q 0x05D (pk_34_28_0 d.toNat a.toNat n.toNat)]
  | .extrImm q d a lo w => [mkOp q 0x05F (pk_34_28_6_0 d.toNat a.toNat lo.toNat w.toNat)]
  | .depoImm q d a lo w => [mkOp q 0x060 (pk_34_28_6_0 d.toNat a.toNat lo.toNat w.toNat)]
  | .aaddImm q d a imm => [mkOp q 0x061 (pk_34_28_0 d.toNat a.toNat imm.toNat)]
  | .achkImm q d a imm => [mkOp q 0x063 (pk_34_28_0 d.toNat a.toNat imm.toNat)]
  | .movi q d imm => [mkOp q 0x080 (pk_34_0 d.toNat imm.toNat)]
  | .movhi q d imm => [mkOp q 0x081 (pk_34_0 d.toNat imm.toNat)]
  | .movc q d num => [mkOp q 0x090 (pk_34_0 d.toNat num.toNat)]
  | .movs q a num => [mkOp q 0x091 (pk_28_0 a.toNat num.toNat)]
  | .br q off => [mkOp q 0x000 (pk_6 off.toNat)]
  | .bri q n off => [mkOp q 0x001 (pk_6_0 off.toNat n.toNat)]
  | .call q n off => [mkOp q 0x002 (pk_6_0 off.toNat n.toNat)]
  | .calli q n link => [mkOp q 0x003 (pk_6_0 link.toNat n.toNat)]
  | .ret q n => [mkOp q 0x004 (pk_0 n.toNat)]
  | .lset q k src => [mkOp q 0x008 (pk_3_0 (loopSrcBits src) k.toNat)]
  | .loop q k off => [mkOp q 0x009 (pk_6_0 off.toNat k.toNat)]
  | .lcld q n off => [mkOp q 0x00A (pk_6_0 off.toNat n.toNat)]
  | .skset q n => [mkOp q 0x00C (pk_0 n.toNat)]
  | .skclr q n => [mkOp q 0x00D (pk_0 n.toNat)]
  | .cont q n off => [mkOp q 0x010 (pk_6_0 off.toNat n.toNat)]
  | .endTask q => [mkOp q 0x011 (0)]
  | .trap q code payload => [mkOp q 0x012 (pk_6_0 payload.toNat code.toNat)]
  | .brk q tag => [mkOp q 0x013 (pk_6 tag.toNat)]
  | .eret q n => [mkOp q 0x3F0 (pk_0 n.toNat)]
  | .idle q n => [mkOp q 0x3F1 (pk_0 n.toNat)]
  | .ldB q d a off => [mkOp q 0x000 (pk_21_15_1 d.toNat a.toNat off.toNat)]
  | .ldH q d a off => [mkOp q 0x001 (pk_21_15_1 d.toNat a.toNat off.toNat)]
  | .ldW q d a off => [mkOp q 0x002 (pk_21_15_1 d.toNat a.toNat off.toNat)]
  | .ldD q d a off => [mkOp q 0x003 (pk_21_15_1 d.toNat a.toNat off.toNat)]
  | .ldNB q d a off => [mkOp q 0x004 (pk_21_15_1 d.toNat a.toNat off.toNat)]
  | .ldNH q d a off => [mkOp q 0x005 (pk_21_15_1 d.toNat a.toNat off.toNat)]
  | .ldNW q d a off => [mkOp q 0x006 (pk_21_15_1 d.toNat a.toNat off.toNat)]
  | .stB q d a off => [mkOp q 0x008 (pk_21_15_1 d.toNat a.toNat off.toNat)]
  | .stH q d a off => [mkOp q 0x009 (pk_21_15_1 d.toNat a.toNat off.toNat)]
  | .stW q d a off => [mkOp q 0x00A (pk_21_15_1 d.toNat a.toNat off.toNat)]
  | .stD q d a off => [mkOp q 0x00B (pk_21_15_1 d.toNat a.toNat off.toNat)]
  | .ldv q m a off step => [mkOp q 0x010 (pk_27_15_1_0 m.toNat a.toNat off.toNat step.toNat)]
  | .stv q m msk a off step => [mkOp q 0x011 (pk_27_21_15_1_0 m.toNat msk.toNat a.toNat off.toNat step.toNat)]
  | .ldvx q m msk a off step => [mkOp q 0x012 (pk_27_21_15_1_0 m.toNat msk.toNat a.toNat off.toNat step.toNat)]
  | .stvx q m msk a off step => [mkOp q 0x013 (pk_27_21_15_1_0 m.toNat msk.toNat a.toNat off.toNat step.toNat)]
  | .amoAdd q d a b off => [mkOp q 0x020 (pk_27_21_15_1 b.toNat d.toNat a.toNat off.toNat)]
  | .amoMin q d a b off => [mkOp q 0x021 (pk_27_21_15_1 b.toNat d.toNat a.toNat off.toNat)]
  | .amoMax q d a b off => [mkOp q 0x022 (pk_27_21_15_1 b.toNat d.toNat a.toNat off.toNat)]
  | .amoMinn q d a b off => [mkOp q 0x023 (pk_27_21_15_1 b.toNat d.toNat a.toNat off.toNat)]
  | .amoMaxn q d a b off => [mkOp q 0x024 (pk_27_21_15_1 b.toNat d.toNat a.toNat off.toNat)]
  | .amoAnd q d a b off => [mkOp q 0x025 (pk_27_21_15_1 b.toNat d.toNat a.toNat off.toNat)]
  | .amoOr q d a b off => [mkOp q 0x026 (pk_27_21_15_1 b.toNat d.toNat a.toNat off.toNat)]
  | .amoXor q d a b off => [mkOp q 0x027 (pk_27_21_15_1 b.toNat d.toNat a.toNat off.toNat)]
  | .amoSwap q d a b off => [mkOp q 0x028 (pk_27_21_15_1 b.toNat d.toNat a.toNat off.toNat)]
  | .amocas q d a b off => [mkOp q 0x029 (pk_27_21_15_1 b.toNat d.toNat a.toNat off.toNat)]
  | .amoAddW q d a b off => [mkOp q 0x030 (pk_27_21_15_1 b.toNat d.toNat a.toNat off.toNat)]
  | .amoMinW q d a b off => [mkOp q 0x031 (pk_27_21_15_1 b.toNat d.toNat a.toNat off.toNat)]
  | .amoMaxW q d a b off => [mkOp q 0x032 (pk_27_21_15_1 b.toNat d.toNat a.toNat off.toNat)]
  | .amoMinnW q d a b off => [mkOp q 0x033 (pk_27_21_15_1 b.toNat d.toNat a.toNat off.toNat)]
  | .amoMaxnW q d a b off => [mkOp q 0x034 (pk_27_21_15_1 b.toNat d.toNat a.toNat off.toNat)]
  | .amoAndW q d a b off => [mkOp q 0x035 (pk_27_21_15_1 b.toNat d.toNat a.toNat off.toNat)]
  | .amoOrW q d a b off => [mkOp q 0x036 (pk_27_21_15_1 b.toNat d.toNat a.toNat off.toNat)]
  | .amoXorW q d a b off => [mkOp q 0x037 (pk_27_21_15_1 b.toNat d.toNat a.toNat off.toNat)]
  | .amoSwapW q d a b off => [mkOp q 0x038 (pk_27_21_15_1 b.toNat d.toNat a.toNat off.toNat)]
  | .amocasW q d a b off => [mkOp q 0x039 (pk_27_21_15_1 b.toNat d.toNat a.toNat off.toNat)]
  | .amofadd q d a b off => [mkOp q 0x03A (pk_27_21_15_1 b.toNat d.toNat a.toNat off.toNat)]
  | .fence q pred succ scope => [mkOp q 0x040 (pk_10_5_2 pred.toNat succ.toNat scope.toNat)]
  | .pref q lvl a off => [mkOp q 0x041 (pk_21_15_1 lvl.toNat a.toNat off.toNat)]
  | .barArrive q shp => [mkOp q 0x048 (pk_12_9_8 shp.lw.toNat shp.lh.toNat shp.lnch.toNat)]
  | .barWait q shp => [mkOp q 0x049 (pk_12_9_8 shp.lw.toNat shp.lh.toNat shp.lnch.toNat)]
  | .barPhase q => [mkOp q 0x04A (0)]
  | .barr q d a shp rop phm => [mkOp q 0x04B (pk_21_15_12_9_8_5_4 d.toNat a.toNat shp.lw.toNat shp.lh.toNat shp.lnch.toNat rop.toNat phm.toNat)]
  | .cwait q d a b off => [mkOp q 0x050 (pk_27_21_15_1 b.toNat d.toNat a.toNat off.toNat)]
  | .cread q d a off => [mkOp q 0x051 (pk_21_15_1 d.toNat a.toNat off.toNat)]
  | .cadd q d a b off => [mkOp q 0x052 (pk_27_21_15_1 b.toNat d.toNat a.toNat off.toNat)]
  | .wqenq q m d a => [mkOp q 0x058 (pk_27_21_15 m.toNat d.toNat a.toNat)]
  | .wqdeq q m d a => [mkOp q 0x059 (pk_27_21_15 m.toNat d.toNat a.toNat)]
  | .wqpeek q m d a => [mkOp q 0x05A (pk_27_21_15 m.toNat d.toNat a.toNat)]
  | .jdec q d a => [mkOp q 0x05B (pk_21_15 d.toNat a.toNat)]
  | .talloc q d a canopy launchLife fbank wcode => [mkOp q 0x060 (pk_21_15_14_13_8_3 d.toNat a.toNat canopy.toNat launchLife.toNat fbank.toNat wcode.toNat)]
  | .tfree q a => [mkOp q 0x061 (pk_15 a.toNat)]
  | .tqry q d a sel => [mkOp q 0x062 (pk_21_15_1 d.toNat a.toNat sel.toNat)]
  | .balloc q d a => [mkOp q 0x063 (pk_21_15 d.toNat a.toNat)]
  | .cact q a => [mkOp q 0x068 (pk_15 a.toNat)]
  | .cpre q a => [mkOp q 0x069 (pk_15 a.toNat)]
  | .cref q a => [mkOp q 0x06A (pk_15 a.toNat)]
  | .cld q m a off step => [mkOp q 0x06B (pk_27_15_1_0 m.toNat a.toNat off.toNat step.toNat)]
  | .cst q m a off step => [mkOp q 0x06C (pk_27_15_1_0 m.toNat a.toNat off.toNat step.toNat)]
  | .htest q d a sel => [mkOp q 0x070 (pk_21_15_1 d.toNat a.toNat sel.toNat)]
  | .hreq q a => [mkOp q 0x071 (pk_15 a.toNat)]
  | .hpin q a => [mkOp q 0x072 (pk_15 a.toNat)]
  | .hrel q a => [mkOp q 0x073 (pk_15 a.toNat)]
  | .xcopy q gb gc inc exch => [mkOp q 0x100 (pk_34_28_12_11 gb.toNat gc.toNat inc.toNat exch.toNat)]
  | .xgath q gb gc inc exch => [mkOp q 0x101 (pk_34_28_12_11 gb.toNat gc.toNat inc.toNat exch.toNat)]
  | .xscat q gb gc inc exch => [mkOp q 0x102 (pk_34_28_12_11 gb.toNat gc.toNat inc.toNat exch.toNat)]
  | .xred q gb gc inc exch => [mkOp q 0x103 (pk_34_28_12_11 gb.toNat gc.toNat inc.toNat exch.toNat)]
  | .xconv q gb gc inc exch => [mkOp q 0x104 (pk_34_28_12_11 gb.toNat gc.toNat inc.toNat exch.toNat)]
  | .xfill q gb gc inc exch => [mkOp q 0x105 (pk_34_28_12_11 gb.toNat gc.toNat inc.toNat exch.toNat)]
  | .xcoll q gb gc inc => [mkOp q 0x106 (pk_34_28_12 gb.toNat gc.toNat inc.toNat)]
  | .xpeer q gb gc inc => [mkOp q 0x107 (pk_34_28_12 gb.toNat gc.toNat inc.toNat)]
  | .xcanw q gb gc inc => [mkOp q 0x108 (pk_34_28_12 gb.toNat gc.toNat inc.toNat)]
  | .rtsub q gb gc inc => [mkOp q 0x110 (pk_34_28_12 gb.toNat gc.toNat inc.toNat)]
  | .spalloc q gb gc inc => [mkOp q 0x111 (pk_34_28_12 gb.toNat gc.toNat inc.toNat)]
  | .gcmt q gb gc inc => [mkOp q 0x112 (pk_34_28_12 gb.toNat gc.toNat inc.toNat)]
  | .tapx q gb => [mkOp q 0x113 (pk_34 gb.toNat)]
  | .shres q gb => [mkOp q 0x114 (pk_34 gb.toNat)]
  | .tapq q d a => [mkOp q 0x118 (pk_21_15 d.toNat a.toNat)]
  | .shprd q d => [mkOp q 0x119 (pk_21 d.toNat)]
  | .tlbi q d a kind => [mkOp q 0x3E0 (pk_21_15_12 d.toNat a.toNat kind.toNat)]
  | .l1inv q a kind => [mkOp q 0x3E1 (pk_15_12 a.toNat kind.toNat)]
  | .ctxsv q d a => [mkOp q 0x3E2 (pk_21_15 d.toNat a.toNat)]
  | .ctxld q d a => [mkOp q 0x3E3 (pk_21_15 d.toNat a.toNat)]
  | .mldw q src wt => [mkOp q 0x000 (pk_24_11 src.toNat wt.toNat)]
  | .mldwc q gr wt half => [mkOp q 0x001 (pk_11_5_1 wt.toNat gr.toNat half.toNat)]
  | .mstrm q acc src arow gr sw step => [mkOp q 0x002 (pk_37_24_11_5_1_0 acc.toNat src.toNat arow.toNat gr.toNat sw.toNat step.toNat)]
  | .mbatch q acc src arow gr sw step => [mkOp q 0x003 (pk_37_24_11_5_1_0 acc.toNat src.toNat arow.toNat gr.toNat sw.toNat step.toNat)]
  | .mdrain q acc dst chk cmask tt rs cs pack step => [mkOp q 0x004 (pk_37_24_17_11_5_3_2_1_0 acc.toNat dst.toNat cmask.toNat chk.toNat tt.toNat pack.toNat cs.toNat rs.toNat step.toNat)]
  | .mzero q acc => [mkOp q 0x005 (pk_37 acc.toNat)]
  | .mfree q acc => [mkOp q 0x006 (pk_37 acc.toNat)]
  | .mscl q src col => [mkOp q 0x007 (pk_24_1 src.toNat col.toNat)]
  | .mcall q entry acc => [mkOp q 0x008 (pk_37_11 acc.toNat entry.toNat)]
  | .mmpw q src gr tbl => [mkOp q 0x009 (pk_24_5_1 src.toNat gr.toNat tbl.toNat)]
  | .mstat q gr wait => [mkOp q 0x00A (pk_5_1 gr.toNat wait.toNat)]
  | .wload px typ => [BitVec.ofNat 64 (pk_59_54_4 0 px.toNat typ.toNat)]
  | .wswap => [BitVec.ofNat 64 (pk_59 1)]
  | .stream px imm => [BitVec.ofNat 64 (pk_59_54_19 2 px.toNat imm.toNat)]
  | .accum acc imm batch => [BitVec.ofNat 64 (pk_59_56_19_0 3 acc.toNat imm.toNat batch.toNat)]
  | .drain acc px typ imm cmask rs cs pack => [BitVec.ofNat 64 (pk_59_56_54_19_9_4_2_1_0 4 acc.toNat px.toNat imm.toNat cmask.toNat typ.toNat pack.toNat cs.toNat rs.toNat)]
  | .mask mpx => [BitVec.ofNat 64 (pk_59_48 5 mpx.toNat)]
  | .microLoop lx tgt => [BitVec.ofNat 64 (pk_59_52_9 6 lx.toNat tgt.toNat)]
  | .microStep px imm => [BitVec.ofNat 64 (pk_59_54_19 7 px.toNat imm.toNat)]
  | .param px lx mpx opd imm flg => [BitVec.ofNat 64 (pk_59_54_52_48_35_19_0 8 px.toNat lx.toNat mpx.toNat opd.toNat imm.toNat flg.toNat)]
  | .branchz lx tgt => [BitVec.ofNat 64 (pk_59_52_9 9 lx.toNat tgt.toNat)]
  | .waitw => [BitVec.ofNat 64 (pk_59 10)]
  | .scale px col => [BitVec.ofNat 64 (pk_59_54_0 11 px.toNat col.toNat)]
  | .nopm imm => [BitVec.ofNat 64 (pk_59_19 12 imm.toNat)]
  | .endm => [BitVec.ofNat 64 (pk_59 13)]
  | .vadd q ty d a b step => [mkOp q (0x000 + vtyCode ty) (pk_27_14_1_0 d.toNat a.toNat b.toNat step.toNat)]
  | .vsub q ty d a b step => [mkOp q (0x010 + vtyCode ty) (pk_27_14_1_0 d.toNat a.toNat b.toNat step.toNat)]
  | .vmul q ty d a b step => [mkOp q (0x020 + vtyCode ty) (pk_27_14_1_0 d.toNat a.toNat b.toNat step.toNat)]
  | .vfma q ty d a b step => [mkOp q (0x030 + vtyCode ty) (pk_27_14_1_0 d.toNat a.toNat b.toNat step.toNat)]
  | .vfms q ty d a b step => [mkOp q (0x040 + vtyCode ty) (pk_27_14_1_0 d.toNat a.toNat b.toNat step.toNat)]
  | .vmax q ty d a b step => [mkOp q (0x050 + vtyCode ty) (pk_27_14_1_0 d.toNat a.toNat b.toNat step.toNat)]
  | .vmin q ty d a b step => [mkOp q (0x060 + vtyCode ty) (pk_27_14_1_0 d.toNat a.toNat b.toNat step.toNat)]
  | .vabs q ty d a step => [mkOp q (0x070 + vtyCode ty) (pk_27_14_0 d.toNat a.toNat step.toNat)]
  | .vneg q ty d a step => [mkOp q (0x080 + vtyCode ty) (pk_27_14_0 d.toNat a.toNat step.toNat)]
  | .vrcp q ty d a step => [mkOp q (0x090 + vtyCode ty) (pk_27_14_0 d.toNat a.toNat step.toNat)]
  | .vrsq q ty d a step => [mkOp q (0x0A0 + vtyCode ty) (pk_27_14_0 d.toNat a.toNat step.toNat)]
  | .vexp2 q ty d a step => [mkOp q (0x0B0 + vtyCode ty) (pk_27_14_0 d.toNat a.toNat step.toNat)]
  | .vlog2 q ty d a step => [mkOp q (0x0C0 + vtyCode ty) (pk_27_14_0 d.toNat a.toNat step.toNat)]
  | .vcmp q ty d a cond step => [mkOp q (0x0D0 + vtyCode ty) (pk_27_14_1_0 d.toNat a.toNat cond.toNat step.toNat)]
  | .vsel q ty d a b step => [mkOp q (0x0E0 + vtyCode ty) (pk_27_14_1_0 d.toNat a.toNat b.toNat step.toNat)]
  | .vand q ty d a b step => [mkOp q (0x0F0 + vtyCode ty) (pk_27_14_1_0 d.toNat a.toNat b.toNat step.toNat)]
  | .vor q ty d a b step => [mkOp q (0x100 + vtyCode ty) (pk_27_14_1_0 d.toNat a.toNat b.toNat step.toNat)]
  | .vxor q ty d a b step => [mkOp q (0x110 + vtyCode ty) (pk_27_14_1_0 d.toNat a.toNat b.toNat step.toNat)]
  | .vnot q ty d a step => [mkOp q (0x120 + vtyCode ty) (pk_27_14_0 d.toNat a.toNat step.toNat)]
  | .vshl q ty d a sh step => [mkOp q (0x130 + vtyCode ty) (pk_27_14_1_0 d.toNat a.toNat sh.toNat step.toNat)]
  | .vshr q ty d a sh step => [mkOp q (0x140 + vtyCode ty) (pk_27_14_1_0 d.toNat a.toNat sh.toNat step.toNat)]
  | .vsra q ty d a sh step => [mkOp q (0x150 + vtyCode ty) (pk_27_14_1_0 d.toNat a.toNat sh.toNat step.toNat)]
  | .vcvt q ty d a dt sf part step => [mkOp q (0x160 + vtyCode ty) (pk_27_14_10_6_1_0 d.toNat a.toNat part.toNat sf.toNat dt.toNat step.toNat)]
  | .vpack q ty d a w sat part step => [mkOp q (0x170 + vtyCode ty) (pk_27_14_7_6_1_0 d.toNat a.toNat part.toNat sat.toNat w.toNat step.toNat)]
  | .vunpk q ty d a w part step => [mkOp q (0x180 + vtyCode ty) (pk_27_14_7_1_0 d.toNat a.toNat part.toNat w.toNat step.toNat)]
  | .vbcst q ty d a idx step => [mkOp q (0x190 + vtyCode ty) (pk_27_14_1_0 d.toNat a.toNat idx.toNat step.toNat)]
  | .vmov q ty d a step => [mkOp q (0x1A0 + vtyCode ty) (pk_27_14_0 d.toNat a.toNat step.toNat)]
  | .vperm q ty d a b step => [mkOp q (0x1B0 + vtyCode ty) (pk_27_14_1_0 d.toNat a.toNat b.toNat step.toNat)]
  | .vrot q ty d a sh step => [mkOp q (0x1C0 + vtyCode ty) (pk_27_14_1_0 d.toNat a.toNat sh.toNat step.toNat)]
  | .vred q ty d a rop len step => [mkOp q (0x1D0 + vtyCode ty) (pk_27_14_4_1_0 d.toNat a.toNat len.toNat rop.toNat step.toNat)]
  | .vscan q ty d a rop excl len step => [mkOp q (0x1E0 + vtyCode ty) (pk_27_14_4_3_1_0 d.toNat a.toNat len.toNat excl.toNat rop.toNat step.toNat)]
  | .vnorm q ty d a len step => [mkOp q (0x1F0 + vtyCode ty) (pk_27_14_4_0 d.toNat a.toNat len.toNat step.toNat)]
  | .vclamp q ty d a b step => [mkOp q (0x200 + vtyCode ty) (pk_27_14_1_0 d.toNat a.toNat b.toNat step.toNat)]
  | .vlut q ty d a b step => [mkOp q (0x210 + vtyCode ty) (pk_27_14_1_0 d.toNat a.toNat b.toNat step.toNat)]
  | .vbmt q ty d a b step => [mkOp q (0x220 + vtyCode ty) (pk_27_14_1_0 d.toNat a.toNat b.toNat step.toNat)]
  | .vscatx q ty d a b step => [mkOp q (0x230 + vtyCode ty) (pk_27_14_1_0 d.toNat a.toNat b.toNat step.toNat)]
  | .vgathx q ty d a b step => [mkOp q (0x240 + vtyCode ty) (pk_27_14_1_0 d.toNat a.toNat b.toNat step.toNat)]
  | .vcnt q ty d a step => [mkOp q (0x250 + vtyCode ty) (pk_27_14_0 d.toNat a.toNat step.toNat)]
  | .vmatch q ty d a b step => [mkOp q (0x260 + vtyCode ty) (pk_27_14_1_0 d.toNat a.toNat b.toNat step.toNat)]
  | .vpsum q ty d a lane lv step => [mkOp q (0x270 + vtyCode ty) (pk_27_14_6_1_0 d.toNat a.toNat lv.toNat lane.toNat step.toNat)]
  | .vdsc q ty d a hnd last first step => [mkOp q (0x280 + vtyCode ty) (pk_27_14_3_2_1_0 d.toNat a.toNat first.toNat last.toNat hnd.toNat step.toNat)]
  | .vrng q ty d a step => [mkOp q (0x290 + vtyCode ty) (pk_27_14_0 d.toNat a.toNat step.toNat)]
  | .vstat q ty d form => [mkOp q (0x2A0 + vtyCode ty) (pk_27_1_0 d.toNat form.clr.toNat form.step.toNat)]
  | _ => []
/-! ## Bundles (R222) -/

/-- STOP of a header. -/
def hStop (h : Word) : Bool := flg h 63

/-- Y of a header. -/
def hY (h : Word) : Bool := flg h 62

/-- RPT of a header. -/
def hRpt (h : Word) : Nat := (fld h 56 6).toNat

/-- The PRES bit of a position. -/
def hPres (h : Word) : Pos → Bool
  | .s0 => flg h 55 | .s1 => flg h 54 | .v0 => flg h 53 | .v1 => flg h 52 | .m => flg h 51 | .c => flg h 50
  | .b => flg h 49

/-- The idle bit of an engine position; the other positions have none. -/
def hIdle (h : Word) : Pos → Bool
  | .v0 => flg h 48 | .v1 => flg h 47 | .m => flg h 46 | .c => flg h 45 | _ => false

/-- YRUN of a header. -/
def hYrun (h : Word) : Nat := (fld h 29 16).toNat

/-- SKE of a header. -/
def hSke (h : Word) : Bool := flg h 28

/-- SKI of a header. -/
def hSki (h : Word) : Nat := (fld h 22 6).toNat

/-- The seven positions in slot order. -/
def allPos : List Pos := [.s0, .s1, .v0, .v1, .m, .c, .b]

/-- The positions that hold a present op, in order. -/
def presPos (h : Word) : List Pos := allPos.filter (hPres h)

/-- Length of the bundle in bytes (R222). -/
def hLen (h : Word) : Nat := 8 + 8 * (presPos h).length

/-- The transfer ops (R230), by their branch map code. -/
def isTransferOpc (o : Nat) : Bool :=
  o == 0 || o == 1 || o == 2 || o == 3 || o == 4 || o == 9 || o == 0x10 || o == 0x11 || o == 0x12 || o == 0x13 ||
    o == 0x3F0 || o == 0x3F1

/-- END, CONT and ERET, whose bundles are yield bundles (R40, R243). -/
def isEndOpc (o : Nat) : Bool := o == 0x10 || o == 0x11 || o == 0x3F0

/-- The op word of a present position in the words that follow the header. -/
def opAt (h : Word) (ops : List Word) (p : Pos) : Option Word :=
  ((presPos h).zip ops).findSome? (fun x => if x.1 == p then some x.2 else none)

/-- The header cases of R243 pass. b is the op word in position b, if any. -/
def headerOk (h : Word) (b : Option Word) : Bool :=
  let tr := match b with | some w => isTransferOpc (opcOf w) | none => false
  let en := match b with | some w => isEndOpc (opcOf w) | none => false
  zro h 0 22 && (hY h || hYrun h == 0) && (!(hY h) || hYrun h != 0 || en) && !(hY h && hRpt h != 0) &&
    (hRpt h == 0 || hStop h) && (!tr || hStop h) && (!en || hY h) && (hSke h || hSki h == 0)

/-- The little-endian word in eight bytes (R2); missing bytes read as zero. -/
def leWord (bs : List Byte) : Word :=
  BitVec.ofNat 64 ((bs.take 8).foldr (fun b acc => b.toNat + 256 * acc) 0)

/-- The eight little-endian bytes of a word (R2). -/
def leBytes (w : Word) : List Byte := (List.range 8).map (fun k => BitVec.ofNat 8 (w.toNat / 256 ^ k))

/-- The words of a byte string, n of them. -/
def leWords : Nat → List Byte → List Word
  | 0, _ => []
  | n + 1, bs => leWord bs :: leWords n (bs.drop 8)

/-- The bundle at the front of a byte string: its header and op words, and the bytes after it (R222). -/
def splitBundle (bs : List Byte) : Option (Word × List Word × List Byte) :=
  let h := leWord bs
  if bs.length < 8 || bs.length < hLen h then none
  else some (h, leWords (presPos h).length (bs.drop 8), bs.drop (hLen h))

/-- The instruction in the bytes of a bundle: the op of a bundle that holds exactly one present op, without a skip
test and issued once; the bundle itself otherwise. None where the decoder refuses an encoding (R243). -/
def decodeBytes (bs : List Byte) : Option Instr :=
  match splitBundle bs with
  | none => none
  | some (h, ops, _) =>
    if !headerOk h (opAt h ops .b) then none
    else if hSke h || hRpt h != 0 then some (.bundleIssue false h ops)
    else match presPos h, ops with
      | [p], [w] => match decodeOp p w with
        | .ok i => some i
        | .error _ => none
      | _, _ => some (.bundleIssue false h ops)

/-- The bytes of a table word: its 64-bit words in memory order, zero above nbits. -/
def tableBytes (nbits w : Nat) : List Byte :=
  (List.range 64).map (fun k => BitVec.ofNat 8 (w % 2 ^ nbits / 256 ^ k))

/-- The instruction that the decoder reads from an instruction whose bits are w, numbered from the least significant
bit of the first 64-bit word. -/
def decodeTableWord (nbits w : Nat) : Option Instr := decodeBytes (tableBytes nbits w)

end Sys2Proof
end

