-- ==== Sys2Proof/Machine/Maps.lean ====
section
/-!
DEFINITION. Tables as plain data: reading and writing one entry of an RMap whose unlisted entries read as d. Writing d
removes the entry, so equal tables are equal data.
-/

namespace Sys2Proof.Machine

/-- The entry k, or d where none is listed. -/
def rget (d : α) (m : RMap α) (k : Nat) : α :=
  match m with
  | [] => d
  | (i, v) :: r => if i = k then v else rget d r k

/-- The table without entry k. -/
def rdel (m : RMap α) (k : Nat) : RMap α :=
  match m with
  | [] => []
  | (i, v) :: r => if i = k then rdel r k else (i, v) :: rdel r k

/-- An entry inserted before the first greater index. -/
def rins (m : RMap α) (k : Nat) (v : α) : RMap α :=
  match m with
  | [] => [(k, v)]
  | (i, w) :: r => if k < i then (k, v) :: (i, w) :: r else (i, w) :: rins r k v

/-- The table with entry k holding v. -/
def rset [DecidableEq α] (d : α) (m : RMap α) (k : Nat) (v : α) : RMap α :=
  if v = d then rdel m k else rins (rdel m k) k v

/-- The entry k changed by f. -/
def rmod [DecidableEq α] (d : α) (m : RMap α) (k : Nat) (f : α → α) : RMap α := rset d m k (f (rget d m k))

/-- Indices strictly rising from lo, no entry equal to d. -/
def rwfFrom [DecidableEq α] (d : α) (lo : Nat) (m : RMap α) : Bool :=
  match m with
  | [] => true
  | (i, v) :: r => decide (lo ≤ i) && decide (v ≠ d) && rwfFrom d (i + 1) r

/-- The canonical form of a table. -/
def rwf [DecidableEq α] (d : α) (m : RMap α) : Bool := rwfFrom d 0 m

/-- n consecutive entries from k set to the given values. -/
def rsetAll [DecidableEq α] (d : α) (m : RMap α) (k : Nat) (vs : List α) : RMap α :=
  match vs with
  | [] => m
  | v :: r => rsetAll d (rset d m k v) (k + 1) r

/-- n consecutive entries from k. -/
def rgetN (d : α) (m : RMap α) (k n : Nat) : List α :=
  match n with
  | 0 => []
  | n + 1 => rget d m k :: rgetN d m (k + 1) n

/-- The list with element n replaced. -/
def lset (xs : List α) (n : Nat) (v : α) : List α := xs.set n v

/-- The little-endian number in a byte list (R2). -/
def leNat (bs : List Byte) : Nat := bs.foldr (fun b a => b.toNat + 256 * a) 0

/-- The n little-endian bytes of a number (R2). -/
def natLe (n x : Nat) : List Byte :=
  match n with
  | 0 => []
  | n + 1 => BitVec.ofNat 8 x :: natLe n (x / 256)

/-- The 64-bit word in the first eight bytes. -/
def leW (bs : List Byte) : Word := BitVec.ofNat 64 (leNat (bs.take 8))

/-- The two lists share an element. -/
def meets [DecidableEq α] (xs ys : List α) : Bool := xs.any (fun x => decide (x ∈ ys))

/-- Ceiling division. -/
def cdiv (a b : Nat) : Nat := (a + b - 1) / b

/-- Saturating addition. -/
def satAdd (mx a b : Nat) : Nat := min mx (a + b)

end Sys2Proof.Machine
end

