-- ==== Sys2Proof/Machine/State.lean ====
section
/-!
DEFINITION. The state of the modelled machine as plain data: one Grove with its two stream contexts, and the
device-wide units that the spec describes (home memory, queues, launches, generation, router, Orchard, HBM4E,
thermal control, front end, partitions, boot). Every field has its reset value beside it.
What the model leaves out as a whole (the other 255 Groves) is said in notes/assumptions/1.md.
-/

namespace Sys2Proof.Machine

/-- Why the machine stops with a fault. -/
inductive Fault where
  /-- Raised by step alone, when bring-up stopped with BOOTSTAT.FAIL (R533): the device runs nothing more.
  Safe: the spec says only BAR0 can be read then. -/
  | bringUpFailed
  deriving DecidableEq, Repr

/-- Why an instruction has no meaning. -/
inductive Refusal where
  /-- Raised by an arm of exec whose instruction the model has not reached. Safe. -/
  | notModelled (mnemonic : String)
  deriving DecidableEq, Repr

/-- States of a stream context (R59, R459). -/
inductive StrmStatus where
  | idle | running | stalled | faulted | saving
  deriving DecidableEq, Repr

/-- States of a launch (R60) with the step of its phase (R61): COMPUTE is active, the rest are BOUNDARY. -/
inductive LaunchStatus where
  | empty | active | drain | exchange | resolve | compare | flip | waitJobs | evicted | faulted | loaded
  deriving DecidableEq, Repr

/-- States of a job card (R379, R383, R385). -/
inductive JobStatus where
  | queued | running | xlateHeld | heldWrites
  deriving DecidableEq, Repr

/-- The faults of R445. -/
inductive FCode where
  | illegalOp | illegalEnc | groupHazard | priv | fetchFault
  | xlate | prot | pathFault | pathRo | pathUse | misaligned | memUe | asidBad
  | mrfWindow | tdescUnset | tdescBad | fmtInvalid | fmtArray | portUnbound | portExhausted | psBad | tileRange
  | canopyEarly | canopyState | canopyRo | canopyDebt | handlePlace | handleInvalid | handlePinmax
  | planeEmpty | maskBad | drainRange | microEntry | microAddr | microFault
  | joinUnderflow | badRecord | queueBad | barGroup | barLate | slotBad | runOverrun
  | tapUndeclared | tapRange | tapLate | tapFull | jobBad | shapeWord | ctxBad | swTrap | brkEvent
  | phaseStall | tapMissed | barMismatch | jobFail | shapeBad | gcmtRow | jobXlate | ctxLost | handleUe
  deriving DecidableEq, Repr

/-- A fault with its CAUSE and ADDR (R445, R446). -/
structure FaultInfo where
  code : FCode
  cause : Nat := 0
  addr : Word := 0
  deriving DecidableEq, Repr

/-- The registers that GROUP_HAZARD ranges over (R231). -/
inductive RegId where
  | g (n : Nat) | row (n : Nat) | ctl (n : Nat) | lc (n : Nat) | skipp
  deriving DecidableEq, Repr

/-- The kinds of byte space (R121, R122): device memory, host memory. -/
inductive Space where
  | dev | host
  deriving DecidableEq, Repr

/-- The kinds of access that a leaf's bits permit (R430, R431); tap is a TAPX read under R174. -/
inductive AKind where
  | ld | st | amo | fetch | tap
  deriving DecidableEq, Repr

/-- A region of a job's footprint (R140): space 0 device, 1 host, 2 peer, 3 tile handle; the peer or handle number;
its bytes; written or read. -/
structure JRegion where
  sp : Nat := 0
  key : Nat := 0
  lo : Nat := 0
  len : Nat := 0
  wr : Bool := false
  deriving DecidableEq, Repr

/-- What an op meets in place of its effect: a fault, or a stall with what the wait itself does. -/
inductive Stop (σ : Type) where
  | fault (f : FaultInfo)
  | stall (eff : σ → σ)

/-- The state of an engine position (R224). -/
structure PosState where
  live : Bool := false
  op : Word := 0
  j : Nat := 0
  deriving DecidableEq, Repr

/-- The walk position of a stream port (R76, R449): the five loop indices, the window indices and the end mark. -/
structure Walk where
  idx : List Nat := [0, 0, 0, 0, 0]
  kx : Nat := 0
  ky : Nat := 0
  ended : Bool := false
  deriving DecidableEq, Repr

/-- Event counts of one issue or run towards MXC (R88). -/
structure MxcCnt where
  accof : Nat := 0
  nanacc : Nat := 0
  drsat : Nat := 0
  msksp : Nat := 0
  deriving DecidableEq, Repr

/-- A load, atomic or counter answer whose issue has committed and whose data has not landed yet (R286). -/
structure Pending where
  gdst : List (Nat × Word) := []      -- G registers to write
  mdst : List (Nat × Lane) := []      -- MRF lanes to write, by 32 × row + lane
  flags : Word := 0                   -- FLAGS bits to OR when the result is written (R295, R303)
  ue : Bool := false                  -- met an uncorrectable memory error (R444)
  addr : Word := 0                    -- the load's address, for MEM_UE's record
  accs : List Nat := []               -- the addresses of its accesses (R436)
  asks : List Nat := []               -- numbers of the memory requests that it made and waits for (R117, R505)
  deriving DecidableEq, Repr

/-- A microprogram run (R372, R375). -/
structure Micro where
  running : Bool := false
  mpc : Nat := 0
  ma : RMap (BitVec 13) := []
  mlc : RMap (BitVec 16) := []
  cur : Nat := 0
  base : Nat := 0
  batch : Bool := false
  masked : Bool := false
  m0 : Word := 0
  m1 : Word := 0
  mp : RMap Word := []
  count : Nat := 0
  wait : Nat := 0                     -- cycles NOPM still waits
  prog : Nat := 0                     -- m issues that the STREAM or DRAIN in progress has made (R372, R509)
  flags : Word := 0
  mxc : MxcCnt := {}
  fcode : Nat := 0                    -- sub-code of the last microprogram fault (R375)
  fpend : Bool := false               -- MICRO_FAULT not delivered yet
  deriving DecidableEq, Repr

/-- A read of the issue that a stream tries to make, by an op that needs the bytes before it commits, or by its fetch, or by a
walk of its translation: the lines read, the request's number, the number of the requests that are one to R117, and whether it
found nothing (R277, R306, R432, R444). -/
structure Hand where
  line : Nat := 0
  n : Nat := 0
  id : Nat := 0
  grp : Nat := 0
  lost : Bool := false
  deriving DecidableEq, Repr

/-- One stream context (R36, R28, chapter 3). -/
structure Stream where
  status : StrmStatus := .idle
  task : Nat := 0                     -- MODEL: number of the dispatch that started the task (R97)
  pc : Word := 0
  blen : Nat := 0                     -- length in bytes of the bundle in issue (R222)
  npc : Option Word := none           -- target of the transfer taken in this issue (R271)
  ridx : Nat := 0                     -- issue number within the bundle (R233)
  g : RMap Word := []
  lostG : List (Nat × Word) := []     -- lost G registers and MRF rows, each with the address of its load (R444)
  lostR : List (Nat × Word) := []
  level : Nat := 0
  asid : Nat := 0
  launch : Nat := 0
  queue : Nat := 0
  r0 : Word := 0
  r1 : Word := 0
  r2 : Word := 0
  r3 : Word := 0
  prov : Bool := false
  lc : RMap (BitVec 32) := []
  skipp : Word := 0
  fmt : RMap Word := []
  tdesc : RMap Word := []
  mp : RMap Word := []
  ps : RMap Word := []
  portmap : Word := 0
  walk : RMap Walk := []
  flags : Word := 0
  mxc : Word := 0
  seqstat : Word := 0
  fstat : Word := 0
  iflags : Word := 0                  -- contributions of the issue in progress (R86, R172)
  imxc : MxcCnt := {}
  iseq : Word := 0
  inan : Nat := 0
  v0 : PosState := {}
  v1 : PosState := {}
  m : PosState := {}
  c : PosState := {}
  grpW : List RegId := []             -- registers written so far in the group (R231)
  grpR : List RegId := []             -- control registers read so far in the group (R85)
  segOn : Bool := false               -- a segment runs: set at the first bundle's issue (R40)
  allow : Nat := 0
  used : Nat := 0
  capped : Bool := false              -- the thermal cap acted in this segment (R41)
  overrun : Bool := false             -- RUN_OVERRUN is due on the next bundle (R41)
  pend : List Pending := []
  hand : List Hand := []              -- the reads that its next issue has made (R59, R444)
  loose : List (List Nat) := []       -- its requests that no result waits for, by their numbers: uncached stores, the refill of a port by one vector (R117)
  amap : RMap Nat := []               -- accumulator name to physical tile + 1; 0 unmapped (R73)
  scr : RMap Lane := []
  scc : RMap Lane := []
  micro : Micro := {}
  denied : Nat := 0
  barGen : Option (Nat × Nat) := none      -- barrier shape and generation that BAR.WAIT or BARR waits for (R300, R304)
  barRes : Option (Word × Word) := none    -- the reduced value and flags of that generation, once it is complete (R302)
  wasStrm : Bool := false             -- the stream that a held task ran in
  grpOpen : Bool := false             -- the last issue did not close its group (R230)
  svTask : Option Nat := none         -- task that a waiting CTXSV asked to be saved (R455)
  eretTo : Option Nat := none         -- slot of the image that ERET takes when its bundle commits (R457)
  ending : Bool := false              -- END, CONT, RET to the task-end value or ERET acts at this commit (R280)
  debtTrap : Bool := false            -- CANOPY_DEBT is due before the next bundle (R108)
  idleSeen : Option (Nat × Word) := none   -- home address and value that IDLE read, while it waits (R458)
  cw : Option (Nat × Word) := none    -- home address and target of a CWAIT that waits (R305)
  half : Bool := false                -- first of the two cycles of a salvaged issue is taken (R234)
  ovr : Bool := false                 -- this segment's overrun is counted (R41)
  held : Bool := false                -- a provisional task's fault is held (R192)
  stopAt : Nat := 0                   -- cycle of the fault, and header address of the bundle that faulted or trapped (R446, R460)
  stopPc : Word := 0
  saveWant : Option Nat := none       -- an urgent save is asked: 0 fault, 1 trap, 2 CTXSV, 3 eviction, 4 break (R447)
  faultCause : Nat := 0
  faultAddr : Word := 0
  faultInfo : Nat := 0
  deriving DecidableEq, Repr

/-- A tile handle (R94, R97). -/
structure Handle where
  alloc : Bool := false
  canopy : Bool := false
  launchLife : Bool := false
  wcode : Nat := 0
  shape : Word := 0
  fbank : Nat := 0
  task : Nat := 0
  launch : Nat := 0
  parts : List Nat := []              -- granules (SPAD) or rows within their banks (CANOPY), in order
  prov : Bool := false                -- allocated by a provisional task of tile `tile`, its launch not resolved since (R98)
  tile : Nat := 0
  freed : Bool := false               -- TFREE or task end seen; released when no job names it (R97)
  deriving DecidableEq, Repr

/-- A row write of the placement engine or the router to a bank that it holds: its number, the cycle of its CACT, the first cycle in
which its bus write may begin, the cycle in which it began, and the earliest cycle of its CPRE (R393, R489). -/
structure EngHold where
  tag : Nat := 0                      -- MODEL: number of the row write
  act : Nat := 0
  use : Nat := 0
  bus : Option Nat := none
  pre : Nat := 0
  deriving DecidableEq, Repr

/-- A request to home on its way (R117, R500, R501): its number, 0 where nothing waits for it; the first of its lines and how many;
those of them whose bytes are wanted. A request for no line reaches no array: a store that is written at home, or host memory. -/
structure Ask where
  id : Nat := 0
  line : Nat := 0
  n : Nat := 0
  want : List Nat := []
  l2 : Bool := false                  -- it comes through the Glade's L2, which serves it where it holds the line and takes the line
  deriving DecidableEq, Repr

/-- One canopy bank: its open row, its holder and the issue cycles of its holder's last commands (R100, R101, R105). -/
structure Bank where
  openRow : Option Nat := none
  holder : Option Nat := none         -- task number that holds the bank
  tAct : Option Nat := none
  tPre : Option Nat := none
  tRef : Option Nat := none
  tCld : Option Nat := none
  tCst : Option Nat := none
  tPlane : Option Nat := none
  lastRef : Nat := 0                  -- start of the bank's last refresh
  eng : Option EngHold := none        -- the placement engine or the router holds the bank (R393, R489)
  freeAt : Nat := 0                   -- cycle from which a new holder's first command may issue (R106)
  deriving DecidableEq, Repr

/-- A CLD on its way: 128 bytes for one MRF row (R103). -/
structure CldMove where
  due : Nat := 0
  row : Nat := 0
  lanes : List Lane := []
  task : Nat := 0
  deriving DecidableEq, Repr

/-- A weight plane (R351, R358). -/
structure Plane where
  st : Nat := 0                       -- 0 EMPTY, 1 LOADING, 2 READY (or loaded, for the computing plane)
  typ : Nat := 0
  fmt : Word := 0
  image : RMap Byte := []
  readyAt : Nat := 0
  deriving DecidableEq, Repr

/-- An L1 line: tag (ASID, address bits [63:7]), the bytes it was filled with (R114, R427), and the size of the page that
translated it (R436). -/
structure L1Line where
  asid : Nat := 0
  tag : Nat := 0
  data : List Byte := []
  size : Nat := 65536
  home : Nat := 0                     -- device line that it was filled from (R129, R502)
  deriving DecidableEq, Repr

/-- An L2 TLB entry: (ASID, page number at 64 KiB) and the leaf it maps (R432). -/
structure TlbEntry where
  asid : Nat := 0
  page : Nat := 0
  leaf : Word := 0
  size : Nat := 65536
  deriving DecidableEq, Repr

/-- One buffered byte of a path 0x0 store (R126, R433). -/
structure BufByte where
  strm : Bool := false
  launch : Nat := 0
  task : Nat := 0
  asid : Nat := 0
  va : Nat := 0
  pa : Nat := 0
  byte : Byte := 0
  prov : Bool := false
  tile : Nat := 0
  pub : Bool := false                 -- a publication point was met; it waits for a job (R127)
  late : Bool := false                -- of a tile kept at resolution: published at settlement (R126, R127)
  deriving DecidableEq, Repr

/-- A staged contribution of XRED (R390): its element, the place of the element that it is for (0 device, 2 scratchpad), its value,
and the device lines that it was read from. -/
structure RedItem where
  elem : Nat := 0
  sp : Nat := 0
  place : Nat := 0
  val : Nat := 0
  lines : List Nat := []
  deriving DecidableEq, Repr

/-- A job card in the Grove's sequencer (R378 to R385). -/
structure Job where
  seq : Nat := 0
  op : Nat := 0                       -- code of the c map, 0x100 to 0x112
  cw0 : Word := 0
  cw1 : Word := 0
  cw2 : Word := 0
  cw3 : Word := 0
  counts : Bool := false              -- a completion counter is named: GC is not 0 (R381)
  caddr : Word := 0
  cpa : Nat := 0                      -- counter's home address, translated at issue
  inc : Nat := 0
  exch : Bool := false
  task : Nat := 0
  strm : Bool := false
  asid : Nat := 0
  level : Nat := 0
  launch : Nat := 0
  phase : Nat := 0
  tile : Nat := 0
  prov : Bool := false
  st : JobStatus := .queued
  tries : Nat := 0
  rows : List (List Lane) := []       -- GCMT's commit rows, taken at issue (R396)
  fmtS : Word := 0                    -- formats latched at issue (R388)
  fmtD : Word := 0
  foot : List JRegion := []           -- footprint registered at issue (R140)
  done : Nat := 0                     -- GCMT and XCANW: rows already performed (R393, R396); XRED: elements of the chunks already performed (R390)
  wait : List Nat := []               -- RTSUB: handles that must leave EVICTING (R487); XCANW: number of the last row write; XRED: elements of the chunk that need no reading any more (R390)
  out : List (Nat × Nat × Byte) := [] -- bytes to write at completion: 0 device, 1 host, 2 scratchpad; place; byte (R143)
  red : List RedItem := []            -- XRED: contributions staged and not applied, in ascending element (R390)
  send : List Byte := []              -- source bytes read: XCOLL, XPEER, RTSUB scores, GCMT's descriptor
  peer : Word := 0                    -- XCOLL: word 2 of the group's entry; XPEER: the peer's entry number (R529)
  dest : List Word := []              -- the entries of the peer table as read at issue: the one named, then each member's (R529)
  asks : List Nat := []               -- numbers of the requests of its attempt (R501, R505)
  lost : Bool := false                -- one of them found nothing: the attempt met a memory error (R385, R502)
  lostLines : List Nat := []          -- the lines that they wanted
  fail : Nat := 0                     -- reason of a failure held for a provisional task (R191, R385)
  flags : Word := 0
  deriving DecidableEq, Repr

/-- The Grove's registers that a stream writes and the other reads: ARB, CANOPY and HINTDROP (R48, R425, R510). -/
structure GroveRegs where
  strict : Bool := false
  slice : Nat := 0
  sliceStart : Nat := 0
  ovrcnt : Nat := 0
  dtrap : Bool := false
  debt : Bool := false
  debtcnt : Nat := 0
  hintdrop : Nat := 0
  deriving DecidableEq, Repr

/-- An SHRES write that follows its stream's stores: the stream, the home and the value (R399); its ASID and the low bits of its
address, for TLBI (R436). -/
structure ShapeWrite where
  strm : Bool := false
  pa : Nat := 0
  val : Word := 0
  asid : Nat := 0
  va : Nat := 0
  deriving DecidableEq, Repr

/-- The Grove (R11, R12, chapters 4 and 14). -/
structure Grove where
  id : Nat := 0
  salvaged : Bool := false
  part : Nat := 0
  mrf : RMap Lane := []
  acc : RMap Acc := []
  spad : RMap Byte := []
  canopy : RMap Byte := []
  handles : RMap Handle := []
  banks : RMap Bank := []
  busFree : Nat := 0                  -- first cycle in which the vertical bus is free (R104)
  lastBus : Option Nat := none        -- last bus cycle of the previous bus op (R109)
  clds : List CldMove := []
  comp : Plane := {}
  idle : Plane := {}
  owner : Option Nat := none          -- task that owns the array (R352)
  ustore : RMap Word := []
  uentry : RMap (BitVec 16) := []
  primary : Bool := false             -- stream that holds the primary role (R38)
  strict : Bool := false
  rptr : Nat := 0
  ovrcnt : Nat := 0
  slice : Nat := 4096
  sliceStart : Nat := 0
  debt : Bool := false
  dtrap : Bool := false
  debtcnt : Nat := 0
  hintdrop : Nat := 0
  gap : Nat := 0                      -- G and MCAP of the Grove's column (R508)
  mcap : Nat := 0
  capcyc : Nat := 0
  lastM : Option Nat := none          -- cycle of the last m issue, for the matrix cap (R509)
  stallTo : Nat := 0                  -- emergency refresh stalls both streams up to this cycle (R107)
  l1 : List L1Line := []
  wbuf : List BufByte := []
  shres : List ShapeWrite := []       -- SHRES writes that follow their stream's stores, oldest first (R399)
  heldTasks : List Stream := []       -- provisional tasks held with their fault (R192)
  jobs : List Job := []
  tapbuf : List (Nat × Acc) := []     -- partial buffer: keys in order with their sums, a sum of +0 kept (R180)
  issued : Option (Nat × Bool × Nat) := none   -- cycle, stream and datapaths of the issue that a later one merges with (R235)
  nextTask : Nat := 1                 -- MODEL: number of the next dispatch
  deriving DecidableEq, Repr

/-- The arrival and completion generations of one barrier shape of one launch (R300, R302). -/
structure Bar where
  ag : Nat := 0
  dg : Nat := 0
  val : Word := 0                     -- this Grove's contribution to generation ag
  rop : Option Nat := none            -- BARR operation of generation ag, none for BAR.ARRIVE
  res : Word := 0                     -- reduced value of generation dg
  resFlags : Word := 0
  deriving DecidableEq, Repr

/-- A launch slot (R19, R60, R469). -/
structure Launch where
  st : LaunchStatus := .empty
  op : List Word := []                -- the sixteen words of the operator record
  part : Nat := 0
  cmdq : Nat := 0
  seq : Nat := 0
  phase : Nat := 0
  phaseStart : Nat := 0
  stalled : Bool := false             -- PHASE_STALL reported for this phase (R53)
  arrived : List Nat := []            -- Groves that arrived by BAR.PHASE (R51)
  gx : Nat := 0
  fbase : Word := 0
  shaped : Bool := false
  resolved : Bool := true
  settled : Bool := true
  pred : Nat := 0                     -- P (R188)
  ext : Nat := 0                      -- E (R185)
  shapePa : Nat := 0
  tileNext : Nat := 0                 -- next tile whose record the front end enqueues, and the end (R21, R35)
  tileEnd : Nat := 0
  tileProv : Bool := false
  arenaTop : Nat := 0
  allocs : List (Nat × Nat × Nat) := []    -- start, length, tile (R314)
  holes : Nat := 0
  holeBytes : Nat := 0
  squashed : Nat := 0
  jobFlags : Word := 0
  bars : RMap Bar := []
  phVal : RMap Word := []             -- phase-mode values of this Grove by ROP, by 2 × ROP + 1 presence (R302)
  phSet : List Nat := []
  phRes : RMap Word := []             -- previous phase's reduced values
  phResSet : List Nat := []
  phFlags : Word := 0
  phLoc : Word := 0                   -- flags of this Grove's own folds in this phase
  everPres : List Nat := []           -- tap points presented in some phase (R179)
  nowPres : List Nat := []            -- tap points presented by this Grove in this phase (R398), and by the others (R180)
  farPres : List Nat := []
  tapVer : Nat := 0                   -- versions of the tables that the operator started with (R467)
  steerVer : Nat := 0
  sptVer : Nat := 0
  evictedBy : Nat := 0                -- command queue whose urgent PREEMPT evicted the launch (R453)
  deriving DecidableEq, Repr

/-- A continuation record in a queue (R26, R58). -/
structure QEntry where
  w0 : Word := 0
  w1 : Word := 0
  w2 : Word := 0
  w3 : Word := 0
  serial : Nat := 0
  order : Nat := 0                    -- MODEL: number of the enqueue, over all queues (R307)
  released : Bool := false
  checked : Bool := false             -- R27's discard checks passed on entering the window
  readyAt : Option Nat := none        -- cycle in which the record last became ready (R45)
  held : List Nat := []               -- the handles for which the record is HELD (R31, R497)
  resume : Option Nat := none         -- a resume entry for this context slot (R452)
  deriving DecidableEq, Repr

/-- A work queue (R32, R475). The spec gives no attributes of a queue before its first QCFG: the defaults here are a
DISPATCH queue of rank 0, SPREAD, without an occupancy limit, of 2^24 records (DESIGN CHOICE, notes/assumptions/72.md). -/
structure Queue where
  mailbox : Bool := false
  rank : Nat := 0
  pinned : Bool := false
  occ : Nat := 0
  logcap : Nat := 24
  spill : Word := 0
  serial : Nat := 0
  bound : Option Nat := none
  entries : List QEntry := []
  deriving DecidableEq, Repr

/-- A task that runs on another Grove of its launch's rectangle: what its record says that this Grove and the device need (R30, R44,
R50, R194). -/
structure AwayTask where
  queue : Nat := 0
  launch : Nat := 0
  phase : Nat := 0
  tile : Nat := 0
  prov : Bool := false
  w2 : Word := 0
  deriving DecidableEq, Repr

/-- A weight handle (R118 to R120, R485 to R491). -/
structure WHandle where
  st : Nat := 0
  part : Nat := 0
  hbm : Bool := false
  grove : Nat := 0
  fbank : Nat := 0
  nrows : Nat := 0
  base : Nat := 0
  pins : RMap Nat := []               -- pins held by each launch
  refs : Nat := 0
  urgent : Bool := false
  cls : Nat := 8
  key : Option (Nat × Nat) := none
  laddr : Nat := 0
  npage : Nat := 0
  landed : List Nat := []
  parts : List Nat := []              -- canopy rows within their banks, by ordinal
  early : Bool := false
  demand : Bool := false
  roomy : Bool := true                -- has room (R491)
  lastUse : Nat := 0
  order : Nat := 0
  evictWait : List Nat := []
  was : Option (Nat × Nat × Word × Word) := none    -- cycle of the last change of state; before it, the partition and what HTEST answers (R120)
  deriving DecidableEq, Repr

/-- A page read of the Orchard (R488). -/
structure PageRead where
  handle : Nat := 0
  page : Nat := 0
  lpn : Nat := 0
  issued : Bool := false
  block : Nat := 0                    -- physical block it was issued to
  order : Nat := 0                    -- the binding that it was made for
  writes : Option (List Nat) := none  -- numbers of the row writes that place it in a canopy (R489)
  deriving DecidableEq, Repr

/-- A relocation (R495). -/
structure Reloc where
  lblk : Nat := 0
  cause : Nat := 0
  old : Nat := 0
  new : Nat := 0
  stage : Nat := 0                    -- 0 scheduled, 1 copying, 2 committed, erase waits
  deriving DecidableEq, Repr

/-- An Orchard stack: its translation layer and health registers (R493 to R498). -/
structure Stack where
  stkfail : Bool := false
  nospare : Bool := false
  retired : List Nat := []
  rdlim : Nat := 100000
  relrd : Nat := 0
  relecc : Nat := 0
  relue : Nat := 0
  relwl : Nat := 0
  cecw : Nat := 0
  uepg : Nat := 0
  pread : Nat := 0
  lastrel : Word := 0
  lastue : Nat := 0
  map : RMap Nat := []                -- logical to physical block + 1; 0 means the block of the same number
  rdc : RMap Nat := []
  erase : RMap Nat := []
  free : List Nat := []               -- free pool beyond the unlisted; see freeFrom
  freeFrom : Nat := 131072            -- physical blocks from here to 139263 that were never mapped are free
  lost : List Nat := []               -- logical pages marked lost (R496)
  reads : List PageRead := []
  relocs : List Reloc := []
  deriving DecidableEq, Repr

/-- An access that reaches a bank of HBM4E: bank, row and kind, and the number of the modelled Grove's request that it
serves, 0 for any other (R500, R505). -/
structure HbmReq where
  bank : Nat := 0
  row : Nat := 0
  evt : HbmEvt := .ok
  id : Nat := 0
  want : List Nat := []               -- the lines whose bytes its reader wants
  take : List Nat := []               -- the lines that the LLC takes when it is served, own where the Grove reads them
  own : Bool := false
  l2 : Bool := false                  -- the Glade's L2 takes them too
  counted : Bool := false             -- its wait for a management window is in BOCNT (R505)
  deriving DecidableEq, Repr

/-- A pseudo-channel of HBM4E: the counter window of R507 and the bank states of R500, R504, R506. -/
structure Pc where
  mat : Nat := 1024
  wen : Bool := false
  wbank : Nat := 0
  wrow : Nat := 0
  wcnt : Nat := 0
  actcnt : Nat := 0
  rfmrows : Nat := 0
  mgmtcnt : Nat := 0
  bocyc : Nat := 0
  bocnt : Nat := 0
  crcerr : Nat := 0
  retrain : Nat := 0
  linkfail : Nat := 0
  cecnt : Nat := 0
  uecnt : Nat := 0
  remapue : Nat := 0
  poison : List Nat := []             -- banks whose remap table is poisoned
  retiredBanks : List Nat := []
  reloading : Bool := false
  remapdrop : Nat := 0
  reloads : Nat := 0
  reloadTries : Nat := 0
  openRow : RMap Nat := []            -- bank to open row + 1; 0 closed
  lastUse : RMap Nat := []
  mc : RMap Nat := []                 -- 8192 × bank + row to MC
  busy : RMap Nat := []               -- bank to end of its management window
  replays : Nat := 0                  -- consecutive failed replays of the transfer in progress (R502)
  retries : Nat := 0                  -- consecutive retrainings without a successful transfer
  failed : Bool := false
  retraining : Bool := false          -- of the channel, kept in its even pseudo-channel (R503)
  replay : Option HbmReq := none      -- the transfer that is replayed or sent again (R503)
  wait : List HbmReq := []            -- accesses that wait, in order (R503, R505, R506)
  deriving DecidableEq, Repr

/-- A context image in a context slot: what the machine itself keeps of the saved task (R448, R452). -/
structure SavedCtx where
  part : Nat := 0
  slot : Nat := 0
  task : Nat := 0
  launch : Nat := 0
  phase : Nat := 0
  level : Nat := 0
  prov : Bool := false
  queue : Nat := 0
  tile : Nat := 0
  r2 : Word := 0
  entry : Bool := false               -- a resume entry for it is queued
  strm : Bool := false
  barGen : Option (Nat × Nat) := none      -- saved stalled in BAR.WAIT or BARR (R304)
  barRes : Option (Word × Word) := none
  cfmt : Word := 0                    -- latched formats of the planes: the image has no place for them
  ifmt : Word := 0
  micro : Micro := {}                 -- the last run's sub-code and an undelivered MICRO_FAULT
  evicted : Bool := false             -- saved by an eviction: RESUME queues it again (R60, R453)
  debtTrap : Bool := false            -- CANOPY_DEBT is due (R108)
  segOn : Bool := false               -- its first bundle has issued: a segment runs (R40)
  capped : Bool := false              -- the cap acted in the segment; its overrun is due, or counted (R41)
  overrun : Bool := false
  ovr : Bool := false
  lostG : List (Nat × Word) := []     -- lost marks (R444)
  lostR : List (Nat × Word) := []
  deriving DecidableEq, Repr

/-- The chain of the LAUNCH packet that a command queue performs (R470). -/
structure Chain where
  todo : List (List Word) := []       -- operator records not expanded yet
  active : Option Nat := none         -- launch slot of the ACTIVE operator
  shadow : Option Nat := none         -- launch slot of the expanded operator
  bad : Option Nat := none            -- status of the operator that expansion refused: the first of todo
  hold : Bool := false                -- TAP_MISSED holds the next operator until RESUME (R179)
  status : Nat := 0                   -- status and result of the last operator completed
  result : Word := 0
  deriving DecidableEq, Repr

/-- The first operator of a PRED arm, expanded before the test (R472): its launch slot, or the status of its refusal. -/
structure ArmOp where
  slot : Option Nat := none
  bad : Option Nat := none
  deriving DecidableEq, Repr

/-- A command queue (R461, R471, R527). -/
structure CmdQ where
  ctl : Nat := 0                      -- STATE: 0 RUN, 1 PREEMPTED, 2 ERROR
  owner : Bool := false
  log2sz : Nat := 12
  base : Word := 0
  tail : Nat := 0
  head : Nat := 0
  part : Nat := 0
  cw : RMap Word := []
  ready : Option Pkt := none          -- the packet that has been parsed and is performed next
  cur : Option Pkt := none            -- the packet being performed, until it completes (R462)
  pseq : Nat := 0                     -- its sequence number
  chain : Chain := {}
  parsed : Bool := false              -- the arms of the PRED being performed are parsed and expanded
  opThen : ArmOp := {}
  opElse : ArmOp := {}
  opTaken : ArmOp := {}               -- that of the taken arm, until its LAUNCH is performed
  armLeft : Nat := 0                  -- packets of the taken arm still to be parsed (R472)
  skipNow : Nat := 0                  -- packets of an untaken arm to be skipped now
  skipLater : Nat := 0                -- packets of the ELSE arm to be skipped after the taken THEN arm
  deriving DecidableEq, Repr

/-- A ring that the device writes records to (R477). -/
structure Ring where
  conf : Bool := false
  log2n : Nat := 4
  irq : Bool := false
  base : Word := 0
  cons : Word := 0
  prod : Nat := 0
  deriving DecidableEq, Repr

/-- A record waiting for room in its ring (R478): ring key and its words. -/
structure RingRec where
  ring : Nat := 0
  words : List Word := []
  deriving DecidableEq, Repr

/-- An RMA write sent over the fabric: the peer's entry as the job read it at issue (its ports, its JOB and its address), the offset
in its window and the bytes (R392, R528, R529). -/
structure FabricPut where
  dest : List Word := []
  off : Nat := 0
  data : List Byte := []
  deriving DecidableEq, Repr

/-- The device-wide units. -/
structure Dev where
  launches : RMap Launch := []
  away : List AwayTask := []          -- tasks that run on other Groves (R33, R44)
  queues : RMap Queue := []
  tlb : List TlbEntry := []
  ctxarea : RMap Word := []           -- CTXAREA by partition (R451)
  ctxlive : List SavedCtx := []       -- images written and not freed
  sysctl : RMap Word := []            -- SYSCTL by partition (R424)
  seqctr : RMap Nat := []             -- numbers given, by partition: the next is this + 1 (R463)
  jobctr : RMap Nat := []             -- job numbers given, by partition (R379)
  mgmtctr : Nat := 0                  -- numbers given by the management counter (R463)
  tap : RMap Word := []               -- tap tables, ((64 × table + point) × 20 + word) (R173, R467)
  steer : RMap Word := []             -- steering tables, ((64 × table + entry) × 2 + word)
  tapCur : RMap Nat := []             -- current version of each partition's tap, steering and SPT table (R467)
  steerCur : RMap Nat := []
  sptCur : RMap Nat := []
  refuse : RMap Nat := []             -- steering refusals by point (R175)
  fired : List Nat := []              -- arm states that are FIRED, by armKey (R182)
  tapActs : List (Nat × Nat) := []    -- (launch, 4096 × action + slot) to take at the flip (R184)
  slotSteer : RMap Nat := []          -- slot to steering entry + 1; 0 none (R175)
  slotAlpha : RMap Lane := []
  slots : RMap Word := []             -- slot records, 4 × slot + word (R200)
  seeds : RMap Lane := []             -- seeds, 8 × slot + word (R202)
  rings : RMap Nat := []              -- words the RWE ring of each slot holds (R213)
  slotPend : List (Nat × Pkt) := []   -- by partition: SEQCFG and SEEDSEQ not yet applied (R202, R473)
  slotDue : List (Nat × Pkt) := []    -- those whose operator boundary has passed: applied once no commit runs (R221, R473)
  spt : RMap Word := []               -- SPTs, (256 × table + entry) × 4 + word (R187)
  wh : RMap WHandle := []             -- weight handles (R118)
  pools : RMap Nat := []              -- weight-handle pool rows n_b, by 32 × Grove + bank (R522)
  enqs : Nat := 0                     -- MODEL: records enqueued (R307)
  cqNext : Nat := 0                   -- the command queue that the parse workers look at first (R462)
  whOrder : Nat := 0                  -- MODEL: bindings and uses counted, for the order of R488 and R490
  orstk : RMap Stack := []
  orch : RMap Byte := []              -- Orchard bytes by logical address, (2^25 × stack + logical page) × 16384 + byte (R484)
  hbm : RMap Pc := []                 -- pseudo-channels, 128 × stack + pc
  colTemp : RMap Nat := []            -- TEMP, gap G and matrix cap MCAP of each column (R508, R511)
  colGap : RMap Nat := []
  colMcap : RMap Nat := []
  tg : Nat := 95
  tm : Nat := 105
  inletHot : Bool := false            -- the inlet forces the maximum gap and cap (R537)
  pcap : Nat := 1800
  capon : Bool := false
  pnow : Nat := 0
  tin : Nat := 0
  tout : Nat := 0
  ptab : RMap Word := []              -- partition table, 16 × entry + word (R521)
  live : List Nat := []               -- partitions that are LIVE
  pctl : Word := 0
  peers : RMap Word := []             -- peer table, 4 × entry + word (R529)
  asidtab : RMap Word := []           -- ASID table window, 2 × ASID + word (R426)
  cmdqs : RMap CmdQ := []
  evrings : RMap Ring := []           -- by 64 × partition + 16 × kind + index (R477)
  ringWait : List RingRec := []
  irqs : List Nat := []               -- MSI-X vectors raised, newest first (R477, R525)
  workers : Nat := 8                  -- parse workers in service (R479)
  mism : Nat := 0
  runm : Nat := 0
  fatal : List Nat := []
  recovering : Bool := false          -- a control-pair recovery is in progress (R482)
  boot : Nat := 0                     -- BOOTSTAT.STEP (R533)
  bootFail : Bool := false
  meas : RMap (BitVec 256) := []      -- M0 to M63 (R534)
  patches : List (List Byte) := []    -- accepted patch images in the Orchard system area (R534)
  loader : RMap Word := []            -- image loader SRC, LPN0, NPG, GO (R536)
  loading : Bool := false
  peerOut : List FabricPut := []      -- fabric writes sent, oldest first (R392)
  waits : Bool := false               -- MODEL: in the event that is tried now, an access of the device is held back by its bank (R505, R506)
  deriving DecidableEq, Repr

/-- What the other stream of the Grove still reads in the last cycle of an issue of two cycles: the memories, the registers of the
Grove and of its streams, the array, and the device-wide units as they were before that issue (R234). -/
structure Late where
  st0 : Stream := {}
  st1 : Stream := {}
  comp : Plane := {}
  idle : Plane := {}
  owner : Option Nat := none
  uentry : RMap (BitVec 16) := []
  mem : List Host.Cell := []
  hmem : List Host.Cell := []
  spad : RMap Byte := []
  handles : RMap Handle := []
  wbuf : List BufByte := []
  regs : GroveRegs := {}
  dev : Dev := {}
  deriving DecidableEq, Repr

/-- The whole machine. `sel` is the stream for which the next op acts. -/
structure State where
  now : Nat := 0                      -- core cycles since power-on (R4)
  free : Nat := 0                     -- MODEL: free values taken so far
  agenda : List Instr := []           -- inputs from outside and events that come next, in order
  turn : Nat := 0                     -- MODEL: in this cycle, 0 the primary issues next, 1 stream 0, 2 stream 1, 3 none
  sel : Bool := false
  st0 : Stream := {}
  st1 : Stream := {}
  gv : Grove := {}
  dev : Dev := {}
  mem : List Host.Cell := []          -- home device memory (R121)
  hmem : List Host.Cell := []         -- host memory on path 0x5
  ue : List Nat := []                 -- 128-byte device lines that are uncorrectable (R502)
  llc : List (Nat × Bool) := []       -- 128-byte device lines that the LLC has taken, true where by a read of the Grove (R10, R500)
  l2 : List Nat := []                 -- those that the L2 of the Grove's Glade has taken (R16, R114)
  late : Option Late := none          -- what the other stream still sees in the last cycle of a two-cycle issue (R234)
  reqs : Nat := 0                     -- MODEL: memory requests made by the Grove (R117)
  asked : List Ask := []              -- requests not yet served by the LLC (R500, R501)
  deriving DecidableEq, Repr

/-- The machine at power-on (R533): BOOTSTAT.STEP 0, nothing running, every table at its reset value.
Bring-up runs as the first step (POWER_ON). -/
def State.reset : State := {}

/-- Where and when an op issues: its position, the step count j it uses, and the state whose registers it reads,
which is the state before the issue (R226, R231). -/
structure OpCtx where
  pos : Pos := .s0
  j : Nat := 0
  rd : State := {}

/-- An op: from the effects of the issue so far to those with its own, or a stop. -/
abbrev OpM := OpCtx → State → Except (Stop State) State

end Sys2Proof.Machine
end

