-- ==== Sys2Proof/Machine/Ops.lean ====
section
/-!
DEFINITION. The named operations over streams, registers, home memory and address spaces: the one place where G0 is
hard-wired, where bytes are ordered, where an address is checked and translated, and where free values are taken.
-/

namespace Sys2Proof.Machine

/-! ## Streams -/

/-- A stream context. -/
def strm (s : State) (b : Bool) : Stream := if b then s.st1 else s.st0

/-- The machine with a stream context replaced. -/
def setStrm (s : State) (b : Bool) (c : Stream) : State := if b then { s with st1 := c } else { s with st0 := c }

/-- The stream for which the op acts. -/
def cur (s : State) : Stream := strm s s.sel

/-- The machine with the acting stream replaced. -/
def setCur (s : State) (c : Stream) : State := setStrm s s.sel c

/-- The acting stream changed by f. -/
def modCur (s : State) (f : Stream → Stream) : State := setCur s (f (cur s))

/-- The Grove changed by f. -/
def modGv (s : State) (f : Grove → Grove) : State := { s with gv := f s.gv }

/-- The device units changed by f. -/
def modDev (s : State) (f : Dev → Dev) : State := { s with dev := f s.dev }

/-- The stream holds a task (R59). -/
def hasTask (c : Stream) : Bool := c.status != .idle

/-! ## Registers -/

/-- G[n]; G0 reads zero (R62). -/
def gRead (c : Stream) (n : Nat) : Word := if n = 0 then 0 else rget 0 c.g n

/-- G[n] := v; a write to G0 is discarded (R62), and a write clears the register's lost mark (R444). -/
def gWrite (c : Stream) (n : Nat) (v : Word) : Stream :=
  if n = 0 then c else { c with g := rset 0 c.g n v, lostG := c.lostG.filter (fun x => x.1 != n) }

/-- The source register of an op: read before the issue (R231). -/
def gr (x : OpCtx) (r : Reg) : Word := gRead (cur x.rd) r.toNat

/-- The source register read as a number. -/
def grN (x : OpCtx) (r : Reg) : Nat := (gr x r).toNat

/-- The destination register of an op. -/
def setG (s : State) (r : Reg) (v : Word) : State := modCur s (fun c => gWrite c r.toNat v)

/-- A lane of the matrix register file. -/
def mrfLane (s : State) (row lane : Nat) : Lane := rget 0 s.gv.mrf (32 * row + lane)

/-- A lane written; the row's lost mark is cleared for the acting stream (R444). -/
def setLane (s : State) (row lane : Nat) (v : Lane) : State :=
  modGv s (fun g => { g with mrf := rset 0 g.mrf (32 * row + lane) v })

/-- A lane read as a number. -/
def laneN (s : State) (row lane : Nat) : Nat := (mrfLane s row lane).toNat

/-- A row as 32 lanes. -/
def mrfRow (s : State) (row : Nat) : List Lane := (List.range 32).map (mrfLane s row)

/-- The lanes of a row replaced. -/
def setRow (s : State) (row : Nat) (ls : List Lane) : State :=
  modGv s (fun g => { g with mrf := rsetAll 0 g.mrf (32 * row) (ls.take 32) })

/-! ## Stops -/

/-- An op that faults. -/
def faultWith (c : FCode) (cause : Nat := 0) (addr : Word := 0) : Except (Stop State) α :=
  .error (.fault { code := c, cause := cause, addr := addr })

/-- An op that waits and does nothing else. -/
def stallNow : Except (Stop State) α := .error (.stall id)

/-- An op that waits, the wait having an effect of its own. -/
def stallWith (f : State → State) : Except (Stop State) α := .error (.stall f)

/-- A check with the fault of its failure. -/
def need (b : Bool) (c : FCode) (cause : Nat := 0) (addr : Word := 0) : Except (Stop State) Unit :=
  if b then .ok () else faultWith c cause addr

/-- A condition that an op waits for. -/
def waitFor (b : Bool) : Except (Stop State) Unit := if b then .ok () else stallNow

/-- The next free choice of Config.l1Keeps. -/
def takeKeep (f : Nat → Bool) (s : State) : Bool × State := (f s.free, { s with free := s.free + 1 })

/-- The next free word. -/
def takeFree (s : State) : Word × State := (Config.freeWord s.free, { s with free := s.free + 1 })

/-! ## Launches, partitions and levels -/

/-- A launch slot. -/
def launchOf (s : State) (n : Nat) : Launch := rget {} s.dev.launches n

/-- A launch slot changed. -/
def modLaunch (s : State) (n : Nat) (f : Launch → Launch) : State :=
  modDev s (fun d => { d with launches := rmod {} d.launches n f })

/-- Word n of a launch's operator record (R469). -/
def opWord (l : Launch) (n : Nat) : Nat := (l.op.getD n 0).toNat

/-- The partition of the acting stream's task. -/
def partOf (s : State) (c : Stream) : Nat := (launchOf s c.launch).part

/-- Word w of entry p of the partition table (R521). -/
def ptw (s : State) (p w : Nat) : Nat := (rget 0 s.dev.ptab (16 * p + w)).toNat

/-- n lies in the share [base, base + count). -/
def inShare (n base cnt : Nat) : Bool := decide (base ≤ n) && decide (n < base + cnt)

/-- The shares of a partition (R521). -/
def asidShare (s : State) (p n : Nat) : Bool := inShare n (bits (ptw s p 2) 43 32) (bits (ptw s p 2) 12 0)
def handleShare (s : State) (p n : Nat) : Bool := inShare n (bits (ptw s p 3) 44 32) (bits (ptw s p 3) 13 0)
def slotShare (s : State) (p n : Nat) : Bool := inShare n (bits (ptw s p 4) 43 32) (bits (ptw s p 4) 12 0)
def queueShare (s : State) (p n : Nat) : Bool := inShare n (bits (ptw s p 5) 39 32) (bits (ptw s p 5) 8 0)
def gladeShare (s : State) (p g : Nat) : Bool := bit (ptw s p 0) g

/-- The Glade of a Grove (R11): 4 × (y div 4) + (x div 4). -/
def gladeOf (grove : Nat) : Nat := 4 * (grove / 64) + grove % 16 / 4

/-! ## Home memory (R121) -/

/-- What a byte of memory that nothing has written reads as. -/
def unlisted : Byte := 0

/-- The canonical form of a memory. -/
def Memory.wf (m : List Host.Cell) : Bool := rwf unlisted m

/-- One byte of device memory at home. -/
def devByte (s : State) (pa : Nat) : Byte := rget unlisted s.mem pa

/-- One byte of host memory. -/
def hostByte (s : State) (pa : Nat) : Byte := rget unlisted s.hmem pa

/-- One byte at home. -/
def homeByte (s : State) (sp : Space) (pa : Nat) : Byte := match sp with | .dev => devByte s pa | .host => hostByte s pa

/-- n bytes at home. -/
def homeBytes (s : State) (sp : Space) (pa : Nat) : Nat → List Byte
  | 0 => []
  | n + 1 => homeByte s sp pa :: homeBytes s sp (pa + 1) n

/-- A little-endian number of n bytes at home. -/
def homeNat (s : State) (sp : Space) (pa n : Nat) : Nat := leNat (homeBytes s sp pa n)

/-- A 64-bit word at home. -/
def homeWord (s : State) (sp : Space) (pa : Nat) : Word := BitVec.ofNat 64 (homeNat s sp pa 8)

/-- One byte written at home. -/
def putByte (s : State) (sp : Space) (pa : Nat) (b : Byte) : State :=
  match sp with
  | .dev => { s with mem := rset unlisted s.mem pa b }
  | .host => { s with hmem := rset unlisted s.hmem pa b }

/-- Bytes written at home, in ascending order. -/
def putBytesRaw (s : State) (sp : Space) (pa : Nat) : List Byte → State
  | [] => s
  | b :: r => putBytesRaw (putByte s sp pa b) sp (pa + 1) r

/-- The lines of 128 bytes that the LLC's 512 MiB hold at most (R10, R16). -/
def llcLines : Nat := 4194304

/-- The LLC takes a line of device memory that is read through a cached path, own where the Grove reads it; where it is full it
gives up another. A line that is only written is not taken (R500, R513). -/
def takeLine (own : Bool) (line : Nat) (s : State) : State :=
  if (line, true) ∈ s.llc || (line, own) ∈ s.llc then s
  else
    let l := s.llc.filter (fun e => e.1 != line)
    { s with llc := (line, own) :: (if l.length < llcLines then l else l.eraseIdx (Config.llcVictim s.now % llcLines)) }

/-- The LLC holds a line of device memory: one that it took for the Grove until it gives it up for another, one that it may have
taken for another agent by a free choice (R500, R515; DESIGN CHOICE, notes/assumptions/13.md and 88.md). -/
def llcHolds (s : State) (line : Nat) : Bool :=
  decide ((line, true) ∈ s.llc) || (decide ((line, false) ∈ s.llc) && Config.llcKeeps s.now line)

/-- The lines of 128 bytes that the L2 of a Glade, 2 MiB, holds at most (R16). -/
def l2Lines : Nat := 16384

/-- The L2 takes a line that is read through it; where it is full it gives up another. -/
def takeL2 (line : Nat) (s : State) : State :=
  if line ∈ s.l2 then s
  else { s with l2 := line :: (if s.l2.length < l2Lines then s.l2 else s.l2.eraseIdx (Config.l2Victim s.now % l2Lines)) }

/-- The L2 holds a line: one that it took, until it gives it up for another or another Glade's write drops it, a free choice (R121;
DESIGN CHOICE, notes/assumptions/89.md). -/
def l2Holds (s : State) (line : Nat) : Bool := decide (line ∈ s.l2) && Config.l2Keeps s.now line

/-- Bytes written at home as one write: a line of 128 bytes written whole is correctable again (R502). -/
def putBytes (s : State) (sp : Space) (pa : Nat) (bs : List Byte) : State :=
  let s := putBytesRaw s sp pa bs
  match sp with
  | .dev => { s with ue := s.ue.filter (fun l => !(decide (pa ≤ 128 * l) && decide (128 * l + 128 ≤ pa + bs.length))) }
  | .host => s

/-- A 64-bit word written at home. -/
def putWord (s : State) (sp : Space) (pa : Nat) (v : Word) : State := putBytes s sp pa (natLe 8 v.toNat)

/-- The stack, pseudo-channel, bank and row of a device address (R499). -/
def hbmPlace (pa : Nat) : Nat × Nat × Nat × Nat :=
  let g := pa / 2048
  (g % 8, g / 8 % 128, g / 1024 % 32, g / 1024 / 32)

/-- Some bank of HBM4E has a poisoned remap table, or some channel has failed. -/
def hbmHurt (s : State) : Bool := s.dev.hbm.any (fun x => x.2.failed || !x.2.poison.isEmpty)

/-- A 2 KiB granule that every read from the array finds uncorrectable: its bank's remap table is poisoned or its channel
has failed (R502, R506). -/
def granuleDead (s : State) (g : Nat) : Bool :=
  let (st, pc, bank, _) := hbmPlace (2048 * g)
  (rget {} s.dev.hbm (128 * st + pc)).poison.contains bank || (rget {} s.dev.hbm (128 * st + pc / 2 * 2)).failed

/-- A line of a device range lies in a dead granule and is not read from the LLC. -/
def deadIn (s : State) (pa n : Nat) : Bool :=
  hbmHurt s && (List.range ((pa + n - 1) / 128 + 1 - pa / 128)).any (fun k =>
    granuleDead s ((pa / 128 + k) / 16) && !llcHolds s (pa / 128 + k))

/-- Some line of a device range is marked uncorrectable (R502). -/
def lineUe (s : State) (sp : Space) (pa n : Nat) : Bool :=
  match sp with
  | .dev => s.ue.any (fun l => decide (pa < 128 * l + 128) && decide (128 * l < pa + n))
  | .host => false

/-- A read of a range as the array stands now is uncorrectable: a line of it is marked, or its bank or channel reads none (R502,
R506). -/
def ueIn (s : State) (sp : Space) (pa n : Nat) : Bool := lineUe s sp pa n || (decide (sp = .dev) && deadIn s pa n)

/-! ## Memory requests (R117, R500, R501) -/

/-- A request to home for lines of 128 bytes of device memory from a line on: one line, or the sixteen of a tile that path 0x3
fetches (R501); `want` are those whose bytes are wanted; l2 where the Glade's L2 may serve it and takes the line. Where no cache
holds them all, the array is accessed (R500). It takes the next number. -/
def askLines (l2 : Bool) (line n : Nat) (want : List Nat) (s : State) : State :=
  { s with reqs := s.reqs + 1, asked := s.asked ++ [{ id := s.reqs + 1, line := line, n := n, want := want, l2 := l2 }] }

/-- A request to home that reads no line of the array: host memory, or a store on its way. -/
def askOther (s : State) : State := askLines false 0 0 [] s

/-- A request to home for bytes inside one line, of either space. -/
def askThrough (l2 : Bool) (sp : Space) (pa : Nat) (s : State) : State :=
  match sp with
  | .dev => askLines l2 (pa / 128) 1 [pa / 128] s
  | .host => askOther s

/-- One that no L2 serves. -/
def askHome (sp : Space) (pa : Nat) (s : State) : State := askThrough false sp pa s

/-- A line of a request is in a cache that serves it. -/
def askHeld (s : State) (q : Ask) (line : Nat) : Bool := llcHolds s line || (q.l2 && l2Holds s line)

/-- Some line of a request is in no cache that serves it, so that the request accesses the array. -/
def reachesArray (s : State) (q : Ask) : Bool :=
  decide (128 * q.line < 0x8000000000) && (List.range q.n).any (fun k => !askHeld s q (q.line + k))

/-- The pseudo-channel's entry in which a device line's bank stands. -/
def linePc (s : State) (line : Nat) : Pc :=
  let (st, pc, _, _) := hbmPlace (128 * line)
  rget {} s.dev.hbm (128 * st + pc)

/-- A read of a device line for which no result waits is on its way: a fetch, a walk, a prefetch, an access of the device. -/
def lineAsked (s : State) (line : Nat) : Bool :=
  s.asked.any (fun q => q.n == 1 && q.line == line) || (linePc s line).wait.any (fun q => q.own && q.take.contains line) ||
  (match (linePc s line).replay with | some q => q.own && q.take.contains line | none => false)

/-- A device line read at home for which no result waits: it is asked for where no cache holds it (R500). -/
def touchThrough (l2 : Bool) (line : Nat) (s : State) : State :=
  let q : Ask := { line := line, n := 1, want := [line], l2 := l2 }
  if askHeld s q line then (if l2 then takeL2 line s else s)
  else if lineAsked s line then s
  else { s with asked := s.asked ++ [q] }

/-- One that no L2 serves. -/
def touchLine (line : Nat) (s : State) : State := touchThrough false line s

/-- The lines of a range of home so read. -/
def touchHome (sp : Space) (pa n : Nat) (s : State) : State :=
  match sp with
  | .dev => (List.range ((pa + n - 1) / 128 + 1 - pa / 128)).foldl (fun s k => touchLine (pa / 128 + k) s) s
  | .host => s

/-- The numbers of the requests made between two states. -/
def asksSince (s t : State) : List Nat := (List.range (t.reqs - s.reqs)).map (fun k => s.reqs + 1 + k)

/-- A request has been served (R505, R514). -/
def askServed (s : State) (id : Nat) : Bool :=
  s.asked.all (fun q => q.id != id) &&
  s.dev.hbm.all (fun x => x.2.wait.all (fun r => r.id != id) && (match x.2.replay with | some r => r.id != id | none => true))

/-- A stream's requests that are not served: those that its results wait for, those of its next issue, those that nothing waits for
(R117). -/
def asksOut (s : State) (c : Stream) : Nat :=
  c.pend.foldl (fun n p => n + p.asks.length) 0 + (((c.hand.filter (fun h => !askServed s h.id)).map (·.grp)).eraseDups).length +
  (c.loose.filter (fun r => !r.all (askServed s))).length

/-- The lines of published stores that still wait for a job, of those that p selects: drains of the write buffer that are
outstanding (R117, R127). -/
def drains (p : BufByte → Bool) (s : State) : Nat :=
  (((s.gv.wbuf.filter (fun e => e.pub && p e)).map (fun e => e.pa / 128)).eraseDups).length

/-- A stream's outstanding requests, its drains among them (R117). -/
def outstanding (s : State) (c : Stream) : Nat := asksOut s c + drains (fun e => e.task == c.task) s

/-- The Grove's outstanding requests (R117). -/
def groveOut (s : State) : Nat :=
  asksOut s s.st0 + asksOut s s.st1 + s.gv.heldTasks.foldl (fun k c => k + asksOut s c) 0 + drains (fun _ => true) s

/-- n more requests of stream context c would exceed a limit of R117. -/
def tooManyFor (s : State) (c : Stream) (n : Nat) : Bool :=
  n != 0 && (decide (outstanding s c + n > 1280) || decide (groveOut s + n > 1536))

/-- n more requests of the acting stream would exceed a limit of R117. -/
def tooMany (s : State) (n : Nat) : Bool := tooManyFor s (cur s) n

/-- The drains of the write buffer exceed a limit of R117. -/
def overDrained (s : State) : Bool :=
  decide (groveOut s > 1536) || [s.st0, s.st1].any (fun c => hasTask c && decide (outstanding s c > 1280))

/-! ## The reads that an issue needs before it commits (R59, R277, R306, R432, R444) -/

/-- A read of a request that the acting stream's next issue has made. -/
def handOf (s : State) (q : Ask) : Option Hand := (cur s).hand.find? (fun h => h.line == q.line && h.n == q.n)

/-- The reads of the requests made for the acting stream's next issue; where one is set they are one to R117. -/
def takeHand (one : Bool) (qs : List Ask) (s : State) : State :=
  qs.foldl (fun t q =>
    if (handOf t q).isSome then t
    else
      let u := askLines q.l2 q.line q.n q.want t
      modCur u (fun c => { c with hand := c.hand ++ [{ line := q.line, n := q.n, id := u.reqs, grp := if one then s.reqs + 1 else u.reqs }] })) s

/-- The requests that were made from state s to state t by an op that needs their bytes before it commits: those for which no cache
holds the lines have to be in the hand of the acting stream. Where they are, the answer is whether one of them found nothing, and
the state in which they are no requests any more; else the op stalls, after it has made them, as far as R117 lets it. -/
def inHand (one : Bool) (s t : State) : Except (Stop State) (Bool × State) :=
  let need := t.asked.filter (fun q => decide (s.reqs < q.id) && reachesArray t q)
  let new := need.filter (fun q => (handOf s q).isNone)
  let have_ := need.filterMap (handOf s)
  if !new.isEmpty then
    if tooMany s (if one then 1 else new.length) then stallNow else stallWith (takeHand one new)
  else if !have_.all (fun h => askServed s h.id) then stallNow
  else .ok (have_.any (·.lost), { t with asked := t.asked.filter (fun q => decide (q ∉ need)) })

/-- The bank of a device line, or its channel, serves nothing now that is asked of it: accesses wait there in order (R503,
R505, R506). -/
def lineHeld (s : State) (line : Nat) : Bool :=
  let (st, pc, bank, _) := hbmPlace (128 * line)
  let p := rget {} s.dev.hbm (128 * st + pc)
  (rget {} s.dev.hbm (128 * st + pc / 2 * 2)).retraining || p.replay.isSome || p.wait.any (fun q => q.bank == bank)

/-- Some bank or channel serves nothing now. -/
def hbmBusy (s : State) : Bool := s.dev.hbm.any (fun x => x.2.retraining || x.2.replay.isSome || !x.2.wait.isEmpty)

/-- A line of a range of home has to be read from a bank that holds it back. -/
def heldIn (s : State) (sp : Space) (pa n : Nat) : Bool :=
  match sp with
  | .dev => hbmBusy s && (List.range ((pa + n - 1) / 128 + 1 - pa / 128)).any (fun k =>
      !llcHolds s (pa / 128 + k) && lineHeld s (pa / 128 + k))
  | .host => false

/-- A request made from state s to state t for the acting stream's next issue has found nothing. -/
def metLost (s t : State) : Bool :=
  t.asked.any (fun q => decide (s.reqs < q.id) && reachesArray t q && (match handOf s q with | some h => h.lost | none => false))

/-! ## Addresses (R111 to R113) -/

/-- The path selector [63:60]. -/
def pathOf (a : Nat) : Nat := a / 2 ^ 60

/-- The qualifier bits [59:57]. -/
def qualOf (a : Nat) : Nat := a / 2 ^ 57 % 8

/-- Bits [56:0]. -/
def lowOf (a : Nat) : Nat := a % 2 ^ 57

/-- The address cases of R113 that need no translation, for an access of n bytes. -/
def addrCheck (k : AKind) (a n : Nat) : Except (Stop State) Unit :=
  let w : Word := BitVec.ofNat 64 a
  let p := pathOf a
  if p ≥ 7 then faultWith .pathFault 0 w
  else if qualOf a != 0 && p != 3 then faultWith .pathFault 0 w
  else if (k == .st || k == .amo) && (p == 1 || p == 3) then faultWith .pathRo 0 w
  else if p == 4 then faultWith .pathUse 0 w
  else if lowOf a + n > 2 ^ 57 then faultWith .pathFault 0 w
  else if p == 3 && a % 2048 + n > 2048 then faultWith .pathFault 0 w
  else .ok ()

/-- The effective address of R285: base, signed offset; PATH_FAULT on a carry into the path bits. -/
def effAddr (base : Word) (off : Int) : Except (Stop State) Nat :=
  let s : Int := (lowOf base.toNat : Int) + off
  if s < 0 || s ≥ 2 ^ 57 then faultWith .pathFault 0 base
  else .ok (base.toNat / 2 ^ 57 * 2 ^ 57 + s.toNat)

/-! ## Translation (R429 to R433) -/

/-- The levels of a walk: shift, index bits, and the page size of a leaf allowed there (0 where none is). -/
def walkLevels : List (Nat × Nat × Nat) := [(48, 9, 0), (39, 9, 0), (30, 9, 2 ^ 30), (21, 9, 2 ^ 21), (16, 5, 2 ^ 16)]

/-- A translation fault. -/
def xlateErr (cause : Nat) (a : Nat) : Except FaultInfo α := .error ⟨.xlate, cause, BitVec.ofNat 64 a⟩

/-- The walk of bits [56:0] of a from a table base: the leaf and its page size, or XLATE (R431). -/
def walk (s : State) (a : Nat) : List (Nat × Nat × Nat) → Nat → Except FaultInfo (Word × Nat)
  | [], _ => xlateErr 1 a
  | (sh, n, size) :: r, base =>
    let e := homeWord s .dev (base + 8 * (lowOf a / 2 ^ sh % 2 ^ n))
    let x := e.toNat
    if !bit x 0 then xlateErr 1 a
    else if bit x 1 then
      if size = 0 then xlateErr 2 a
      else if bits x 63 52 != 0 || bits x 15 12 != 0 || bits x 51 16 * 2 ^ 16 % size != 0 then xlateErr 2 a
      else if !bit x 7 && bits x 51 16 * 2 ^ 16 + size > 0x8000000000 then xlateErr 2 a
      else .ok (e, size)
    else if r.isEmpty then xlateErr 2 a
    else if bits x 7 2 != 0 || bits x 63 52 != 0 then xlateErr 2 a
    else if r.length > 1 && bits x 11 8 != 0 then xlateErr 2 a
    else walk s a r (bits x 51 8 * 2 ^ 8)

/-- The base of an ASID's tables (R426). -/
def tableOf (s : State) (asid : Nat) : Nat := bits (rget 0 s.dev.asidtab (2 * asid)).toNat 51 12 * 2 ^ 12

/-- The walk of an ASID (R426). -/
def walkAsid (s : State) (asid a : Nat) : Except FaultInfo (Word × Nat) :=
  let w := (rget 0 s.dev.asidtab (2 * asid)).toNat
  if !bit w 63 then xlateErr 1 a
  else if bits w 62 52 != 0 || bits w 11 0 != 0 then xlateErr 2 a
  else walk s a walkLevels (tableOf s asid)

/-- The lines of the table entries that a walk reads. -/
def walkLines (s : State) (a : Nat) : List (Nat × Nat × Nat) → Nat → List Nat
  | [], _ => []
  | (sh, n, _) :: r, base =>
    let pa := base + 8 * (lowOf a / 2 ^ sh % 2 ^ n)
    let x := (homeWord s .dev pa).toNat
    pa / 128 :: (if bit x 0 && !bit x 1 then walkLines s a r (bits x 51 8 * 2 ^ 8) else [])

/-- The entries of the L2 TLB (R432). -/
def tlbEntries : Nat := 8192

/-- An entry filled into the L2 TLB, which gives up one of its entries where it is full. -/
def putTlb (e : TlbEntry) (s : State) : State :=
  if s.dev.tlb.length < tlbEntries then modDev s (fun d => { d with tlb := e :: d.tlb })
  else modDev { s with free := s.free + 1 } (fun d => { d with tlb := e :: d.tlb.eraseIdx (Config.tlbVictim s.free % tlbEntries) })

/-- The lines that the walk of an ASID reads: none where the ASID has no tables. -/
def asidLines (s : State) (asid a : Nat) : List Nat :=
  let w := (rget 0 s.dev.asidtab (2 * asid)).toNat
  if !bit w 63 || bits w 62 52 != 0 || bits w 11 0 != 0 then [] else walkLines s a walkLevels (tableOf s asid)

/-- A translation: what it comes to, and the lines that a walk has read for it. -/
abbrev Walked (α : Type) := Except FaultInfo α × List Nat

/-- A walk, whose success fills the TLB. The entries are read at home (R432). -/
def walkFill (asid a : Nat) (s : State) : Walked (Word × Nat) × State :=
  match walkAsid s asid a with
  | .ok (l, sz) => ((.ok (l, sz), asidLines s asid a), putTlb { asid := asid, page := lowOf a / 65536, leaf := l, size := sz } s)
  | .error f => ((.error f, asidLines s asid a), s)

/-- The entry is what a walk gives now. -/
def tlbFresh (s : State) (asid a : Nat) (e : TlbEntry) : Bool :=
  match walkAsid s asid a with
  | .ok (l, sz) => l == e.leaf && sz == e.size
  | .error _ => false

/-- The leaf that an L2 TLB entry or a walk gives; a walk that succeeds fills the TLB. Whether an entry that no longer
agrees with the tables is still held is a free choice (R432). -/
def leafOf (s : State) (asid a : Nat) : Walked (Word × Nat) × State :=
  match s.dev.tlb.find? (fun e => e.asid == asid && e.page * 65536 / e.size == lowOf a / e.size) with
  | some e =>
    if tlbFresh s asid a e then ((.ok (e.leaf, e.size), []), s)
    else
      let keep := takeKeep Config.tlbKeeps s
      if keep.1 then ((.ok (e.leaf, e.size), []), keep.2)
      else walkFill asid a (modDev keep.2 (fun d => { d with tlb := d.tlb.filter (fun x => x != e) }))
  | none => walkFill asid a s

/-- A device range lies in the partition's HBM4E share (R521). -/
def hbmOwned (s : State) (part pa n : Nat) : Bool :=
  let b := bits (ptw s part 1) 40 32
  let z := bits (ptw s part 1) 9 0
  decide (b * 2 ^ 30 ≤ pa) && decide (pa + n ≤ (b + z) * 2 ^ 30)

/-- The check of an access against its leaf (R431); a path 0x3 address must be backed by HBM4E (R113). -/
def leafCheck (s : State) (k : AKind) (level part a : Nat) (leaf : Word) (size : Nat) : Option FaultInfo :=
  let x := leaf.toNat
  let w : Word := BitVec.ofNat 64 a
  let perm := match k with
    | .ld | .tap => bit x 2
    | .st => bit x 3
    | .amo => bit x 2 && bit x 3
    | .fetch => bit x 5
  if bit x 7 && pathOf a == 3 then some ⟨.pathFault, 0, w⟩
  else if !perm then some ⟨.prot, 3, w⟩
  else if level == 0 && !bit x 4 && k != .tap then some ⟨.prot, 3, w⟩
  else if bit x 7 != (pathOf a == 5) then some ⟨.prot, 4, w⟩
  else if !bit x 7 && !hbmOwned s part (bits x 51 16 * 2 ^ 16) size then some ⟨.prot, 5, w⟩
  else if !bit (bits (ptw s part 10) 47 32) (bits x 11 8) then some ⟨.prot, 5, w⟩
  else none

/-- The home of an address: its space, physical address and whether the page is UC. -/
abbrev HomeOf := Space × Nat × Bool

/-- What a leaf makes of an access: its home, or the fault of its check. -/
def homeIn (s : State) (k : AKind) (level part a : Nat) (leaf : Word) (size : Nat) : Except FaultInfo HomeOf :=
  match leafCheck s k level part a leaf size with
  | some f => .error f
  | none =>
    let x := leaf.toNat
    .ok (if bit x 7 then Space.host else Space.dev, bits x 51 16 * 2 ^ 16 + lowOf a % size, bit x 6)

/-- An address translated and checked, the lines of its walk taken as they are at home. -/
def translateAt (k : AKind) (asid level part a : Nat) (s : State) : Walked HomeOf × State :=
  match leafOf s asid a with
  | ((.error f, ls), s) => ((.error f, ls), s)
  | ((.ok (leaf, size), ls), s) => ((homeIn s k level part a leaf size, ls), s)

/-- MEM_UE of a walk that meets an uncorrectable table entry (R432, R502; DESIGN CHOICE, notes/assumptions/90.md). -/
def walkUe (a : Nat) : FaultInfo := ⟨.memUe, 0, BitVec.ofNat 64 a⟩

/-- A translation for a job or a unit of the device: the table entries are read at home, whether the walk succeeds or not; an entry
that is uncorrectable ends it (R432, R500, R502). -/
def translate (k : AKind) (asid level part a : Nat) (s : State) : Except FaultInfo HomeOf × State :=
  let r := translateAt k asid level part a s
  let touch (s : State) : State := r.1.2.foldl (fun s l => touchLine l s) s
  if r.1.2.any (fun l => ueIn s .dev (128 * l) 128) then (.error (walkUe a), touch s) else (r.1.1, touch r.2)

/-- A translation for a job or a unit of the device has to read a table entry from a bank that holds accesses back (R505, R506). -/
def walkWaits (k : AKind) (asid level part a : Nat) (s : State) : Bool :=
  (translateAt k asid level part a s).1.2.any (fun l => heldIn s .dev (128 * l) 128)

/-- The lines that a walk for the acting stream's next issue reads, at hand: whether one of them is uncorrectable (R432, R502). -/
def walkHand (ls : List Nat) (s : State) : Except (Stop State) Bool := do
  let (lost, _) ← inHand false s (ls.foldl (fun s l => askLines false l 1 [l] s) s)
  return lost || ls.any (fun l => lineUe s .dev (128 * l) 128)

/-- The line of a byte of home, at hand for the acting stream's next issue; whether it is uncorrectable, and the state, in which the L2
has it where it comes through the L2. -/
def lineHand (l2 : Bool) (sp : Space) (pa : Nat) (s : State) : Except (Stop State) (Bool × State) := do
  let (lost, _) ← inHand false s (askThrough l2 sp pa s)
  return (lost || lineUe s sp pa 1, if l2 && sp == .dev && !lost then takeL2 (pa / 128) s else s)

/-- A translation by an op of the acting stream: the lines of its walk have to be in hand; a line among them that is uncorrectable is
MEM_UE on the issue (R286, R432, R502). -/
def xlateOp (k : AKind) (a : Nat) (s : State) : Except (Stop State) (HomeOf × State) := do
  let c := cur s
  let r := translateAt k c.asid c.level (partOf s c) a s
  let lost ← walkHand r.1.2 s
  if lost then .error (.fault (walkUe a))
  else match r.1.1 with
    | .ok h => return (h, r.2)
    | .error f => .error (.fault f)

/-- A range cut at line boundaries of 128 bytes; fuel is the number of bytes. -/
def lineSegs (a n : Nat) : Nat → List (Nat × Nat)
  | 0 => []
  | fuel + 1 =>
    if n = 0 then []
    else
      let k := min n (128 - a % 128)
      (a, k) :: lineSegs (a + k) (n - k) fuel

/-- The segments of an access of n bytes. -/
def segsOf (a n : Nat) : List (Nat × Nat) := lineSegs a n (n / 128 + 2)

/-! ## The phase write buffer (R126, R127) -/

/-- Two byte ranges share a 256-byte granule (R140). -/
def granuleMeet (a n b m : Nat) : Bool :=
  n != 0 && m != 0 && decide (a / 256 ≤ (b + m - 1) / 256) && decide (b / 256 ≤ (a + n - 1) / 256)

/-- A device byte lies in a granule of the footprint of an incomplete job of the Grove. -/
def jobCovers (s : State) (va : Nat) : Bool :=
  s.gv.jobs.any (fun j => j.foot.any (fun r => r.sp == 0 && granuleMeet va 1 r.lo r.len))

/-- Bytes written into the L1 line of path 0x0 of their own ASID and address: what the stream has read of them from the buffer it
goes on to read (R129). A line of another ASID or address with the same home stays as it is until an invalidation point (R126,
R147). -/
def patchL1 (go : List BufByte) (l : L1Line) : L1Line :=
  go.foldl (fun l e => if l.asid = e.asid ∧ l.tag = e.va / 128 ∧ l.home = e.pa / 128 then { l with data := l.data.set (e.pa % 128) e.byte } else l) l

/-- A byte that a later store of the same stream to the same place has overtaken on its way home: the stream's stores to one
place reach it in the order of their commits (R126, R150). -/
def overtaken (go : List BufByte) (e : BufByte) : Bool :=
  go.any (fun n => n.strm == e.strm && n.pa == e.pa)

/-- The buffered bytes that go home now, and those that stay: those marked for publication go that no incomplete job
covers; a byte that stays lies behind no later store of its own stream that goes. -/
def splitBuf (s : State) : List BufByte → List BufByte × List BufByte
  | [] => ([], [])
  | e :: r =>
    let (go, stay) := splitBuf s r
    if e.pub && !jobCovers s e.va then (e :: go, stay)
    else if overtaken go e then (go, stay)
    else (go, e :: stay)

/-- Buffered bytes written home in commit order: those marked for publication that no incomplete job covers. -/
def flushBuf (s : State) : State :=
  let (go, stay) := splitBuf s s.gv.wbuf
  let s := modGv s (fun g => { g with wbuf := stay, l1 := g.l1.map (patchL1 go) })
  let s := { s with ue := s.ue.filter (fun l => !(List.range 128).all (fun i => go.any (fun e => e.pa == 128 * l + i))) }
  go.foldl (fun s e => putByte s .dev e.pa e.byte) s

/-- The buffered bytes that p selects are marked for publication, and what no job covers goes home. -/
def publishAll (p : BufByte → Bool) (s : State) : State :=
  flushBuf (modGv s (fun g => { g with wbuf := g.wbuf.map (fun e => if p e then { e with pub := true } else e) }))

/-- Publication of the buffered bytes that p selects (R127). Where the bytes that a job holds back would be more drains than R117
permits, they are not drains yet: they are published when the limit, or the job, lets them go. -/
def publish (p : BufByte → Bool) (s : State) : State :=
  let t := publishAll p s
  if decide (drains (fun _ => true) s < drains (fun _ => true) t) && overDrained t then publishAll (fun e => p e && !jobCovers s e.va) s else t

/-- No byte selected by p is still buffered. -/
def published (p : BufByte → Bool) (s : State) : Bool := s.gv.wbuf.all (fun e => !p e)

/-- The buffered bytes that a fence or release of a stream publishes. -/
def ofStream (b : Bool) (e : BufByte) : Bool := e.strm == b && !e.prov

/-- The clean lines of path 0x0 dropped from the Grove's L1 (R130). -/
def dropPath0 (s : State) : State :=
  modGv s (fun g => { g with l1 := g.l1.filter (fun l => l.tag / 2 ^ 53 != 0) })

/-- The lines of path 0x1 dropped from the Grove's L1 (R116). -/
def dropPath1 (s : State) : State :=
  modGv s (fun g => { g with l1 := g.l1.filter (fun l => l.tag / 2 ^ 53 != 1) })

/-- A line of home dropped from the lines of path 0x0 in the Grove's L1 that were filled from it: an atomic drops them, and so
does a read of a newer value on another path (R129, R130). -/
def dropLine (line : Nat) (s : State) : State :=
  modGv s (fun g => { g with l1 := g.l1.filter (fun l => l.tag / 2 ^ 53 != 0 || l.home != line) })

/-- The lines of path 0x0 that were filled from a line of home through another ASID or address dropped: what is read of the line
now is newer than what they may hold (R129). -/
def dropOthers (keep : L1Line) (s : State) : State :=
  modGv s (fun g => { g with l1 := g.l1.filter (fun l => l.tag / 2 ^ 53 != 0 || l.home != keep.home || (l.asid == keep.asid && l.tag == keep.tag)) })

/-- An SHRES write of stream b is not performed yet (R186, R399). -/
def shresWaits (s : State) (b : Bool) : Bool := s.gv.shres.any (fun w => w.strm == b)

/-- A release: the stream's buffered stores are published; it waits while a job holds some of them back, and for the stream's SHRES
writes, which are performed after them (R138, R186). -/
def release (s : State) : Except (Stop State) State :=
  let p := ofStream s.sel
  let t := publish p s
  if published p t && !shresWaits s s.sel then .ok t else stallWith (publish p)

/-- An access at home that its op performs now overtakes the stream's older buffered bytes at its place that wait for a resolution or
a settlement: they do not go home after it (R150). -/
def overtakeBuf (pa n : Nat) (s : State) : State :=
  modGv s (fun g => { g with wbuf := g.wbuf.filter (fun e => !(e.strm == s.sel && decide (pa ≤ e.pa) && decide (e.pa < pa + n))) })

/-! ## The last cycle of an issue of two cycles (R234) -/

/-- The registers of the Grove that its streams share. -/
def groveRegs (g : Grove) : GroveRegs :=
  { strict := g.strict, slice := g.slice, sliceStart := g.sliceStart, ovrcnt := g.ovrcnt, dtrap := g.dtrap, debt := g.debt,
    debtcnt := g.debtcnt, hintdrop := g.hintdrop }

/-- Those registers written. -/
def putGroveRegs (r : GroveRegs) (g : Grove) : Grove :=
  { g with strict := r.strict, slice := r.slice, sliceStart := r.sliceStart, ovrcnt := r.ovrcnt, dtrap := r.dtrap, debt := r.debt,
           debtcnt := r.debtcnt, hintdrop := r.hintdrop }

/-- The machine as the other stream reads it: in the last cycle of an issue of two cycles the results of that issue are not there
yet. What changes memory, a queue, a launch or a handle acts on the machine as it is, in the order of the commits (R128, R234,
R236). -/
def seen (s : State) : State :=
  match s.late with
  | none => s
  | some d =>
    { s with
      mem := d.mem, hmem := d.hmem
      dev := d.dev
      st0 := if s.sel then d.st0 else s.st0, st1 := if s.sel then s.st1 else d.st1
      gv := putGroveRegs d.regs { s.gv with spad := d.spad, handles := d.handles, wbuf := d.wbuf, comp := d.comp, idle := d.idle,
                                            owner := d.owner, uentry := d.uentry } }

/-- A provisional task waits for its launch's resolution (R190). -/
def notProv (x : OpCtx) : Except (Stop State) Unit := waitFor (!(cur x.rd).prov)

end Sys2Proof.Machine
end

