-- ==== Sys2Proof/Machine/Regs.lean ====
section
/-!
DEFINITION. The control registers of MOVC and MOVS (R84 to R92, R48, R422 to R425, R451, R510, R511) and the device
windows of path 0x6 (R440, R441).
-/

namespace Sys2Proof.Machine

/-! ## Reading -/

/-- FLAGS, MXC and SEQSTAT as committed are the stream's fields. ARB (R48). -/
def arbWord (g : Grove) : Word :=
  BitVec.ofNat 64 (g.strict.toNat * 2 ^ 63 + g.primary.toNat * 2 ^ 62 + g.rptr * 2 ^ 48 + g.ovrcnt * 2 ^ 32 + g.slice)

/-- GROVEID (R92). -/
def groveId (g : Grove) (b : Bool) : Word :=
  BitVec.ofNat 64 (g.part * 2 ^ 24 + b.toNat * 2 ^ 22 + (if g.salvaged then 1 else 2) * 2 ^ 20 + g.id * 2 ^ 12 +
    gladeOf g.id * 2 ^ 8 + g.id / 16 * 2 ^ 4 + g.id % 16)

/-- PCTX (R423). -/
def pctx (s : State) (c : Stream) : Word :=
  BitVec.ofNat 64 (partOf s c * 2 ^ 24 + c.level * 2 ^ 12 + c.asid)

/-- CANOPY (R510). -/
def canopyWord (g : Grove) : Word :=
  BitVec.ofNat 64 (g.debt.toNat * 2 ^ 63 + g.dtrap.toNat * 2 ^ 62 + g.debtcnt * 2 ^ 32)

/-- THERM (R511). -/
def thermWord (s : State) : Word :=
  BitVec.ofNat 64 (rget 0 s.dev.colTemp (s.gv.id % 16) * 2 ^ 48 + s.gv.gap * 2 ^ 32 + s.gv.mcap * 2 ^ 30 + s.gv.capcyc)

/-- The bits of word k of a parameter set that are not reserved (R77): the others read zero (R7), and the set keeps them,
for PS_BAD (R82). -/
def psMask (k : Nat) : Word :=
  if k = 0 then 0xFFFFFFFFFFFFFFFF else if k = 1 then 0xFFFFF000FFFFFFFF else if k = 6 then 0xFFFFFFFFFF
  else if k = 7 then 0xFFFFFFFF0000 else 0xFFFFFFFFFFFFFF

/-- A control register by number, for the stream b; none where the number is unassigned (R84, R422). -/
def ctlRead (s : State) (b : Bool) (n : Nat) : Option Word :=
  let c := strm s b
  let p := partOf s c
  if n = 0 then some c.flags
  else if n = 1 then some c.mxc
  else if n = 2 then some c.fstat
  else if n = 3 then some c.portmap
  else if n = 4 then some c.seqstat
  else if n = 5 then some (arbWord s.gv)
  else if n = 6 then some (groveId s.gv b)
  else if 0x10 ≤ n && n ≤ 0x17 then some ((rget 0 c.lc (n - 0x10)).setWidth 64)
  else if n = 0x18 then some c.skipp
  else if 0x20 ≤ n && n ≤ 0x2F then some (rget 0 c.fmt (n - 0x20))
  else if 0x30 ≤ n && n ≤ 0x5F then some (rget 0 c.tdesc (n - 0x30))
  else if 0x60 ≤ n && n ≤ 0x67 then some (rget 0 c.mp (n - 0x60))
  else if 0x80 ≤ n && n ≤ 0xFF then some (rget 0 c.ps (n - 0x80) &&& psMask (n % 8))
  else if n = 0x800 then some (pctx s c)
  else if n = 0x801 then some (rget 0 s.dev.sysctl p)
  else if n = 0x802 then some (BitVec.ofNat 64 s.gv.hintdrop)
  else if n = 0x810 then some (canopyWord s.gv)
  else if n = 0x811 then some (thermWord s)
  else if n = 0x820 then some (rget 0 s.dev.ctxarea p)
  else none

/-- A level may read the register (R84, R422, R451). -/
def ctlMayRead (level n : Nat) : Bool := level != 0 || !(n == 0x801 || n == 0x820)

/-- A level may write the register (R84, R48, R422, R510, R511, R451). -/
def ctlMayWrite (level n : Nat) : Bool :=
  if n = 2 || n = 6 || n = 0x800 || n = 0x811 then false
  else if n = 5 || n = 0x801 || n = 0x802 || n = 0x810 || n = 0x820 then level != 0
  else true

/-! ## Writing -/

/-- The word of all ones. -/
def allOnes : Word := 0xFFFFFFFFFFFFFFFF

/-- The bits of the stream registers that are not reserved (R68, R70, R86, R87, R89, R90): the others read zero (R7). -/
def flagsMask : Word := 0x3F
def seqMask : Word := 0xFFFF000000000007
def portmapMask : Word := 0x8F8F8F8F8F8F8F8F
def fmtMask : Word := 0xFFFFE0
def tdescMask : Word := 0xFFFE1F
def fstatMask : Word := 0xFC00FFFF007F

/-- The thermal gap or the matrix cap acts on the Grove (R41, R509). -/
def capActs (g : Grove) : Bool := g.gap != 0 || g.mcap != 0

/-- The first element of a walk. -/
def Walk.start : Walk := {}

/-- PORTMAP written; the walk of every port whose field changes starts again (R81, R90). -/
def writePortmap (c : Stream) (v : Word) : Stream :=
  let w := v &&& portmapMask
  let ch := (List.range 8).filter (fun p => bits c.portmap.toNat (8 * p + 7) (8 * p) != bits w.toNat (8 * p + 7) (8 * p))
  { c with portmap := w, walk := ch.foldl rdel c.walk }

/-- PSn.Wk written; the walk of every port bound to PSn starts again (R81). -/
def writePs (c : Stream) (n k : Nat) (v : Word) : Stream :=
  let bd := (List.range 8).filter (fun p => bits c.portmap.toNat (8 * p + 3) (8 * p) == n)
  { c with ps := rset 0 c.ps (8 * n + k) v, walk := bd.foldl rdel c.walk }

/-- ARB written (R48, R43). -/
def writeArb (s : State) (v : Word) : State :=
  let x := v.toNat
  modGv s (fun g => { g with
    strict := bit x 63
    slice := max 256 (x % 2 ^ 16)
    sliceStart := s.now
    ovrcnt := if bit x 32 then 0 else g.ovrcnt })

/-- CANOPY written (R510). -/
def writeCanopy (s : State) (v : Word) : State :=
  let x := v.toNat
  modGv s (fun g => { g with
    dtrap := bit x 62
    debt := if bit x 32 then false else g.debt
    debtcnt := if bit x 32 then 0 else g.debtcnt })

/-- A control register written for the stream b (R269, R270); a number that no write reaches is unchanged. -/
def ctlWrite (s : State) (b : Bool) (n : Nat) (v : Word) : State :=
  let c := strm s b
  let p := partOf s c
  let put (c : Stream) : State := setStrm s b c
  if n = 0 then put { c with flags := v &&& flagsMask }
  else if n = 1 then put { c with mxc := v }
  else if n = 3 then put (writePortmap c v)
  else if n = 4 then put { c with seqstat := v &&& seqMask }
  else if n = 5 then writeArb s v
  else if 0x10 ≤ n && n ≤ 0x17 then put { c with lc := rset 0 c.lc (n - 0x10) (v.setWidth 32) }
  else if n = 0x18 then put { c with skipp := v }
  else if 0x20 ≤ n && n ≤ 0x2F then put { c with fmt := rset 0 c.fmt (n - 0x20) (v &&& fmtMask) }
  else if 0x30 ≤ n && n ≤ 0x5F then put { c with tdesc := rset 0 c.tdesc (n - 0x30) (v &&& tdescMask) }
  else if 0x60 ≤ n && n ≤ 0x67 then put { c with mp := rset 0 c.mp (n - 0x60) v }
  else if 0x80 ≤ n && n ≤ 0xFF then put (writePs c ((n - 0x80) / 8) ((n - 0x80) % 8) v)
  else if n = 0x801 then modDev s (fun d => { d with sysctl := rset 0 d.sysctl p (v &&& 3) })
  else if n = 0x802 then modGv s (fun g => { g with hintdrop := 0 })
  else if n = 0x810 then writeCanopy s v
  else if n = 0x820 then modDev s (fun d => { d with ctxarea := rset 0 d.ctxarea p (v &&& 0xFFFFFFFFFFF00FFF) })
  else s

/-! ## Device windows (R440, R441) -/

/-- A window access that is not permitted (R441). -/
def windowFault (a : Word) : Except (Stop State) α := faultWith .prot 6 a

/-- The status code of a stream (R459). -/
def statusCode : StrmStatus → Nat
  | .idle => 0 | .running => 1 | .stalled => 2 | .faulted => 3 | .saving => 4

/-- The Grove mirror word at an offset of a stream's half (R459). With no task in the stream the PC and the record words
read zero (notes/assumptions/75.md). -/
def mirrorWord (s : State) (b : Bool) (off : Nat) : Word :=
  let c := strm s b
  if off = 0 then c.fstat
  else if off = 8 then groveId s.gv b
  else if off = 0x10 then arbWord s.gv
  else if off = 0x18 then pctx s c
  else if off = 0x20 then BitVec.ofNat 64 s.gv.hintdrop
  else if off = 0x28 then BitVec.ofNat 64 (statusCode c.status)
  else if !hasTask c then 0
  else if off = 0x30 then c.pc
  else if off = 0x38 then c.r0
  else if off = 0x40 then c.r1
  else if off = 0x48 then c.r2
  else if off = 0x50 then c.r3
  else 0

/-- The mirror word at an offset of a stream's half of another Grove g, which is outside the model: what w holds, in the
fields of the word that g does not fix; reserved fields read zero (R7, R26, R48, R87, R92, R423, R425, R459). -/
def mirrorOther (part g : Nat) (b : Bool) (off : Nat) (w : Word) : Word :=
  if off = 0 then w &&& fstatMask
  else if off = 8 then
    BitVec.ofNat 64 (part * 2 ^ 24 + b.toNat * 2 ^ 22 + (if bit w.toNat 20 then 1 else 2) * 2 ^ 20 + g * 2 ^ 12 + gladeOf g * 2 ^ 8 + g / 16 * 2 ^ 4 + g % 16)
  else if off = 0x10 then w &&& 0xC0FFFFFF0000FFFF
  else if off = 0x18 then w &&& 0xF003FFF
  else if off = 0x20 then w &&& 0xFFFFFFFF
  else if off = 0x28 then BitVec.ofNat 64 (w.toNat % 5)
  else if off = 0x50 then w &&& 0xFFFFFFFFFFFFE000
  else if off ≤ 0x50 then w
  else 0

/-- The largest and least erase counts of a stack (R498). -/
def eraseMax (k : Stack) : Nat := k.erase.foldl (fun m e => max m e.2) 0
def eraseMin (k : Stack) : Nat :=
  if k.erase.length < 139264 then 0 else k.erase.foldl (fun m e => min m e.2) (eraseMax k)

/-- Blocks in a stack's free pool (R493). -/
def freeBlocks (k : Stack) : Nat := k.free.length + (139264 - k.freeFrom)

/-- The Orchard health word at an offset (R498). -/
def healthWord (k : Stack) (off : Nat) : Word :=
  BitVec.ofNat 64 (
    if off = 0 then k.stkfail.toNat * 2 ^ 63 + k.nospare.toNat * 2 ^ 62 +
      (decide (freeBlocks k < 256)).toNat * 2 ^ 61 + (k.relocs.any (fun r => r.stage != 0)).toNat * 2 ^ 60 +
      k.retired.length * 2 ^ 32 + freeBlocks k
    else if off = 8 then k.rdlim
    else if off = 0x10 then k.relrd * 2 ^ 48 + k.relecc * 2 ^ 32 + k.relue * 2 ^ 16 + k.relwl
    else if off = 0x18 then k.cecw * 2 ^ 32 + k.uepg
    else if off = 0x20 then min 0xFFFF (eraseMax k) * 2 ^ 16 + min 0xFFFF (eraseMin k)
    else if off = 0x28 then k.pread
    else if off = 0x30 then k.lastrel.toNat
    else if off = 0x38 then k.lastue
    else 0)

/-- The HBM4E counter word at an offset (R507). -/
def hbmWord (p : Pc) (off : Nat) : Word :=
  BitVec.ofNat 64 (
    if off = 0 then p.mat
    else if off = 8 then p.wen.toNat * 2 ^ 63 + p.wbank * 2 ^ 13 + p.wrow
    else if off = 0x10 then rget 0 p.mc (8192 * p.wbank + p.wrow) * 2 ^ 48 + p.wcnt
    else if off = 0x18 then p.actcnt
    else if off = 0x20 then p.rfmrows * 2 ^ 32 + p.mgmtcnt
    else if off = 0x28 then p.bocyc * 2 ^ 32 + p.bocnt
    else if off = 0x30 then p.crcerr * 2 ^ 32 + p.retrain * 2 ^ 16 + p.linkfail
    else if off = 0x38 then p.cecnt * 2 ^ 32 + p.uecnt * 2 ^ 16 + p.remapue
    else if off = 0x40 then (!p.poison.isEmpty).toNat * 2 ^ 63 + p.reloading.toNat * 2 ^ 62 +
      p.poison.length * 2 ^ 32 + p.remapdrop * 2 ^ 16 + p.reloads
    else 0)

/-- A store to the HBM4E counter window: WATCH is written, an RS word is cleared, every other word is unchanged. -/
def hbmStore (p : Pc) (off : Nat) (v : Nat) : Pc :=
  if off = 8 then { p with wen := bit v 63, wbank := bits v 17 13, wrow := bits v 12 0, wcnt := 0 }
  else if off = 0x18 then { p with actcnt := 0 }
  else if off = 0x20 then { p with rfmrows := 0, mgmtcnt := 0 }
  else if off = 0x28 then { p with bocyc := 0, bocnt := 0 }
  else if off = 0x30 then { p with crcerr := 0, retrain := 0, linkfail := 0 }
  else if off = 0x38 then { p with cecnt := 0, uecnt := 0, remapue := 0 }
  else p

/-- The thermal status word at an offset (R511). -/
def thermStatus (s : State) (off : Nat) : Word :=
  if off = 0x100 then BitVec.ofNat 64 (s.dev.tm * 2 ^ 8 + s.dev.tg)
  else if off < 128 then
    BitVec.ofNat 64 (rget 0 s.dev.colTemp (off / 8) * 2 ^ 48 + rget 0 s.dev.colGap (off / 8) * 2 ^ 32 +
      rget 0 s.dev.colMcap (off / 8) * 2 ^ 30)
  else 0

/-- A load of eight bytes from a device window by a task of the given level and partition. -/
def windowLoad (s : State) (level part a : Nat) : Except (Stop State) (Word × State) :=
  let off := lowOf a
  let w : Word := BitVec.ofNat 64 a
  if off < 0x20000 then
    if slotShare s part (off / 32) then .ok (rget 0 s.dev.slots (4 * (off / 32) + off % 32 / 8), s) else windowFault w
  else if 0x100000 ≤ off && off < 0x110000 then
    if level != 0 && asidShare s part ((off - 0x100000) / 16) then
      .ok (rget 0 s.dev.asidtab ((off - 0x100000) / 8), s)
    else windowFault w
  else if 0x200000 ≤ off && off < 0x300000 then
    let g := (off - 0x200000) / 4096
    if level = 0 || !gladeShare s part (gladeOf g) then windowFault w
    else if g = s.gv.id then .ok (mirrorWord s (off % 4096 / 2048 == 1) (off % 2048), s)
    else let (v, s) := takeFree s; .ok (mirrorOther part g (off % 4096 / 2048 == 1) (off % 2048) v, s)
  else if 0x400000 ≤ off && off < 0x410000 then
    if level = 0 then windowFault w
    else .ok (healthWord (rget {} s.dev.orstk ((off - 0x400000) / 0x2000)) ((off - 0x400000) % 0x2000), s)
  else if 0x500000 ≤ off && off < 0x540000 then
    if level = 0 then windowFault w
    else .ok (hbmWord (rget {} s.dev.hbm ((off - 0x500000) / 256)) ((off - 0x500000) % 256), s)
  else if 0x600000 ≤ off && off < 0x601000 then .ok (thermStatus s (off - 0x600000), s)
  else faultWith .pathFault 0 w

/-- The bits of the words of an ASID's entry that are not reserved (R426). -/
def asidMask (k : Nat) : Word := if k % 2 = 0 then 0x800FFFFFFFFFF000 else 0

/-- A store of eight bytes to a device window. -/
def windowStore (s : State) (level part a : Nat) (v : Word) : Except (Stop State) State :=
  let off := lowOf a
  let w : Word := BitVec.ofNat 64 a
  if off < 0x20000 then windowFault w
  else if 0x100000 ≤ off && off < 0x110000 then
    if level != 0 && asidShare s part ((off - 0x100000) / 16) then
      .ok (modDev s (fun d => { d with asidtab := rset 0 d.asidtab ((off - 0x100000) / 8) (v &&& asidMask ((off - 0x100000) / 8)) }))
    else windowFault w
  else if 0x200000 ≤ off && off < 0x300000 then
    let g := (off - 0x200000) / 4096
    if level = 0 || !gladeShare s part (gladeOf g) then windowFault w
    else if off % 2048 = 0x10 then .ok (if g = s.gv.id then writeArb s v else s)
    else if off % 2048 = 0x20 then .ok (if g = s.gv.id then modGv s (fun g => { g with hintdrop := 0 }) else s)
    else windowFault w
  else if 0x400000 ≤ off && off < 0x410000 then windowFault w
  else if 0x500000 ≤ off && off < 0x540000 then
    if level = 0 || bits (ptw s part 1) 9 0 = 0 then windowFault w
    else .ok (modDev s (fun d => { d with
      hbm := rmod {} d.hbm ((off - 0x500000) / 256) (fun p => hbmStore p ((off - 0x500000) % 256) v.toNat) }))
  else if 0x600000 ≤ off && off < 0x601000 then windowFault w
  else faultWith .pathFault 0 w

/-- A window access is one aligned 8-byte access (R440). -/
def windowShape (a n : Nat) : Except (Stop State) Unit :=
  need (n == 8 && a % 8 == 0) .misaligned 0 (BitVec.ofNat 64 a)

end Sys2Proof.Machine
end

