-- ==== Sys2Proof/Machine/Access.lean ====
section
/-!
DEFINITION. Loads, stores and atomics on every path (R111 to R113, R121 to R131, R136, R147, R150, R285 to R296): the
L1 and its possible staleness, the phase write buffer, the layout-converted view, host memory and the device windows.
-/

namespace Sys2Proof.Machine

/-! ## The layout-converted view (R112) -/

/-- The source element of view element q, for W elements a row. -/
def viewIndex (conv q W : Nat) : Nat :=
  if conv = 0 then q
  else if conv = 1 then q % 32 * W + q / 32
  else if conv = 2 then
    let r := q / (4 * W)
    let c := q % (4 * W)
    (8 * (c / W) + r) * W + c % W
  else
    let r := q / 8
    let c := q % 8
    r % 32 * W + 8 * (r / 32) + c

/-- The home address of a byte of the view, where pa is the translated address of the view byte itself. -/
def viewSource (a pa : Nat) : Nat :=
  let sz := if bit a 57 then 1 else 2
  let W := if bit a 57 then 64 else 32
  let o := a % 2048
  (pa - pa % 2048) + sz * viewIndex (bits a 59 58) (o / sz) W + o % sz

/-! ## Loads -/

/-- The buffered byte that a stream sees at an address: the latest one visible to it (R126, R129). -/
def bufSeen (s : State) (c : Stream) (low : Nat) : Option Byte :=
  s.gv.wbuf.foldl (fun r e => if e.asid == c.asid && e.va == low && (e.task == c.task || !e.prov) then some e.byte else r) none

/-- Loaded bytes, whether one of them met an uncorrectable error, and the state with caches filled. -/
abbrev Loaded := List Byte × Bool × State

/-- The size of the page that the TLB holds for an address (R428, R432). -/
def pageSize (s : State) (asid a : Nat) : Nat :=
  match s.dev.tlb.find? (fun e => e.asid == asid && e.page * 65536 / e.size == lowOf a / e.size) with
  | some e => e.size
  | none => 65536

/-- The lines that an L1 of 128 KiB holds (R16, R114). -/
def l1Lines : Nat := 1024

/-- A line filled into the L1, which gives up one of its lines where it is full. -/
def putLine (line : L1Line) (s : State) : State :=
  if s.gv.l1.length < l1Lines then modGv s (fun g => { g with l1 := line :: g.l1 })
  else modGv { s with free := s.free + 1 } (fun g => { g with l1 := line :: g.l1.eraseIdx (Config.l1Victim s.free % l1Lines) })

/-- The line of an address of an ASID, as it is filled from its home. -/
def lineOf (s : State) (asid a : Nat) (sp : Space) (pa : Nat) : L1Line :=
  { asid := asid, tag := a / 128, data := homeBytes s sp (pa - pa % 128) 128, size := pageSize s asid a, home := pa / 128 }

/-- A load of k bytes of one line on paths 0x0 and 0x1: from a line that L1 still holds, else translated, checked and
filled from home (R114, R129, R427, R432). A line that is read in the L1 leaves no other there with its home. A line marked
uncorrectable is lost here; a bank or channel that reads nothing loses it when the request is served (R502, R506). -/
def loadCached (k : AKind) (a n : Nat) (s : State) : Except (Stop State) Loaded :=
  let c := cur s
  let tag := a / 128
  let fill (s : State) : Except (Stop State) Loaded := do
    let s := modGv s (fun g => { g with l1 := g.l1.filter (fun l => !(l.asid == c.asid && l.tag == tag)) })
    let ((sp, pa, uc), s) ← xlateOp k a s
    let bs := homeBytes (seen s) sp pa n
    let t := askThrough (!uc) sp pa (dropLine (pa / 128) s)
    if uc || ueIn s sp pa n then return (bs, lineUe s sp pa n, t) else return (bs, false, putLine (lineOf (seen t) c.asid a sp pa) t)
  match s.gv.l1.find? (fun l => l.asid == c.asid && l.tag == tag) with
  | some l =>
    let (keep, s) := takeKeep Config.l1Keeps s
    if keep then .ok ((l.data.drop (a % 128)).take n, false, if tag / 2 ^ 53 = 0 then dropOthers l s else s) else fill s
  | none => fill s

/-- A load of n bytes inside one line, on a path other than 0x6. On path 0x3 the whole source tile is fetched (R501). A path 0x0
line of the L1 filled from a line that is read here is dropped, so that no later load reads an older value (R129). -/
def loadSeg (k : AKind) (a n : Nat) (s : State) : Except (Stop State) Loaded := do
  let p := pathOf a
  if p ≤ 1 then loadCached k a n s
  else
    let ((sp, pa, _), s) ← xlateOp k a s
    if p = 3 then
      let srcs := (List.range n).map (fun i => viewSource (a + i) (pa + i))
      let want := (srcs.map (fun q => q / 128)).eraseDups
      return (srcs.map (devByte (seen s)), srcs.any (fun q => lineUe s .dev q 1),
        askLines false (pa / 2048 * 16) 16 want (want.foldl (fun s l => dropLine l s) s))
    else return (homeBytes (seen s) sp pa n, lineUe s sp pa n, askHome sp pa (if sp = .dev then dropLine (pa / 128) s else s))

/-- Loads of consecutive segments. -/
def loadSegs (k : AKind) : List (Nat × Nat) → State → Except (Stop State) Loaded
  | [], s => .ok ([], false, s)
  | (a, n) :: r, s => do
    let (b, u, s) ← loadSeg k a n s
    let (bs, us, s) ← loadSegs k r s
    return (b ++ bs, u || us, s)

/-- A provisional task waits before an access on path 0x6 and before a store on path 0x2 or 0x5 (R190). -/
def provWait (c : Stream) (k : AKind) (a : Nat) : Except (Stop State) Unit :=
  waitFor (!(c.prov && (pathOf a == 6 || (k == .st && (pathOf a == 2 || pathOf a == 5)))))

/-- An access of the Grove to the pseudo-channel of the HBM4E counter word at a has its value but is not counted yet: a load of
the counters is performed after it (R514). -/
def countsDue (s : State) (a : Nat) : Bool :=
  let k := (lowOf a - 0x500000) / 256
  decide (0x500000 ≤ lowOf a) && decide (lowOf a < 0x540000) &&
  (s.asked.any (fun q => q.n != 0 && (let p := hbmPlace (128 * q.line); 128 * p.1 + p.2.1 == k)) ||
   (rget {} s.dev.hbm k).wait.any (fun q => q.own) || (match (rget {} s.dev.hbm k).replay with | some q => q.own | none => false))

/-- A load whose bytes all come from buffered stores needs nothing from home: the state after it, without its requests since
state s. -/
def unask (s t : State) : State :=
  modGv { t with reqs := s.reqs, asked := t.asked.filter (fun q => decide (q.id ≤ s.reqs)) } (fun g => { g with l1 := s.gv.l1 })

/-- A load of n bytes at a by the acting stream, checked by R113, R431 and R440; on path 0x0 the buffered stores that
the stream sees lie over the bytes of home (R129). Its value is fixed here: two loads of a stream are performed in the
order of their issue, where R125 orders only accesses to the same bytes. DESIGN CHOICE: notes/assumptions/65.md. -/
def loadBytes (a n : Nat) (s : State) : Except (Stop State) Loaded := do
  let c := cur s
  provWait c .ld a
  addrCheck .ld a n
  if pathOf a = 6 then
    windowShape a n
    let (v, t) ← windowLoad (seen s) c.level (partOf s c) a
    waitFor (!countsDue s a)
    return (natLe 8 v.toNat, false, { s with free := t.free })
  else
    let (bs, ue, t) ← loadSegs .ld (segsOf a n) s
    if pathOf a = 0 then
      let buf := (List.range n).map (fun i => bufSeen (seen t) c (lowOf a + i))
      let out := (bs.zip buf).map (fun x => x.2.getD x.1)
      if buf.all (fun x => x.isSome) then return (out, false, unask s t) else return (out, ue, t)
    else return (bs, ue, t)

/-! ## Results that land after the commit (R286) -/

/-- A result on its way to the acting stream, which waits for the requests made since state s0; the op stalls where they
would exceed a limit (R117, R286). -/
def addPend (s0 s : State) (p : Pending) : Except (Stop State) State := do
  waitFor (!tooMany s (s.reqs - s0.reqs))
  return modCur s (fun c => { c with pend := c.pend ++ [{ p with asks := asksSince s0 s }] })

/-- Requests for which no result waits are outstanding; the op stalls where they would exceed a limit (R117). -/
def keepLoose (rs : List (List Nat)) (s : State) : Except (Stop State) State := do
  waitFor (!tooMany s rs.length)
  return if rs.isEmpty then s else modCur s (fun c => { c with loose := c.loose.filter (fun r => !r.all (askServed s)) ++ rs })

/-- The accesses made since state s0, for which no result waits, are requests of their own: uncached stores, reads at home whose line a
cache holds (R117). -/
def keepAsks (s0 s : State) : Except (Stop State) State :=
  keepLoose (((asksSince s0 s).filter (fun id => !askServed s id)).map (fun id => [id])) s

/-- The accesses made since state s0 to refill a port by one vector are one request (R117; DEDUCED, notes/assumptions/87.md). -/
def keepRefill (s0 s : State) : Except (Stop State) State :=
  let ids := (asksSince s0 s).filter (fun id => !askServed s id)
  keepLoose (if ids.isEmpty then [] else [ids]) s

/-- A G register result on its way; a lost one leaves its mark when it lands (R444). -/
def pendG (s0 s : State) (d : Reg) (v : Word) (ue : Bool) (a : Nat) (flags : Word := 0) : Except (Stop State) State :=
  addPend s0 s { gdst := if d = 0 then [] else [(d.toNat, v)], ue := ue, addr := BitVec.ofNat 64 a,
                  accs := [a], flags := flags }

/-! ## Stores -/

/-- The linear index of the tile of a task: x + gx × (y + gy × z) (R21). -/
def tileOf (s : State) (c : Stream) : Nat :=
  let l := launchOf s c.launch
  let gx := l.gx
  let gy := bits (opWord l 1) 31 16
  let w1 := c.r1.toNat
  bits w1 15 0 + gx * (bits w1 31 16 + gy * bits c.r2.toNat 63 48)

/-- Bytes that enter the phase write buffer at one translated address (R126). -/
def bufBytes (s : State) (c : Stream) (low pa : Nat) : List Byte → List BufByte
  | [] => []
  | b :: r =>
    { strm := s.sel, launch := c.launch, task := c.task, asid := c.asid, va := low, pa := pa, byte := b, prov := c.prov,
      tile := tileOf s c } :: bufBytes s c (low + 1) (pa + 1) r

/-- A store inside one line: buffered on path 0x0, performed at home on paths 0x2 and 0x5, an uncached access (R117, R126,
R131). -/
def storeSeg (a : Nat) (bs : List Byte) (s : State) : Except (Stop State) State := do
  let c := cur s
  let ((sp, pa, _), s) ← xlateOp .st a s
  if pathOf a = 0 then return modGv s (fun g => { g with wbuf := g.wbuf ++ bufBytes s c (lowOf a) pa bs })
  else return askOther (putBytes s sp pa bs)

/-- Stores of consecutive segments. -/
def storeSegs : List (Nat × Nat) → List Byte → State → Except (Stop State) State
  | [], _, s => .ok s
  | (a, n) :: r, bs, s => do
    let s ← storeSeg a (bs.take n) s
    storeSegs r (bs.drop n) s

/-- A store of bytes at a by the acting stream (R290). -/
def storeBytes (a : Nat) (bs : List Byte) (s : State) : Except (Stop State) State := do
  let c := cur s
  provWait c .st a
  addrCheck .st a bs.length
  if pathOf a = 6 then
    windowShape a bs.length
    windowStore s c.level (partOf s c) a (leW bs)
  else
    let t ← storeSegs (segsOf a bs.length) bs s
    keepAsks s t

/-! ## Accesses at home -/

/-- An address aligned to n bytes. -/
def alignedTo (n a : Nat) : Except (Stop State) Unit := need (a % n == 0) .misaligned 0 (BitVec.ofNat 64 a)

/-- The home of n device bytes for an op that takes paths 0x0 and 0x2 alone: aligned, translated for the kind of access;
the other paths raise PATH_USE after the cases of R113 (R113, R277, R305, R306, R399, R458). -/
def homeOf02 (k : AKind) (n a : Nat) (s : State) : Except (Stop State) (Nat × State) := do
  let w : Word := BitVec.ofNat 64 a
  alignedTo n a
  addrCheck .ld a n
  need (pathOf a != 6) .pathUse 0 w
  let ((_, pa, _), s) ← xlateOp k a s
  need (pathOf a == 0 || pathOf a == 2) .pathUse 0 w
  return (pa, s)

/-- The home of a counter (R305, R306). -/
def counterHome (k : AKind) (a : Nat) (s : State) : Except (Stop State) (Nat × State) := homeOf02 k 8 a s

/-- The counter after a completion with increment n (R144). -/
def counterAdd (c : Word) (n : Nat) (poison : Bool) : Word :=
  BitVec.ofNat 64 ((c.toNat % 2 ^ 63 + n) % 2 ^ 63 + (if poison || bit c.toNat 63 then 2 ^ 63 else 0))

/-- An atomic's access at home (R136, R294, R296): the old value of n bytes is given to f, which answers the value to
write, if any. Host atomics are only those that PCI Express has. The Grove's buffered bytes of the line are published and
its L1 line is dropped first (R127, R130); it is performed when its line is at hand, and not where the line is uncorrectable (R296,
R444). On path 0x0 a value that it writes overtakes the stream's older buffered bytes there (R150). Answers the old value, whether
it was lost, and the state. -/
def atomicAt (n : Nat) (hostOk : Bool) (a : Nat) (f : Nat → Option Nat) (s : State) :
    Except (Stop State) (Nat × Bool × State) := do
  let c := cur s
  let w : Word := BitVec.ofNat 64 a
  waitFor (!c.prov)
  alignedTo n a
  addrCheck .amo a n
  need (pathOf a != 6) .pathUse 0 w
  let ((sp, pa, _), s) ← xlateOp .amo a s
  need (pathOf a != 5 || hostOk) .pathUse 0 w
  let mine (e : BufByte) : Bool := sp == .dev && !e.prov && e.pa / 128 == pa / 128
  let s := publish mine s
  if !published mine s then stallWith (publish mine)
  else
    let (lost, s) ← inHand false s (askHome sp pa (if sp = .dev then dropLine (pa / 128) s else s))
    if lost || lineUe s sp pa n then return (0, true, s)
    else
      let old := homeNat s sp pa n
      match f old with
      | some v => return (old, false, putBytes (if pathOf a = 0 then overtakeBuf pa n s else s) sp pa (natLe n v))
      | none => return (old, false, s)

end Sys2Proof.Machine
end

