-- ==== Sys2Proof/Machine/Operands.lean ====
section
/-!
DEFINITION. Operand forms: tile handle storage (R94 to R99), MRF operands in their four directions (R64 to R67), the
task's MRF window (R37), stream ports (R76 to R82), tile descriptors and formats (R68 to R71).
-/

namespace Sys2Proof.Machine

/-! ## Tile handles (R94 to R97) -/

/-- The storage width in bits of a handle's units (R94). -/
def wcodeStore (w : Nat) : Nat := if w ≤ 4 then 4 else if w ≤ 8 then 8 else if w = 9 then 16 else 32

/-- The element width in bits of a handle's units. -/
def wcodeWidth (w : Nat) : Nat := if w ≤ 8 then w else if w = 9 then 16 else 32

/-- The number of units of a shape word. -/
def shapeUnits (sh : Word) : Nat :=
  let x := sh.toNat
  bits x 15 0 * bits x 31 16 * bits x 47 32 * bits x 63 48

/-- Packed bytes of a handle. -/
def handleBytes (h : Handle) : Nat := cdiv (shapeUnits h.shape * wcodeStore h.wcode) 8

/-- The units that the granules of a SPAD handle have room for; those beyond the shape read zero through ports (R95). -/
def storageUnits (h : Handle) : Nat := 8 * 2048 * h.parts.length / wcodeStore h.wcode

/-- A handle of the Grove. -/
def handleOf (s : State) (n : Nat) : Handle := rget {} s.gv.handles n

/-- The task of stream c may use the handle (R97). -/
def usable (h : Handle) (c : Stream) : Bool :=
  h.alloc && !h.freed && (if h.launchLife then h.launch == c.launch else h.task == c.task)

/-- The key of byte o of a handle in its storage: scratchpad granules, or canopy rows (R95, R96). -/
def spadKey (h : Handle) (o : Nat) : Nat := 2048 * h.parts.getD (o / 2048) 0 + o % 2048

/-- The key of byte o of row r of canopy bank b. -/
def canopyKey (b r o : Nat) : Nat := (512 * b + r) * 8192 + o

/-- The bank and row of ordinal j (R96). -/
def ordinalPlace (fbank : Nat) (parts : List Nat) (j : Nat) : Nat × Nat := ((fbank + j) % 32, parts.getD j 0)

/-- One byte of a SPAD handle. -/
def handleByte (s : State) (h : Handle) (o : Nat) : Byte := rget 0 s.gv.spad (spadKey h o)

/-- One byte of a SPAD handle written. -/
def putHandleByte (s : State) (h : Handle) (o : Nat) (b : Byte) : State :=
  modGv s (fun g => { g with spad := rset 0 g.spad (spadKey h o) b })

/-- n bytes of a SPAD handle. -/
def handleRange (s : State) (h : Handle) (o : Nat) : Nat → List Byte
  | 0 => []
  | n + 1 => handleByte s h o :: handleRange s h (o + 1) n

/-- Bytes of a SPAD handle written from o. -/
def putHandleRange (s : State) (h : Handle) (o : Nat) : List Byte → State
  | [] => s
  | b :: r => putHandleRange (putHandleByte s h o b) h (o + 1) r

/-- Unit e of storage width w in a byte string read by f (R67, R94). -/
def unitOf (w : Nat) (f : Nat → Byte) (e : Nat) : Nat :=
  if w = 4 then (f (e / 2)).toNat / 16 ^ (e % 2) % 16
  else if w = 8 then (f e).toNat
  else if w = 16 then (f (2 * e)).toNat + 256 * (f (2 * e + 1)).toNat
  else leNat [f (4 * e), f (4 * e + 1), f (4 * e + 2), f (4 * e + 3)]

/-- Unit e of a SPAD handle, the unused upper bits of a narrow unit ignored (R67). -/
def handleUnit (s : State) (h : Handle) (e : Nat) : Nat :=
  unitOf (wcodeStore h.wcode) (handleByte s h) e % 2 ^ wcodeWidth h.wcode

/-- Unit e of a SPAD handle of width 16 or 32 written. -/
def putHandleUnit (s : State) (h : Handle) (e v : Nat) : State :=
  let n := wcodeStore h.wcode / 8
  putHandleRange s h (n * e) (natLe n v)

/-! ## Elements of a vector (R67) -/

/-- The elements of storage width w in lanes. -/
def unpack (w : Nat) (ls : List Lane) : List Nat :=
  ls.flatMap (fun l => (List.range (32 / w)).map (fun k => l.toNat / 2 ^ (w * k) % 2 ^ w))

/-- One lane from its elements. -/
def packLane (w : Nat) (vs : List Nat) : Lane := BitVec.ofNat 32 (vs.foldr (fun v a => v % 2 ^ w + 2 ^ w * a) 0)

/-- Lanes from elements of storage width w. -/
def packN (w : Nat) : Nat → List Nat → List Lane
  | 0, _ => []
  | n + 1, vs => packLane w (vs.take (32 / w)) :: packN w n (vs.drop (32 / w))

/-- The 32 lanes of a vector. -/
def pack (w : Nat) (vs : List Nat) : List Lane := packN w 32 vs

/-- The 128 bytes of a vector. -/
def laneBytes (ls : List Lane) : List Byte := ls.flatMap (fun l => natLe 4 l.toNat)

/-- The lanes in a byte string, n of them. -/
def bytesLanes : Nat → List Byte → List Lane
  | 0, _ => []
  | n + 1, bs => BitVec.ofNat 32 (leNat (bs.take 4)) :: bytesLanes n (bs.drop 4)

/-! ## The window and MRF operands -/

/-- The record fields of a task's window (R26). -/
def noWin (c : Stream) : Bool := bit c.r3.toNat 13
def mwBase (c : Stream) : Nat := bits c.r3.toNat 25 20
def mwLim (c : Stream) : Nat := bits c.r3.toNat 19 14

/-- The tile lies in the task's window (R37). -/
def tileIn (c : Stream) (t : Nat) : Bool := !noWin c && decide (mwBase c ≤ t) && decide (t ≤ mwLim c)

/-- The index of an operand after its step (R226). -/
def stepIdx (m : Mrf) (j : Nat) (step : Bool) : Nat := mrfIdx m + (if step then j else 0)

/-- The check of a row, column or diagonal index (R65, R226). -/
def idxCheck (c : Stream) (idx : Nat) : Except (Stop State) Unit :=
  need (decide (idx ≤ 1535) && tileIn c (idx / 32)) .mrfWindow

/-- The (row, lane) that holds lane k of an operand of a direction and index (R65). -/
def place (dir idx k : Nat) : Nat × Nat :=
  if dir = 0 then (idx, k)
  else if dir = 1 then (idx - idx % 32 + k, idx % 32)
  else (idx - idx % 32 + k, (k + idx % 32) % 32)

/-- The lanes of a row, column or diagonal. -/
def mrfVec (s : State) (dir idx : Nat) : List Lane :=
  (List.range 32).map (fun k => let p := place dir idx k; mrfLane s p.1 p.2)

/-- One lane of a row, column or diagonal written. -/
def putVecLane (s : State) (dir idx k : Nat) (v : Lane) : State :=
  let p := place dir idx k
  setLane s p.1 p.2 v

/-- The given lanes of a row, column or diagonal written. -/
def putVec (s : State) (dir idx : Nat) (vs : List (Nat × Lane)) : State :=
  vs.foldl (fun s x => putVecLane s dir idx x.1 x.2) s

/-! ## Stream ports (R76 to R82) -/

/-- Word k of parameter set n. -/
def psWord (c : Stream) (n k : Nat) : Nat := (rget 0 c.ps (8 * n + k)).toNat

/-- CNTk and STRIDEk. -/
def psCnt (c : Stream) (n k : Nat) : Nat := bits (psWord c n (2 + k)) 39 24
def psStride (c : Stream) (n k : Nat) : Int := sextI (psWord c n (2 + k)) 24

/-- Fields of W1. -/
def psFlat (c : Stream) (n : Nat) : Bool := bit (psWord c n 1) 63
def psWe (c : Stream) (n : Nat) : Bool := bit (psWord c n 1) 62
def psEw (c : Stream) (n : Nat) : Nat := bits (psWord c n 1) 61 56
def psVcl (c : Stream) (n : Nat) : Nat := bits (psWord c n 1) 55 53
def psWpos (c : Stream) (n : Nat) : Nat := bits (psWord c n 1) 52 50
def psOyl (c : Stream) (n : Nat) : Nat := bits (psWord c n 1) 49 47
def psOxl (c : Stream) (n : Nat) : Nat := bits (psWord c n 1) 46 44
/-- Byte fields [55:48] and [47:40] of W2 to W5. -/
def psHi (c : Stream) (n k : Nat) : Nat := bits (psWord c n k) 55 48
def psLo (c : Stream) (n k : Nat) : Nat := bits (psWord c n k) 47 40

/-- The storage width of a port's elements. -/
def psStore (c : Stream) (n : Nat) : Nat :=
  let w := psEw c n
  if w ≤ 4 then 4 else if w ≤ 8 then 8 else w

/-- The parameter set is legal (R82, PS_BAD). -/
def psOk (c : Stream) (n : Nat) : Bool :=
  let we := psWe c n
  let ew := psEw c n
  (List.range 5).all (fun k => psCnt c n k != 0) &&
  ((decide (1 ≤ ew) && decide (ew ≤ 8)) || ew == 16 || ew == 32) &&
  (if we then
    [2, 3, 4].all (fun k => psHi c n k != 0 && psLo c n k != 0) && psOyl c n != psOxl c n && decide (psOyl c n ≤ 4) &&
    decide (psOxl c n ≤ 4) && decide (psWpos c n ≤ 5) && bits (psWord c n 7) 63 48 == 0 && bits (psWord c n 7) 15 0 == 0
   else decide (psVcl c n ≤ 4) || psVcl c n == 7) &&
  (psFlat c n || bits (psWord c n 0) 63 48 == 0) &&
  bits (psWord c n 1) 43 32 == 0 && [2, 3, 4, 5].all (fun k => bits (psWord c n k) 63 56 == 0) &&
  bits (psWord c n 6) 63 40 == 0

/-- The walk positions from innermost to outermost (R78): 0 to 4 the loop levels, 5 KX, 6 KY. -/
def walkOrder (c : Stream) (n : Nat) : List Nat :=
  if psWe c n then (List.range 5).take (psWpos c n) ++ [5, 6] ++ (List.range 5).drop (psWpos c n)
  else List.range 5

/-- The extent of a walk position. -/
def walkExtent (c : Stream) (n q : Nat) : Nat := if q = 5 then psHi c n 2 else if q = 6 then psLo c n 2 else psCnt c n q

/-- The index of a walk position. -/
def walkGet (w : Walk) (q : Nat) : Nat := if q = 5 then w.kx else if q = 6 then w.ky else w.idx.getD q 0

/-- The index of a walk position set. -/
def walkSet (w : Walk) (q v : Nat) : Walk :=
  if q = 5 then { w with kx := v } else if q = 6 then { w with ky := v } else { w with idx := w.idx.set q v }

/-- The walk moved on by one element: the positions counted as an odometer. Answers the walk and how many positions,
from the innermost, completed their pass. -/
def walkNext (c : Stream) (n : Nat) : List Nat → Walk → Walk × Nat
  | [], w => ({ w with ended := true }, 0)
  | q :: r, w =>
    if walkGet w q + 1 < walkExtent c n q then (walkSet w q (walkGet w q + 1), 0)
    else
      let (w, k) := walkNext c n r (walkSet w q 0)
      (w, k + 1)

/-- The storage index of the element at a walk position, or none where FILL stands (R79). -/
def elemIndex (c : Stream) (n : Nat) (w : Walk) : Option Int :=
  let off : Int := if psFlat c n then 0 else bits (psWord c n 0) 47 8
  let term (k : Nat) : Int := (w.idx.getD k 0 : Int) * psStride c n k
  if !psWe c n then some (off + ((List.range 5).map term).sum)
  else
    let oy := psOyl c n
    let ox := psOxl c n
    let y : Int := (w.idx.getD oy 0 * psLo c n 3 + w.ky * psLo c n 4 : Nat) - (psLo c n 5 : Int)
    let x : Int := (w.idx.getD ox 0 * psHi c n 3 + w.kx * psHi c n 4 : Nat) - (psHi c n 5 : Int)
    if y < 0 || y ≥ bits (psWord c n 7) 47 32 || x < 0 || x ≥ bits (psWord c n 7) 31 16 then none
    else some (off + y * psStride c n oy + x * psStride c n ox +
      (((List.range 5).filter (fun k => k != oy && k != ox)).map term).sum)

/-- One element of a port's storage (R79, R82), and its address where it is uncorrectable. -/
def portElem (c : Stream) (n : Nat) (e : Int) (s : State) : Except (Stop State) (Nat × Option Nat × State) := do
  let st := psStore c n
  if psFlat c n then
    let base := BitVec.ofNat 64 (psWord c n 0)
    let (off, len) : Int × Nat := if st = 4 then (e / 2, 1) else (e * (st / 8 : Nat), st / 8)
    let a ← effAddr base off
    let (bs, ue, t) ← loadBytes a len s
    let v := leNat bs
    return ((if st = 4 then v / 16 ^ (e % 2).toNat % 16 else v) % 2 ^ psEw c n, if ue || metLost s t then some a else none, t)
  else
    let h := handleOf (seen s) (bits (psWord c n 0) 7 0)
    if e < 0 || e.toNat ≥ storageUnits h then faultWith .tileRange
    else return (if e.toNat < shapeUnits h.shape then handleUnit (seen s) h e.toNat else 0, none, s)

/-- The elements of one vector from a walk position (R78), and the address of the first that is uncorrectable; fuel is the vector's
capacity. -/
def portFill (c : Stream) (n : Nat) : Nat → Walk → State → Except (Stop State) (List Nat × Option Nat × Walk × State)
  | 0, w, s => .ok ([], none, w, s)
  | fuel + 1, w, s => do
    let (v, ue, s) ← match elemIndex c n w with
      | none => pure (bits (psWord c n 1) 31 0 % 2 ^ psStore c n, none, s)
      | some e => portElem c n e s
    let (w, k) := walkNext c n (walkOrder c n) w
    if w.ended || (psVcl c n != 7 && k > psVcl c n) then return ([v], ue, w, s)
    else
      let (vs, lost, w, s) ← portFill c n fuel w s
      return (v :: vs, ue.orElse (fun _ => lost), w, s)

/-- A pop or peek of a port: the vector, and the state with the walk moved on after a pop (R76, R78, R80, R82). A MODE 1 port's
op issues when the vector's lines are at hand, an uncorrectable one is its MEM_UE (R82, R444), and the refill is one request (R117).
The walk read is that of the issue so far; the parameter set is that of the state before the issue. A walk that has ended is reported
before a handle that is not usable, and so is PORT_EXHAUSTED before TILE_RANGE (DESIGN CHOICE, notes/assumptions/63.md). -/
def portRead (x : OpCtx) (idx : Nat) (s : State) : Except (Stop State) (List Lane × State) := do
  let c := cur x.rd
  let p := idx % 8
  let pop := bit idx 3
  let b := bits c.portmap.toNat (8 * p + 7) (8 * p)
  let n := b % 16
  need (bit b 7) .portUnbound
  need (psOk c n) .psBad
  let w := rget {} (cur s).walk p
  need (!w.ended) .portExhausted
  if !psFlat c n then
    let h := handleOf (seen s) (bits (psWord c n 0) 7 0)
    need (usable h c && !h.canopy && wcodeWidth h.wcode == psEw c n) .tileRange
  let (vs, ue, w, t) ← portFill c n (1024 / psStore c n) w s
  let (_, t) ← inHand true s t
  match ue with
  | some a => faultWith .memUe 0 (BitVec.ofNat 64 a)
  | none => pure ()
  let s ← keepRefill s t
  let s := if pop then modCur s (fun c => { c with walk := rset {} c.walk p w }) else s
  return (pack (psStore c n) vs, s)

/-- The port that an operand names is bound (R81). -/
def portBound (c : Stream) (m : Mrf) : Bool := bit (bits c.portmap.toNat (8 * (mrfIdx m % 8) + 7) (8 * (mrfIdx m % 8))) 7

/-- The element width of the port that an operand names. -/
def portEw (c : Stream) (m : Mrf) : Nat := psEw c (bits c.portmap.toNat (8 * (mrfIdx m % 8) + 7) (8 * (mrfIdx m % 8)) % 16)

/-- The parameter set that an operand's port is bound to is legal: a port not enabled and a bad set come before any test
of its element width (R82). -/
def portLegal (c : Stream) (m : Mrf) : Except (Stop State) Unit := do
  need (portBound c m) .portUnbound
  need (psOk c (bits c.portmap.toNat (8 * (mrfIdx m % 8) + 7) (8 * (mrfIdx m % 8)) % 16)) .psBad

/-- A port of narrow elements has the width of the format that the op expects (R82). -/
def portExpects (c : Stream) (m : Mrf) (w : Nat) : Except (Stop State) Unit :=
  need (!isPort m || decide (8 < portEw c m) || portEw c m == w) .fmtInvalid

/-- The format check of a port that an op reads, made before it is read, so that FMT_INVALID comes before what the read itself would
raise (R82, R333; DESIGN CHOICE, notes/assumptions/63.md). -/
def portFormat (c : Stream) (m : Mrf) (w : Nat) : Except (Stop State) Unit :=
  if isPort m then do
    portLegal c m
    portExpects c m w
  else .ok ()

/-! ## Reading and writing an operand -/

/-- The 32 lanes of a source operand at step count j (R65, R226, R231). -/
def readOpnd (x : OpCtx) (m : Mrf) (step : Bool) (s : State) : Except (Stop State) (List Lane × State) :=
  if isPort m then portRead x (mrfIdx m) s
  else do
    idxCheck (cur x.rd) (stepIdx m x.j step)
    return (mrfVec x.rd (mrfDir m) (stepIdx m x.j step), s)

/-- The check of a destination operand; its old lanes are those before the issue. -/
def destOpnd (x : OpCtx) (m : Mrf) (step : Bool) : Except (Stop State) (Nat × Nat) := do
  idxCheck (cur x.rd) (stepIdx m x.j step)
  return (mrfDir m, stepIdx m x.j step)

/-- All 32 lanes of a destination written. -/
def putAll (s : State) (d : Nat × Nat) (ls : List Lane) : State :=
  putVec s d.1 d.2 ((List.range 32).zip ls)

/-! ## Tile descriptors and formats (R68 to R71) -/

/-- A format register of the acting stream. -/
def fmtReg (c : Stream) (n : Nat) : Word := rget 0 c.fmt n

/-- The format named by a code below 16 is valid (R71). -/
def fmtCheck (c : Stream) (t : Nat) : Except (Stop State) Unit :=
  need (decide (t ≥ 16) || !fmtInvalid (fmtReg c t)) .fmtInvalid

/-- The type that a tile's descriptor names, checked as R69 states. Where COLS is 0 and TYPE names an invalid format
register, R69 gives no order and FMT_INVALID is reported (DESIGN CHOICE, notes/assumptions/63.md). ROWS of 33 to 63 lies above the range
of R68 and R69 gives it no fate: such a descriptor describes so many rows and raises no fault (DESIGN CHOICE,
notes/assumptions/94.md). -/
def tdescType (c : Stream) (tile : Nat) : Except (Stop State) Nat := do
  let x := (rget 0 c.tdesc tile).toNat
  let t := bits x 4 0
  need (bits x 14 9 != 0) .tdescUnset
  need (decide (t ≤ 24)) .tdescBad
  fmtCheck c t
  let cap := 1024 / (tyOfCode (fmtReg c) t).store
  need (bits x 23 15 != 0 && decide (bits x 23 15 ≤ cap)) .tdescBad
  return t

end Sys2Proof.Machine
end

