-- ==== Sys2Proof/Machine/Records.lean ====
section
/-!
DEFINITION. Sequence numbers, the device's own accesses in a partition's address space, completion records, and the
rings that fault, event and commit records go to (R446, R463, R465, R477, R478, R480).
-/

namespace Sys2Proof.Machine

/-! ## Sequence numbers (R463) -/

/-- The number of the management queue, which belongs to no partition (R527). -/
def mgmtQ : Nat := 63

/-- The key of the management counter among the partitions: no partition has this number. -/
def mgmtPart : Nat := 16

/-- The next sequence number of a partition, or of the management counter. -/
def nextSeq (part : Nat) (s : State) : Nat × State :=
  if part = mgmtPart then (s.dev.mgmtctr + 1, modDev s (fun d => { d with mgmtctr := d.mgmtctr + 1 }))
  else
    let n := rget 0 s.dev.seqctr part + 1
    (n, modDev s (fun d => { d with seqctr := rset 0 d.seqctr part n }))

/-! ## The device's own accesses -/

/-- An access of the device is held back by its bank: the event that it belongs to cannot happen yet (R505, R506). -/
def devWaits (s : State) : State := modDev s (fun d => { d with waits := true })

/-- A range of the device's own accesses for a partition: each page run with its home (R437). The ASID is the
partition's DASID (R521); the management queue's addresses are physical or bus addresses. -/
def devSegs (k : AKind) (part : Nat) : List (Nat × Nat) → State → Option (List (HomeOf × Nat)) × State
  | [], s => (some [], s)
  | (a, n) :: r, s =>
    let here : Except FaultInfo HomeOf × State :=
      if part = mgmtPart then
        (if lowOf a + n ≤ (if pathOf a = 5 then 2 ^ 52 else 0x8000000000) then
          .ok (if pathOf a = 5 then Space.host else Space.dev, lowOf a, false)
         else .error ⟨.xlate, 1, BitVec.ofNat 64 a⟩, s)
      else if walkWaits k (bits (ptw s part 10) 11 0) 1 part a s then (.error (walkUe a), devWaits s)
      else translate k (bits (ptw s part 10) 11 0) 1 part a s
    match here with
    | (.error _, s) => (none, s)
    | (.ok h, s) =>
      match devSegs k part r s with
      | (none, s) => (none, s)
      | (some hs, s) => (some ((h, n) :: hs), s)

/-- A range cut at 64 KiB boundaries; fuel bounds the number of pieces. -/
def pageSegs (a n : Nat) : Nat → List (Nat × Nat)
  | 0 => []
  | fuel + 1 =>
    if n = 0 then []
    else
      let k := min n (65536 - a % 65536)
      (a, k) :: pageSegs (a + k) (n - k) fuel

/-- The homes of a range on path 0x0, 0x2 or 0x5, or none where an access fails. -/
def devRange (k : AKind) (part a n : Nat) (s : State) : Option (List (HomeOf × Nat)) × State :=
  if (pathOf a == 0 || pathOf a == 2 || pathOf a == 5) && qualOf a == 0 && decide (lowOf a + n ≤ 2 ^ 57) then
    devSegs k part (pageSegs a n (n / 65536 + 2)) s
  else (none, s)

/-- The bytes of homes. -/
def segBytes (s : State) (hs : List (HomeOf × Nat)) : List Byte := hs.flatMap (fun h => homeBytes s h.1.1 h.1.2.1 h.2)

/-- Some byte of the homes lies in a bank that holds accesses back. -/
def segHeld (s : State) (hs : List (HomeOf × Nat)) : Bool := hs.any (fun h => heldIn s h.1.1 h.1.2.1 h.2)

/-- Some byte of the homes is uncorrectable. -/
def segUe (s : State) (hs : List (HomeOf × Nat)) : Bool := hs.any (fun h => ueIn s h.1.1 h.1.2.1 h.2)

/-- The lines of homes read by the device (R500). -/
def touchSegs (s : State) (hs : List (HomeOf × Nat)) : State := hs.foldl (fun s h => touchHome h.1.1 h.1.2.1 h.2 s) s

/-- Bytes written over homes. -/
def putSegs (s : State) : List (HomeOf × Nat) → List Byte → State
  | [], _ => s
  | (h, n) :: r, bs => putSegs (putBytes s h.1 h.2.1 (bs.take n)) r (bs.drop n)

/-- Bytes read by the device for a partition; none where the access fails, meets an uncorrectable error, or is held back. -/
def devLoad (part a n : Nat) (s : State) : Option (List Byte) × State :=
  match devRange .ld part a n s with
  | (some hs, s) =>
    if segHeld s hs then (none, devWaits s) else (if segUe s hs then none else some (segBytes s hs), touchSegs s hs)
  | (none, s) => (none, s)

/-- Bytes written by the device for a partition; none where the access fails. The event of one that is held back cannot happen yet. -/
def devStore (part a : Nat) (bs : List Byte) (s : State) : Option State :=
  match devRange .st part a bs.length s with
  | (some hs, s) => some (putSegs s hs bs)
  | (none, t) => if t.dev.waits && !s.dev.waits then some t else none

/-- The bytes of words. -/
def wordBytes (ws : List Word) : List Byte := ws.flatMap (fun w => natLe 8 w.toNat)

/-- A 64-bit word of a natural number. -/
def w64 (n : Nat) : Word := BitVec.ofNat 64 n

/-! ## Completion records (R465) -/

/-- Status codes of a completion. -/
def stOk : Nat := 0
def stRefused : Nat := 1
def stTapMissed : Nat := 2
def stFaulted : Nat := 3
def stDenied : Nat := 4
def stBusy : Nat := 5
def stSigBad : Nat := 6

/-- A completion record written at home, as a release of the front end: a checkpoint of the control pair (R482). An
address that cannot be written takes no number and nothing is written. -/
def complete (part : Nat) (caddr : Word) (pseq status opc tag : Nat) (result : Word) (s : State) : State :=
  let (n, t) := nextSeq part s
  let ws := [w64 n, w64 pseq, w64 (status * 2 ^ 48 + opc * 2 ^ 40 + tag % 2 ^ 32), result]
  if caddr.toNat % 32 != 0 then s
  else
    match devStore part caddr.toNat (wordBytes ws) t with
    | some t => modDev t (fun d => { d with runm := 0 })
    | none => s

/-! ## Rings (R477, R478) -/

/-- The key of a ring: kinds 0 partition event queue, 1 launch fault queue, 2 token queue, 3 partition fault queue. -/
def ringKey (part kind index : Nat) : Nat := 64 * part + 16 * kind + (if kind = 1 then index else 0)

/-- The partition and kind of a ring key. -/
def ringPart (key : Nat) : Nat := key / 64
def ringKind (key : Nat) : Nat := key % 64 / 16

/-- The bytes of an entry. -/
def ringEntry (key : Nat) : Nat := if ringKind key = 2 then 128 else 64

/-- The ring has room: the consumer index, read at home, is less than the ring's size behind the producer. -/
def ringRoom (key : Nat) (s : State) : Bool × State :=
  let r := rget {} s.dev.evrings key
  if !r.conf then (false, s)
  else
    match devLoad (ringPart key) r.cons.toNat 8 s with
    | (some bs, s) => (decide ((r.prod + 2 ^ 64 - leNat bs) % 2 ^ 64 < 2 ^ r.log2n), s)
    | (none, s) => (false, s)

/-- A record written to its ring with the next sequence number as word 0, and the ring's interrupt. -/
def ringWrite (key : Nat) (ws : List Word) (s : State) : State :=
  let r := rget {} s.dev.evrings key
  let (n, s) := nextSeq (ringPart key) s
  let a := r.base.toNat + ringEntry key * (r.prod % 2 ^ r.log2n)
  let s := (devStore (ringPart key) a (wordBytes (w64 n :: ws)) s).getD s
  modDev s (fun d => { d with
    evrings := rset {} d.evrings key { r with prod := (r.prod + 1) % 2 ^ 64 }
    irqs := if r.irq then key :: d.irqs else d.irqs })

/-- A record for a ring: written at once if the ring has room and no earlier record waits for it, else it waits. -/
def ringSend (key : Nat) (ws : List Word) (s : State) : State :=
  let (room, s) := ringRoom key s
  if room && s.dev.ringWait.all (fun w => w.ring != key) then ringWrite key ws s
  else modDev s (fun d => { d with ringWait := d.ringWait ++ [{ ring := key, words := ws }] })

/-- The first waiting record of a ring that has room is written (EVENT_RING_ROOM). -/
def ringDrain (key : Nat) (s : State) : State :=
  match s.dev.ringWait.find? (fun w => w.ring == key) with
  | none => s
  | some w =>
    let (room, s) := ringRoom key s
    if room then
      ringWrite key w.words (modDev s (fun d => { d with ringWait := d.ringWait.erase w }))
    else s

/-! ## Fault records (R445, R446) -/

/-- The CODE of a fault (R445). -/
def fcode : FCode → Nat
  | .illegalOp => 0x01 | .illegalEnc => 0x02 | .groupHazard => 0x03 | .priv => 0x04 | .fetchFault => 0x05
  | .xlate => 0x10 | .prot => 0x11 | .pathFault => 0x12 | .pathRo => 0x13 | .pathUse => 0x14 | .misaligned => 0x15
  | .memUe => 0x16 | .asidBad => 0x17
  | .mrfWindow => 0x20 | .tdescUnset => 0x21 | .tdescBad => 0x22 | .fmtInvalid => 0x23 | .fmtArray => 0x24
  | .portUnbound => 0x25 | .portExhausted => 0x26 | .psBad => 0x27 | .tileRange => 0x28
  | .canopyEarly => 0x30 | .canopyState => 0x31 | .canopyRo => 0x32 | .canopyDebt => 0x33 | .handlePlace => 0x34
  | .handleInvalid => 0x35 | .handlePinmax => 0x36
  | .planeEmpty => 0x40 | .maskBad => 0x41 | .drainRange => 0x42 | .microEntry => 0x43 | .microAddr => 0x44
  | .microFault => 0x45
  | .joinUnderflow => 0x50 | .badRecord => 0x51 | .queueBad => 0x52 | .barGroup => 0x53 | .barLate => 0x54
  | .slotBad => 0x55 | .runOverrun => 0x56
  | .tapUndeclared => 0x60 | .tapRange => 0x61 | .tapLate => 0x62 | .tapFull => 0x63 | .jobBad => 0x64
  | .shapeWord => 0x65 | .ctxBad => 0x66 | .swTrap => 0x70 | .brkEvent => 0x71
  | .phaseStall => 0x80 | .tapMissed => 0x81 | .barMismatch => 0x82 | .jobFail => 0x83 | .shapeBad => 0x84
  | .gcmtRow => 0x85 | .jobXlate => 0x86 | .ctxLost => 0x87 | .handleUe => 0x88

/-- The fields of a fault record beside its sequence number. -/
structure Rec where
  code : Nat := 0
  cause : Nat := 0
  mask : Nat := 0
  ridx : Nat := 0
  strm : Bool := false
  grove : Nat := 0
  launch : Nat := 0
  part : Nat := 0
  pc : Word := 0
  addr : Word := 0
  ctx : Nat := 0xFFFFFFFF
  info : Nat := 0
  tile : Nat := 0
  jobseq : Nat := 0
  deriving DecidableEq, Repr

/-- Words 1 to 7 of a fault record (R446). -/
def recWords (r : Rec) : List Word :=
  [w64 (r.code * 2 ^ 48 + r.cause * 2 ^ 40 + r.mask * 2 ^ 33 + r.ridx * 2 ^ 27 + r.strm.toNat * 2 ^ 26 +
      r.grove * 2 ^ 18 + r.launch * 2 ^ 12 + r.part * 2 ^ 8),
   r.pc, r.addr, w64 (r.ctx % 2 ^ 32 * 2 ^ 32 + r.info % 2 ^ 32), w64 r.tile, w64 r.jobseq, 0]

/-- A record to a launch's fault queue (R442). -/
def sendLaunchFault (n : Nat) (r : Rec) (s : State) : State :=
  let l := launchOf s n
  ringSend (ringKey l.part 1 (bits (opWord l 0) 63 60)) (recWords { r with launch := n, part := l.part }) s

/-- A launch-level condition (R442): no task, no stream. -/
def launchCond (n : Nat) (c : FCode) (s : State) : State := sendLaunchFault n { code := fcode c } s

/-- A record to a partition's fault queue (R442). -/
def sendPartFault (part : Nat) (r : Rec) (s : State) : State :=
  ringSend (ringKey part 3 0) (recWords { r with part := part }) s

/-- A record of a running task: where it stood (R446). -/
def taskRec (s : State) (b : Bool) (c : Stream) (code cause mask ridx : Nat) (addr : Word) (ctx info : Nat) : Rec :=
  { code := code, cause := cause, mask := mask, ridx := ridx, strm := b, grove := s.gv.id, launch := c.launch,
    part := partOf s c, pc := c.pc, addr := addr, ctx := ctx, info := info,
    tile := bits c.r1.toNat 31 0 + bits c.r2.toNat 63 48 * 2 ^ 32 }

end Sys2Proof.Machine
end

