-- ==== Sys2Proof/Machine/Launch.lean ====
section
/-!
DEFINITION. Launches, continuation records, work queues and the state they share with tasks (R19 to R37, R44, R45, R50,
R58 to R60, R307): populations, the arbiter's window and its checks, enqueueing, readiness and candidates.
-/

namespace Sys2Proof.Machine

/-! ## Operator record fields (R469) -/

def opX0 (l : Launch) : Nat := bits (opWord l 0) 3 0
def opY0 (l : Launch) : Nat := bits (opWord l 0) 7 4
def opW (l : Launch) : Nat := bits (opWord l 0) 12 8
def opH (l : Launch) : Nat := bits (opWord l 0) 17 13
/-- PMODE: EXPLICIT arrivals (R50). -/
def opExplicit (l : Launch) : Bool := bit (opWord l 0) 18
def opRank (l : Launch) : Nat := bits (opWord l 0) 21 19
def opQueue (l : Launch) : Nat := bits (opWord l 0) 29 22
def opPriv (l : Launch) : Nat := bits (opWord l 0) 30 30
/-- SHP: the launch names a shape word (R185). -/
def opShp (l : Launch) : Bool := bit (opWord l 0) 31
def opSrun (l : Launch) : Nat := bits (opWord l 0) 47 32
def opAsid (l : Launch) : Nat := bits (opWord l 0) 59 48
def opGy (l : Launch) : Nat := bits (opWord l 1) 31 16
def opGz (l : Launch) : Nat := bits (opWord l 1) 47 32
def opStride (l : Launch) : Nat := bits (opWord l 3) 47 32
def opEntry (l : Launch) : Nat := bits (opWord l 3) 31 0
def opArena (l : Launch) : Nat := opWord l 5
def opArenaSize (l : Launch) : Nat := opWord l 6

/-- Tiles of the grid (R19). -/
def gridTiles (l : Launch) : Nat := l.gx * opGy l * opGz l

/-- The Grove lies in the launch's rectangle. -/
def inRect (l : Launch) (g : Nat) : Bool :=
  decide (opX0 l ≤ g % 16) && decide (g % 16 < opX0 l + opW l) && decide (opY0 l ≤ g / 16) && decide (g / 16 < opY0 l + opH l)

/-- The Groves of a launch's rectangle, row by row. -/
def rectGroves (l : Launch) : List Nat := (List.range 256).filter (inRect l)

/-! ## Launch states (R60) -/

/-- BOUNDARY: the steps of R52 run, or the launch waits there for jobs (R55). -/
def inBoundary (l : Launch) : Bool :=
  l.st == .drain || l.st == .exchange || l.st == .resolve || l.st == .compare || l.st == .flip || l.st == .waitJobs

/-- ACTIVE, BOUNDARY or EVICTED. -/
def liveLaunch (l : Launch) : Bool := l.st == .active || inBoundary l || l.st == .evicted

/-- The phase number as records hold it. -/
def curPhase (l : Launch) : Nat := l.phase % 4096

/-- The launch's shape is not resolved yet (R193). -/
def pendingShape (l : Launch) : Bool := l.shaped && !l.resolved

/-! ## Continuation records (R26) -/

def recJoin (w0 : Word) : Nat := bits w0.toNat 31 0
def recCodeoff (w0 : Word) : Nat := bits w0.toNat 63 32
def recFrameoff (w1 : Word) : Nat := bits w1.toNat 63 32
def recTileX (w1 : Word) : Nat := bits w1.toNat 15 0
def recTileY (w1 : Word) : Nat := bits w1.toNat 31 16
def recTileZ (w2 : Word) : Nat := bits w2.toNat 63 48
def recSrun (w2 : Word) : Nat := bits w2.toNat 47 32
def recProv (w2 : Word) : Bool := bit w2.toNat 3
def recRank (w2 : Word) : Nat := bits w2.toNat 2 0
/-- The weight handles marked valid. -/
def recHandles (w2 : Word) : List Nat :=
  (if bit w2.toNat 4 then [bits w2.toNat 18 6] else []) ++ (if bit w2.toNat 5 then [bits w2.toNat 31 19] else [])
def recPhase (w3 : Word) : Nat := bits w3.toNat 63 52
def recLaunch (w3 : Word) : Nat := bits w3.toNat 51 46
def recNowin (w3 : Word) : Bool := bit w3.toNat 13
def recMwb (w3 : Word) : Nat := bits w3.toNat 25 20
def recMwl (w3 : Word) : Nat := bits w3.toNat 19 14

/-- The tile coordinate as G60 holds it. -/
def tile48 (w1 w2 : Word) : Nat := bits w1.toNat 31 0 + recTileZ w2 * 2 ^ 32

/-- The linear index of a record's tile in its launch (R21). -/
def recTile (l : Launch) (w1 w2 : Word) : Nat := recTileX w1 + l.gx * (recTileY w1 + opGy l * recTileZ w2)

/-- Words with a field replaced: bits [lo + n − 1 : lo] of w become v. -/
def withField (w : Word) (lo n v : Nat) : Word :=
  w64 (w.toNat - w.toNat / 2 ^ lo % 2 ^ n * 2 ^ lo + v % 2 ^ n * 2 ^ lo)

/-! ## Work queues -/

def queueOf (s : State) (q : Nat) : Queue := rget {} s.dev.queues q

/-- A work queue changed. -/
def modQueue (s : State) (q : Nat) (f : Queue → Queue) : State :=
  modDev s (fun d => { d with queues := rmod {} d.queues q f })

/-- The rank that a queue writes into its records (R32). -/
def queueRank (s : State) (q : Nat) : Nat :=
  let k := queueOf s q
  if k.mailbox then k.rank else match k.bound with | some n => opRank (launchOf s n) | none => k.rank

/-- The records of a queue, resume entries apart. -/
def queueRecs (k : Queue) : List QEntry := k.entries.filter (fun e => e.resume.isNone)

/-- The queue holds its spill capacity of records (R35). -/
def queueFull (k : Queue) : Bool := decide ((queueRecs k).length ≥ 2 ^ k.logcap)

/-- The index of the record's Grove in its launch's rectangle, for PINNED placement (R33). -/
def pinOf (l : Launch) (w1 w2 : Word) : Nat := recTile l w1 w2 % max 1 (opW l * opH l)

/-- The index of a Grove in a rectangle (R33). -/
def rectIdx (l : Launch) (g : Nat) : Nat := (g % 16 - opX0 l) + opW l * (g / 16 - opY0 l)

/-- Records with their places in the arbiter's window: the first 128 of the queue, or of each Grove (R34). -/
def windowGo (s : State) (pinned : Bool) : List QEntry → List (Nat × Nat) → List QEntry
  | [], _ => []
  | e :: r, seen =>
    let key := if pinned then pinOf (launchOf s (recLaunch e.w3)) e.w1 e.w2 else 0
    let n := rget 0 seen key
    if n < 128 then e :: windowGo s pinned r (rset 0 seen key (n + 1)) else windowGo s pinned r seen

/-- The records that the arbiter sees in a queue (R34). -/
def windowOfQueue (s : State) (k : Queue) : List QEntry := windowGo s (k.pinned && !k.mailbox) (queueRecs k) []

/-- Weight handle states (R119). -/
def whInvalid : Nat := 0
def whRequested : Nat := 1
def whInFlight : Nat := 2
def whResident : Nat := 3
def whPinned : Nat := 4
def whEvicting : Nat := 5
def whFaulted : Nat := 6

/-- A weight handle. -/
def whOf (s : State) (h : Nat) : WHandle := rget {} s.dev.wh h

/-- The pin count of a handle (R120). -/
def pinCount (w : WHandle) : Nat := (w.pins.map (fun x => x.2)).sum

/-- The state word of HTEST (R319); zero for INVALID. -/
def whWord (w : WHandle) : Word :=
  if w.st = whInvalid then 0
  else
    w64 ((if w.hbm then 0 else w.nrows % 2 ^ 16 * 2 ^ 48 + w.fbank * 2 ^ 32 + w.grove * 2 ^ 24) + w.urgent.toNat * 2 ^ 17 +
      w.hbm.toNat * 2 ^ 16 + min 255 (pinCount w) * 2 ^ 8 + w.st)

/-- The address word of HTEST (R319): the base of an HBM4E placement. -/
def whAddr (w : WHandle) : Word := if w.st != whInvalid && w.hbm then w64 w.base else 0

/-- The handle keeps, of its first change of state in a cycle, what HTEST answered before it (R120). -/
def noteWas (now : Nat) (w v : WHandle) : WHandle :=
  if v.st = w.st then v
  else { v with was := if w.was.any (fun x => x.1 == now) then w.was else some (now, w.part, whWord w, whAddr w) }

/-- What HTEST answers to a partition in cycle now: the state before the changes of that cycle; a handle bound in
another partition is INVALID (R120). -/
def whSeen (now part : Nat) (w : WHandle) : Word × Word :=
  match w.was with
  | some (t, p, a, b) => if t = now then (if p = part then (a, b) else (0, 0)) else if w.part = part then (whWord w, whAddr w) else (0, 0)
  | none => if w.part = part then (whWord w, whAddr w) else (0, 0)

/-- A weight handle changed. -/
def modWh (s : State) (h : Nat) (f : WHandle → WHandle) : State :=
  modDev s (fun d => { d with wh := rmod {} d.wh h (fun w => noteWas s.now w (f w)) })

/-- The handle is live for a partition (R27, R120). -/
def whLive (s : State) (part h : Nat) : Bool := let w := whOf s h; w.st != whInvalid && w.part == part

/-- The weights are in place. -/
def whInPlace (w : WHandle) : Bool := w.st == whResident || w.st == whPinned

/-- The discard checks of R27; a HELD record waits for the handle that holds it to be bound again, whatever the handle is until
then (R497). -/
def recBad (s : State) (e : QEntry) : Bool :=
  let l := launchOf s (recLaunch e.w3)
  recSrun e.w2 == 0 || recMwb e.w3 > recMwl e.w3 || recMwl e.w3 > 47 ||
  (recNowin e.w3 && (recMwb e.w3 != 0 || recMwl e.w3 != 0)) || bits e.w3.toNat 12 0 != 0 ||
  decide ((recPhase e.w3 + 4096 - curPhase l) % 4096 ≥ 2048) ||
  (recHandles e.w2).any (fun h => decide (h ∉ e.held) && !whLive s l.part h)

/-- The BAD_RECORD fault record of a discarded record. -/
def badRecord (e : QEntry) : Rec := { code := fcode .badRecord, tile := tile48 e.w1 e.w2 }

/-- The window's checks made on the records that have entered it: a bad one is discarded (R27). -/
def settleFuel (q : Nat) : Nat → State → State
  | 0, s => s
  | n + 1, s =>
    let k := queueOf s q
    if k.mailbox then s
    else
      match (windowOfQueue s k).find? (fun e => !e.checked) with
      | none => s
      | some e =>
        if recBad s e then
          let s := modQueue s q (fun k => { k with entries := k.entries.erase e })
          settleFuel q n (sendLaunchFault (recLaunch e.w3) (badRecord e) s)
        else settleFuel q n (modQueue s q (fun k => { k with entries := k.entries.replace e { e with checked := true } }))

/-- The window of a queue settled. -/
def settleQueue (q : Nat) (s : State) : State := settleFuel q ((queueOf s q).entries.length + 1) s

/-- The windows of all queues settled: records have been taken out of them. -/
def settleAll (s : State) : State := (s.dev.queues.map (fun x => x.1)).foldl (fun s q => settleQueue q s) s

/-- The handles of its partition that a record names and that are FAULTED (R31, R58). -/
def namesFaulted (s : State) (w2 w3 : Word) : List Nat :=
  (recHandles w2).filter (fun h => (whOf s h).st == whFaulted && whLive s (launchOf s (recLaunch w3)).part h)

/-- A record placed at the tail of a queue with the queue's rank and the next serial; it is HELD where a handle that it
names is FAULTED (R31, R32, R58, R307). -/
def enqueue (q : Nat) (w0 w1 w2 w3 : Word) (released : Bool) (s : State) : State :=
  let e : QEntry := { w0 := w0, w1 := w1, w2 := withField w2 0 3 (queueRank s q), w3 := w3,
                      serial := (queueOf s q).serial, order := s.dev.enqs, released := released,
                      held := namesFaulted s w2 w3 }
  settleQueue q (modQueue (modDev s (fun d => { d with enqs := d.enqs + 1 })) q (fun k => { k with entries := k.entries ++ [e], serial := (k.serial + 1) % 2 ^ 24 }))

/-- The form-0 reference of the record that the next enqueue places (R307). -/
def nextRef (s : State) (q : Nat) : Word := w64 ((queueOf s q).serial * 256 + q)

/-! ## Readiness, admission and candidates (R29, R33, R37, R44) -/

/-- A record is ready (R29). -/
def recReady (s : State) (e : QEntry) : Bool :=
  let l := launchOf s (recLaunch e.w3)
  recJoin e.w0 == 0 && recPhase e.w3 == curPhase l && l.st == .active && e.held.isEmpty &&
  (recHandles e.w2).all (fun h => whInPlace (whOf s h))

/-- Two record windows overlap (R37). -/
def winOverlap (a b : Word) : Bool :=
  !recNowin a && !recNowin b && decide (recMwb a ≤ recMwl b) && decide (recMwb b ≤ recMwl a)

/-- The Grove and stream b may take the record (R33, R37). -/
def admits (s : State) (k : Queue) (b : Bool) (e : QEntry) : Bool :=
  let l := launchOf s (recLaunch e.w3)
  let o := strm s (!b)
  inRect l s.gv.id && (!k.pinned || pinOf l e.w1 e.w2 == rectIdx l s.gv.id) &&
  !(hasTask o && winOverlap o.r3 e.w3) && s.gv.heldTasks.all (fun h => !winOverlap h.r3 e.w3)

/-- The head of a queue for a stream (R34). -/
def headOf (s : State) (k : Queue) (b : Bool) : Option QEntry :=
  if k.mailbox then none
  else (windowOfQueue s k).find? (fun e => e.checked && recReady s e && admits s k b e)

/-- Cycles left to the next slice boundary (R43). -/
def sliceLeft (s : State) : Nat := s.gv.sliceStart + s.gv.slice - s.now

/-- Running tasks from a queue in its launch's rectangle: those of this Grove and those that run on other Groves (R44). -/
def runningFrom (s : State) (q : Nat) : Nat :=
  ([s.st0, s.st1].filter (fun c => hasTask c && c.queue == q)).length + (s.dev.away.filter (fun a => a.queue == q)).length

/-- The queue is below its occupancy limit for the record; rank 7 skips the test (R44). -/
def occupancyOk (s : State) (q : Nat) (k : Queue) (e : QEntry) : Bool :=
  recRank e.w2 == 7 || k.occ == 0 || decide (runningFrom s q < k.occ)

/-- The head passes the occupancy and slice tests of R44. -/
def fits (s : State) (q : Nat) (k : Queue) (e : QEntry) : Bool :=
  occupancyOk s q k e && decide (min (recSrun e.w2) s.gv.slice ≤ sliceLeft s)

/-- The effective rank (R45). -/
def effRank (s : State) (e : QEntry) : Nat :=
  let r := recRank e.w2
  if r = 7 then 7 else min 6 (r + (s.now - e.readyAt.getD s.now) / 2 ^ 20)

/-- Readiness followed: the cycle in which each record became ready is kept while it stays ready (R45). -/
def markReady (s : State) : State :=
  modDev s (fun d => { d with queues := d.queues.map (fun x => (x.1, { x.2 with
    entries := x.2.entries.map (fun e =>
      if recReady s e then { e with readyAt := some (e.readyAt.getD s.now) } else { e with readyAt := none }) })) })

/-! ## Populations (R50) -/

/-- The stream's task belongs to the launch's current phase. -/
def taskInPhase (l : Launch) (n : Nat) (c : Stream) : Bool :=
  hasTask c && c.launch == n && recPhase c.r3 == curPhase l

/-- The record belongs to the launch's current phase, in a DISPATCH queue. -/
def recInPhase (l : Launch) (n : Nat) (e : QEntry) : Bool :=
  e.resume.isNone && recLaunch e.w3 == n && recPhase e.w3 == curPhase l

/-- A task of the launch runs on another Grove in the phase. -/
def awayIn (s : State) (n phase : Nat) : Bool := s.dev.away.any (fun a => a.launch == n && a.phase == phase)

/-- The population of a launch's current phase is empty. A saved task counts as running (R448), so does a task held
with its fault, and so does a launch whose shape is pending (R193). -/
def popEmpty (s : State) (n : Nat) : Bool :=
  let l := launchOf s n
  !pendingShape l && l.tileEnd ≤ l.tileNext && !taskInPhase l n s.st0 && !taskInPhase l n s.st1 && !s.gv.heldTasks.any (taskInPhase l n) &&
  !awayIn s n (curPhase l) &&
  !s.dev.ctxlive.any (fun x => x.launch == n && x.phase == curPhase l) &&
  s.dev.queues.all (fun x => x.2.mailbox || x.2.entries.all (fun e => !recInPhase l n e))

/-- Some record of a later phase of the launch is queued in a DISPATCH queue (R55). -/
def laterRecs (s : State) (n : Nat) : Bool :=
  s.dev.queues.any (fun x => !x.2.mailbox && x.2.entries.any (fun e => e.resume.isNone && recLaunch e.w3 == n))

/-- Tasks of the launch are running, on this Grove or another, saved or held. -/
def tasksOf (s : State) (n : Nat) : Bool :=
  (hasTask s.st0 && s.st0.launch == n) || (hasTask s.st1 && s.st1.launch == n) ||
  s.gv.heldTasks.any (fun c => c.launch == n) || s.dev.ctxlive.any (fun x => x.launch == n) ||
  s.dev.away.any (fun a => a.launch == n)

/-- Jobs of a launch that are not complete (R55). -/
def jobsOf (s : State) (n : Nat) : Bool := s.gv.jobs.any (fun j => j.launch == n)

/-- The record of tile L of a launch (R21). -/
def tileRecord (l : Launch) (n tile : Nat) (prov : Bool) : Word × Word × Word × Word :=
  let x := tile % max 1 l.gx
  let y := tile / max 1 l.gx % max 1 (opGy l)
  let z := tile / max 1 l.gx / max 1 (opGy l)
  let wsel := bits (opWord l 3) 63 62
  let mwb := if wsel = 2 then bits (opWord l 3) 61 56 else 0
  let mwl := if wsel = 0 then 47 else if wsel = 2 then bits (opWord l 3) 53 48 else 0
  (w64 (opEntry l * 2 ^ 32),
   w64 (tile * opStride l % 2 ^ 32 * 2 ^ 32 + y * 2 ^ 16 + x),
   w64 (z * 2 ^ 48 + opSrun l * 2 ^ 32 + prov.toNat * 8 + opRank l),
   w64 (curPhase l * 2 ^ 52 + n * 2 ^ 46 + mwb * 2 ^ 20 + mwl * 2 ^ 14 + (if wsel = 1 then 2 ^ 13 else 0)))

/-- The tile records still owed enqueued in ascending order, while the queue has room (R21, R35); fuel bounds them. -/
def fillTiles (n : Nat) : Nat → State → State
  | 0, s => s
  | fuel + 1, s =>
    let l := launchOf s n
    if l.tileNext < l.tileEnd && !queueFull (queueOf s (opQueue l)) then
      let (w0, w1, w2, w3) := tileRecord l n l.tileNext l.tileProv
      let s := modLaunch s n (fun l => { l with tileNext := l.tileNext + 1 })
      fillTiles n fuel (enqueue (opQueue l) w0 w1 w2 w3 false s)
    else s

/-- The front end enqueues what it can of a launch's tile records. -/
def fillLaunch (n : Nat) (s : State) : State :=
  let l := launchOf s n
  fillTiles n (l.tileEnd - l.tileNext) s

end Sys2Proof.Machine
end

