-- ==== Sys2Proof/Machine/Task.lean ====
section
/-!
DEFINITION. Tile tasks: dispatch (R28, R30), the end of a task (R280), taking a fault or a trap (R89, R192, R233, R281,
R442), the urgent save and its image (R447 to R450), resume (R452), and arbitration (R43 to R46).
-/

namespace Sys2Proof.Machine

/-! ## Handles and banks given back -/

/-- A job of the Grove names the handle in its footprint (R97). -/
def jobNames (s : State) (h : Nat) : Bool := s.gv.jobs.any (fun j => j.foot.any (fun r => r.sp == 3 && r.key == h))

/-- Freed handles that no job names return to the pool (R97). -/
def sweepHandles (s : State) : State :=
  modGv s (fun g => { g with handles := g.handles.filter (fun x => !(x.2.freed && !jobNames s x.1)) })

/-- Handles that p selects are freed (R97). -/
def freeHandles (p : Handle → Bool) (s : State) : State :=
  sweepHandles (modGv s (fun g => { g with
    handles := g.handles.map (fun x => (x.1, if x.2.alloc && p x.2 then { x.2 with freed := true } else x.2)) }))

/-- The TASK handles of a task. -/
def isTaskHandle (task : Nat) (h : Handle) : Bool := h.alloc && !h.freed && !h.launchLife && h.task == task

/-- A cycle d after an optional earlier one. -/
def after (o : Option Nat) (d : Nat) : Nat := match o with | some t => t + d | none => 0

/-- The cycle from which a bank given back is free: every minimum of R101 met, the hardware precharge of an open bank
included (R105, R106). -/
def bankFreeAt (now : Nat) (k : Bank) : Nat :=
  if k.openRow.isSome then
    max now (max (max (after k.tAct 32) (after k.tCld 1)) (max (after k.tPlane 64) (after k.tCst 16))) + 16
  else max now (max (max (after k.tPre 16) (after k.tRef 240)) k.freeAt)

/-- A bank given back to the background refresher (R105, R106). -/
def releaseBank (now : Nat) (k : Bank) : Bank := { lastRef := k.lastRef, eng := k.eng, freeAt := bankFreeAt now k }

/-- Banks of a task given back. -/
def releaseBanks (task : Nat) (s : State) : State :=
  modGv s (fun g => { g with
    banks := g.banks.map (fun x => (x.1, if x.2.holder == some task then releaseBank s.now x.2 else x.2)) })

/-- Ownership of the array given up: both planes become EMPTY (R352, R358). -/
def releaseArray (task : Nat) (s : State) : State :=
  if s.gv.owner = some task then modGv s (fun g => { g with owner := none, comp := {}, idle := {} }) else s

/-- Use references of a record's handles taken or dropped (R30). -/
def takeRefs (w2 : Word) (s : State) : State :=
  (recHandles w2).foldl (fun s h =>
    modWh (modDev s (fun d => { d with whOrder := d.whOrder + 1 })) h
      (fun w => { w with refs := w.refs + 1, lastUse := s.dev.whOrder + 1 })) s
def dropRefs (w2 : Word) (s : State) : State :=
  (recHandles w2).foldl (fun s h => modWh s h (fun w => { w with refs := w.refs - 1 })) s

/-- Tasks on other Groves that p selects are over: their use references are dropped (R30, R280). -/
def endAway (p : AwayTask → Bool) (s : State) : State :=
  (s.dev.away.filter p).foldl (fun s a => dropRefs a.w2 s) (modDev s (fun d => { d with away := d.away.filter (fun a => !p a) }))

/-- When one stream is idle, the running stream is primary (R38). -/
def fixPrimary (s : State) : State :=
  if hasTask s.st1 && !hasTask s.st0 then modGv s (fun g => { g with primary := true })
  else if hasTask s.st0 && !hasTask s.st1 then modGv s (fun g => { g with primary := false })
  else s

/-- What a task gives back when it ends or is squashed: its TASK handles, use references, banks and the array. -/
def giveBack (c : Stream) (s : State) : State :=
  releaseArray c.task (releaseBanks c.task (dropRefs c.r2 (freeHandles (isTaskHandle c.task) s)))

/-- A stream that has become IDLE: what the task was doing is over; its registers keep their values until the next
dispatch (R28, R280). An answer of LDV or LDVX that a surplus task waits for when it is stopped does not land (DESIGN CHOICE,
notes/assumptions/85.md). -/
def idleCtx (c : Stream) : Stream :=
  { c with status := .idle, npc := none, ridx := 0, blen := 0, lostG := [], lostR := [], prov := false, iflags := 0,
           imxc := {}, iseq := 0, inan := 0, grpW := [], grpR := [], segOn := false, capped := false, overrun := false,
           ovr := false, pend := [], denied := 0, barGen := none, barRes := none, grpOpen := false, svTask := none,
           eretTo := none, ending := false, debtTrap := false, idleSeen := none, cw := none, half := false, held := false,
           hand := [], saveWant := none, micro := { c.micro with running := false, fpend := false } }

/-- The stream b becomes IDLE. -/
def idleStream (b : Bool) (s : State) : State := fixPrimary (setStrm s b (idleCtx (strm s b)))

/-- The end of stream b's task (R280). -/
def endTask (b : Bool) (s : State) : State := idleStream b (giveBack (strm s b) s)

/-- f done for a task held with its fault as it would be in the stream that it ran in; the stream's own task stands in
its place meanwhile (R192, R286, R377). -/
def withHeld (c : Stream) (f : State → State) (s : State) : State :=
  let b := c.wasStrm
  let o := strm s b
  let t := f (setStrm (modGv s (fun g => { g with heldTasks := g.heldTasks.replace c o })) b c)
  setStrm (modGv t (fun g => { g with heldTasks := g.heldTasks.replace o (strm t b) })) b o

/-! ## Faults and traps -/

/-- FSTAT of a faulting issue (R89). -/
def fstatWord (mask code ridx : Nat) : Word := w64 (ridx * 2 ^ 42 + code * 2 ^ 16 + mask)

/-- A stopped task waits for its urgent save; a provisional one is held at the Grove with its fault, its stream free
(R192, R281). -/
def stopTask (b : Bool) (c : Stream) (status : StrmStatus) (s : State) : State :=
  if c.prov then
    idleStream b (modGv s (fun g => { g with heldTasks := g.heldTasks ++ [{ c with status := status, held := true, wasStrm := b }] }))
  else setStrm s b { c with status := status }

/-- Taking a fault: the issue commits nothing, FSTAT names it, and the stream is FAULTED until its task is saved
(R233, R442). -/
def takeFault (b : Bool) (mask : Nat) (f : FaultInfo) (s : State) : State :=
  let c := strm s b
  stopTask b { c with
    fstat := fstatWord mask (fcode f.code) c.ridx
    stopAt := s.now
    stopPc := c.pc
    saveWant := some 0
    faultCause := f.cause
    faultAddr := f.addr
    faultInfo := 0
    micro := if f.code == .microFault then { c.micro with fpend := false } else c.micro
    npc := none, half := false, hand := [], iflags := 0, imxc := {}, iseq := 0, inan := 0 } .faulted s

/-- A trap noted by its op: the task is saved before its next bundle (R281, R282). Kind 1 SW_TRAP, 4 BREAK. -/
def noteTrap (kind code payload : Nat) (s : State) : State :=
  modCur s (fun c => { c with saveWant := some kind, stopAt := s.now, stopPc := c.pc, faultInfo := code * 2 ^ 16 + payload })

/-! ## The urgent save (R447 to R450) -/

/-- The physical accumulator tile of a name, where it is mapped (R73). -/
def accTile (c : Stream) (k : Nat) : Option Nat := match rget 0 c.amap k with | 0 => none | n + 1 => some n

/-- An element of a physical accumulator tile. -/
def accAt (s : State) (tile i n : Nat) : Acc := rget 0 s.gv.acc (2048 * tile + 64 * i + n)

/-- The TASK handles of a task in ascending number. -/
def taskHandles (s : State) (task : Nat) : List (Nat × Handle) := s.gv.handles.filter (fun x => isTaskHandle task x.2)

/-- The granules of a SPAD handle or the rows of a CANOPY handle (TQRY attribute word, R313). -/
def attrWord (h : Handle) : Word :=
  w64 (h.parts.length * 2 ^ 16 + h.fbank * 2 ^ 8 + h.wcode * 2 ^ 3 + h.launchLife.toNat * 4 + h.canopy.toNat * 2 + 1)

/-- The task may resume only on this Grove (R57, R452). -/
def sameGrove (s : State) (c : Stream) : Bool :=
  (taskHandles s c.task).any (fun x => x.2.canopy) ||
  s.gv.banks.any (fun x => x.2.holder == some c.task) ||
  s.gv.handles.any (fun x => x.2.alloc && !x.2.freed && x.2.launchLife && x.2.launch == c.launch) ||
  c.prov || c.barGen.isSome

/-- Words 20 to 27 of the header: the position states (R450). -/
def posWords (p : PosState) : List Word := [p.op, w64 (p.live.toNat * 2 ^ 16 + p.j % 2 ^ 16)]

/-- A mask of the numbers below n that p selects, as 64-bit words. -/
def maskWords (words : Nat) (p : Nat → Bool) : List Word :=
  (List.range words).map (fun w => w64 (((List.range 64).filter (fun i => p (64 * w + i))).foldl (fun a i => a + 2 ^ i) 0))

/-- The header of an image (R450). -/
def imageHeader (s : State) (b : Bool) (c : Stream) (fres : Bool) : List Word :=
  let own := s.gv.owner == some c.task
  let lc (k : Nat) : Nat := (rget 0 c.lc k).toNat
  [ w64 (2 ^ 48 + 2 ^ 47 + (sameGrove s c).toNat * 2 ^ 46 + c.prov.toNat * 2 ^ 45 + own.toNat * 2 ^ 44 +
      (if own then s.gv.idle.st * 2 ^ 42 + (if s.gv.comp.st = 0 then 0 else 2 ^ 41) + s.gv.comp.typ * 2 ^ 36 +
        s.gv.idle.typ * 2 ^ 31 else 0) +
      ((List.range 8).filter (fun k => (accTile c k).isSome)).foldl (fun a k => a + 2 ^ (23 + k)) 0 +
      c.level * 2 ^ 21 + c.asid * 2 ^ 9),
    c.pc,
    w64 (b.toNat * 2 ^ 16 + s.gv.id * 2 ^ 8 + fres.toNat * 2 ^ 6 + c.ridx),
    w64 (((List.range 32).filter (fun k => (rget {} s.gv.banks k).holder == some c.task)).foldl (fun a k => a + 2 ^ k) 0 +
      ((List.range 32).filter (fun k => (rget {} s.gv.banks k).holder == some c.task && (rget {} s.gv.banks k).openRow.isSome)).foldl
        (fun a k => a + 2 ^ (32 + k)) 0),
    c.r0, c.r1, c.r2, c.r3,
    w64 (c.used % 2 ^ 32 * 2 ^ 16 + c.allow % 2 ^ 16),
    c.fstat, c.flags, c.mxc, c.seqstat, c.portmap, c.skipp ] ++
  maskWords 1 (fun n => n != 0 && c.lostG.any (fun x => x.1 == n)) ++
  [ w64 (lc 0 + lc 1 * 2 ^ 32), w64 (lc 2 + lc 3 * 2 ^ 32), w64 (lc 4 + lc 5 * 2 ^ 32), w64 (lc 6 + lc 7 * 2 ^ 32) ] ++
  posWords c.v0 ++ posWords c.v1 ++ posWords c.m ++ posWords c.c ++ [0, 0, 0, 0]

/-- A port's walk position as the image holds it (R449). -/
def walkWords (w : Walk) : List Word :=
  let i (k : Nat) : Nat := w.idx.getD k 0 % 2 ^ 16
  [ w64 (i 0 + i 1 * 2 ^ 16 + i 2 * 2 ^ 32 + i 3 * 2 ^ 48),
    w64 (i 4 + w.kx % 256 * 2 ^ 16 + w.ky % 256 * 2 ^ 24 + w.ended.toNat * 2 ^ 32) ]

/-- The bytes of an accumulator tile (R449). -/
def accBytes (s : State) (tile : Nat) : List Byte :=
  (List.range 32).flatMap (fun i => (List.range 64).flatMap (fun n => natLe 5 (accAt s tile i n).toNat))

/-- The rows of a task's window. -/
def windowRows (c : Stream) : List Nat :=
  if noWin c then [] else (List.range (32 * (mwLim c + 1 - mwBase c))).map (fun r => 32 * mwBase c + r)

/-- The contents of SPAD TASK handles placed one after another in whole granules from an offset (R449). -/
def handlePieces (s : State) : List (Nat × Handle) → Nat → List (Nat × List Byte)
  | [], _ => []
  | (_, h) :: r, off =>
    if h.canopy then handlePieces s r off
    else (off, handleRange s h 0 (handleBytes h)) :: handlePieces s r (off + 2048 * h.parts.length)

/-- The pieces of an image: offset in the slot and bytes (R449). -/
def imagePieces (s : State) (b : Bool) (c : Stream) (fres : Bool) : List (Nat × List Byte) :=
  let hs := taskHandles s c.task
  [ (0, wordBytes (imageHeader s b c fres)),
    (0x100, wordBytes ((List.range 64).map (fun n => gRead c n))),
    (0x300, wordBytes (rgetN 0 c.ps 0 128)),
    (0x700, wordBytes ((List.range 8).flatMap (fun p => walkWords (rget {} c.walk p)))),
    (0x780, wordBytes (rgetN 0 c.tdesc 0 48)),
    (0x900, wordBytes (rgetN 0 c.fmt 0 16)),
    (0x980, wordBytes (rgetN 0 c.mp 0 8)),
    (0x9C0, laneBytes (rgetN 0 c.scr 0 32) ++ laneBytes (rgetN 0 c.scc 0 64)),
    (0xB40, wordBytes (maskWords 4 (fun h => hs.any (fun x => x.1 == h)))),
    (0xB60, wordBytes (maskWords 24 (fun r => c.lostR.any (fun x => x.1 == r)))) ] ++
  hs.map (fun x => (0x1000 + 16 * x.1, wordBytes [x.2.shape, attrWord x.2])) ++
  (if s.gv.owner == some c.task then
    [(0x2000, rgetN 0 s.gv.comp.image 0 8192 ++ rgetN 0 s.gv.idle.image 0 8192)] else []) ++
  (List.range 8).flatMap (fun k => match accTile c k with | some t => [(0x6000 + 10240 * k, accBytes s t)] | none => []) ++
  (windowRows c).map (fun r => (0x20000 + 128 * r, laneBytes (mrfRow s r))) ++
  handlePieces s hs 0x80000

/-- The address of a context slot (R451). -/
def slotAddr (s : State) (part slot : Nat) : Nat := bits (rget 0 s.dev.ctxarea part).toNat 63 20 * 2 ^ 20 + slot * 2 ^ 20

/-- A device range lies partly in a channel of HBM4E that has failed: a write to it is a memory error (R448, R502). -/
def onFailed (s : State) (h : HomeOf × Nat) : Bool :=
  h.1.1 == .dev && (List.range ((h.1.2.1 + h.2 - 1) / 2048 + 1 - h.1.2.1 / 2048)).any (fun k =>
    let p := hbmPlace (h.1.2.1 / 2048 * 2048 + 2048 * k)
    (rget {} s.dev.hbm (128 * p.1 + p.2.1 / 2 * 2)).failed)

/-- The pieces written; none where an address cannot be written or its memory fails. -/
def putPieces (part base : Nat) : List (Nat × List Byte) → State → Option State
  | [], s => some s
  | (off, bs) :: r, s =>
    match devRange .st part (base + off) bs.length s with
    | (some hs, s) => if hs.any (onFailed s) then none else putPieces part base r (putSegs s hs bs)
    | (none, _) => none

/-- The free slots of a partition's context area. -/
def freeSlots (s : State) (part : Nat) : List Nat :=
  (List.range (bits (rget 0 s.dev.ctxarea part).toNat 11 0)).filter (fun k =>
    s.dev.ctxlive.all (fun x => !(x.part == part && x.slot == k)))

/-- The lowest free slot of a partition's context area (R448). -/
def freeCtx (s : State) (part : Nat) : Option Nat := (freeSlots s part).head?

/-- The stream's task holds nothing back the save: its microprogram has ended, its register writes and CLD deliveries
have landed, and no job names one of its TASK handles (R447). -/
def saveSettled (s : State) (c : Stream) : Bool :=
  !c.micro.running && c.pend.isEmpty && s.gv.clds.all (fun x => x.task != c.task) &&
  !(s.gv.owner == some c.task && s.gv.idle.st == 1) &&
  (taskHandles s c.task).all (fun x => !jobNames s x.1)

/-- The ring that a save of this kind reports to: faults and traps to the launch fault queue, BREAK to the partition
event queue, none for CTXSV and evictions. -/
def saveRing (s : State) (c : Stream) (kind : Nat) : Option Nat :=
  let l := launchOf s c.launch
  if kind = 0 || kind = 1 then some (ringKey l.part 1 (bits (opWord l 0) 63 60))
  else if kind = 4 then some (ringKey l.part 0 0)
  else none

/-- The ring of the report has room, with no earlier record waiting for it (R478). -/
def saveRoom (s : State) (c : Stream) (kind : Nat) : Bool :=
  match saveRing s c kind with
  | some k => (ringRoom k s).1 && s.dev.ringWait.all (fun w => w.ring != k)
  | none => true

/-- The buffered bytes that a save publishes: those of its stream; a provisional task's stay (R149, R448). -/
def saveStores (c : Stream) (e : BufByte) : Bool := e.task == c.task && !e.prov

/-- The stream issues nothing more before its save: it has faulted or trapped; or it is at a group boundary, or in the
wait of CWAIT, BAR.WAIT or BARR, where the save is made before that op (R304, R306, R447, R460). -/
def saveHolds (c : Stream) : Bool :=
  match c.saveWant with
  | none => false
  | some kind => kind == 0 || kind == 1 || kind == 4 || !c.grpOpen || c.barGen.isSome ||
      (c.cw.isSome && (c.status == .stalled || c.status == .saving))

/-- The other stream faulted in the same cycle as primary and is saved first: its record takes the lower number (R460). -/
def savedAfter (s : State) (b : Bool) : Bool :=
  let c := strm s b
  let o := strm s (!b)
  s.gv.primary != b && hasTask c && hasTask o && c.saveWant == some 0 && o.saveWant == some 0 && c.stopAt == o.stopAt

/-- The save of a task may be made. -/
def saveReady (s : State) (c : Stream) : Bool :=
  match c.saveWant with
  | none => false
  | some kind =>
    saveHolds c && saveSettled s c && (freeCtx s (partOf s c)).isSome && saveRoom s c kind &&
    published (saveStores c) (publish (saveStores c) s)

/-- The fault record of a saved task: the PC of a trap is that of the bundle that trapped (R281, R446). -/
def saveRecord (s : State) (b : Bool) (c : Stream) (kind slot : Nat) : Rec :=
  let x := c.fstat.toNat
  if kind = 0 then taskRec s b c (bits x 31 16) c.faultCause (bits x 6 0) (bits x 47 42) c.faultAddr slot c.faultInfo
  else { taskRec s b c (if kind = 1 then fcode .swTrap else fcode .brkEvent) 0 0 0 0 slot c.faultInfo with pc := c.stopPc }

/-- What a launch's provisional tasks have left behind is given up: their jobs, and their buffered bytes (R194, R195). -/
def dropProv (n : Nat) (s : State) : State :=
  sweepHandles (flushBuf (modGv s (fun g => { g with
    jobs := g.jobs.filter (fun j => !(j.launch == n && j.prov)), wbuf := g.wbuf.filter (fun e => !(e.launch == n && e.prov)) })))

/-- A launch becomes FAULTED: its records are discarded, its images too, and their references and bank holds released
(R60, R460). Its running tasks are stopped. A shape that is pending is resolved no more: what is provisional is given up, and so are the
actions that its taps would take at the next flip (R184). Its records in MAILBOX queues stay until they are dequeued, as at a launch's
end (R55; DESIGN CHOICES, notes/assumptions/77.md). -/
def failLaunch (n : Nat) (s : State) : State :=
  let imgs := s.dev.ctxlive.filter (fun x => x.launch == n)
  let s := imgs.foldl (fun s x => dropRefs x.r2 (releaseBanks x.task (freeHandles (isTaskHandle x.task) s))) s
  let s := modDev s (fun d => { d with
    ctxlive := d.ctxlive.filter (fun x => x.launch != n)
    queues := d.queues.map (fun x => (x.1, if x.2.mailbox then x.2 else { x.2 with
      entries := x.2.entries.filter (fun e => recLaunch e.w3 != n) })) })
  let s := (s.gv.heldTasks.filter (fun c => c.launch == n)).foldl (fun s c => giveBack c s) s
  let s := modGv s (fun g => { g with heldTasks := g.heldTasks.filter (fun c => c.launch != n) })
  let s := endAway (fun a => a.launch == n) s
  let s := if hasTask s.st0 && s.st0.launch == n then endTask false s else s
  let s := if hasTask s.st1 && s.st1.launch == n then endTask true s else s
  let s := dropProv n (modDev s (fun d => { d with tapActs := d.tapActs.filter (fun a => a.1 != n) }))
  settleAll (modLaunch s n (fun l => { l with st := .faulted }))

/-- The context c of stream b saved into a slot: stores published, image written, handles freed, report sent (R448).
The caller makes the stream IDLE. -/
def saveContext (b : Bool) (c : Stream) (kind : Nat) (s : State) : State :=
  let part := partOf s c
  match freeCtx s part with
  | none => s
  | some slot =>
    let s := publish (saveStores c) s
    match putPieces part (slotAddr s part slot) (imagePieces s b c (kind == 0)) s with
    | none => launchCond c.launch .ctxLost (failLaunch c.launch s)
    | some s =>
      let x : SavedCtx := { part := part, slot := slot, task := c.task, launch := c.launch, phase := recPhase c.r3,
                            level := c.level, prov := c.prov, queue := c.queue, tile := tileOf s c, r2 := c.r2, strm := b,
                            barGen := c.barGen, barRes := c.barRes, cfmt := s.gv.comp.fmt, ifmt := s.gv.idle.fmt,
                            micro := c.micro, evicted := kind == 3, debtTrap := c.debtTrap, segOn := c.segOn, capped := c.capped,
                            overrun := c.overrun, ovr := c.ovr, lostG := c.lostG, lostR := c.lostR }
      let r := saveRecord s b c kind slot
      let s := freeHandles (fun h => isTaskHandle c.task h && !h.canopy) s
      let s := releaseArray c.task s
      let s := modDev s (fun d => { d with ctxlive := d.ctxlive ++ [x] })
      if kind = 0 || kind = 1 then sendLaunchFault c.launch r s
      else if kind = 4 then ringSend (ringKey part 0 0) (recWords r) s
      else s

/-- The urgent save of stream b's task, if it may be made now (R447, R448). -/
def saveStream (b : Bool) (s : State) : State :=
  let c := strm s b
  match c.saveWant with
  | none => s
  | some kind => if saveReady s c then idleStream b (saveContext b c kind s) else s

/-- A stream that waits for its save: STALLED where every condition holds but a free context slot, else SAVING; a faulted
one stays FAULTED (R448, R459). -/
def noteSaving (b : Bool) (s : State) : State :=
  let c := strm s b
  if saveHolds c && (c.status == .running || c.status == .stalled || c.status == .saving) then
    setStrm s b { c with status := if saveSettled s c && (freeCtx s (partOf s c)).isNone then .stalled else .saving }
  else s

/-- The urgent save of a task held with its fault, after its launch's resolution (R192). -/
def saveHeld (s : State) : State :=
  match s.gv.heldTasks.find? (fun c => !c.prov && saveReady s c) with
  | none => s
  | some c =>
    let s := modGv s (fun g => { g with heldTasks := g.heldTasks.erase c })
    saveContext c.wasStrm c (c.saveWant.getD 0) s

/-! ## Resume (R452) -/

/-- A 64-bit word of an image. -/
def imgWord (bs : List Byte) (off : Nat) : Word := leW (bs.drop off)

/-- Words of an image into a table of registers: their reserved bits stay zero (R7). -/
def imgTable (mask : Word) (bs : List Byte) (off n : Nat) : RMap Word :=
  (List.range n).foldl (fun m k => rset 0 m k (imgWord bs (off + 8 * k) &&& mask)) []

/-- The numbers set in a mask of an image. -/
def imgMask (bs : List Byte) (off n : Nat) : List Nat :=
  (List.range n).filter (fun k => bit (imgWord bs (off + k / 64 * 8)).toNat (k % 64))

/-- A position state of an image. -/
def imgPos (bs : List Byte) (off : Nat) : PosState :=
  let w := (imgWord bs (off + 8)).toNat
  { op := imgWord bs off, live := bit w 16, j := w % 2 ^ 16 }

/-- A walk position of an image. -/
def imgWalk (bs : List Byte) (off : Nat) : Walk :=
  let a := (imgWord bs off).toNat
  let b := (imgWord bs (off + 8)).toNat
  { idx := [bits a 15 0, bits a 31 16, bits a 47 32, bits a 63 48, bits b 15 0], kx := bits b 23 16, ky := bits b 31 24,
    ended := bit b 32 }

/-- Granules of the scratchpad that no handle holds (R95). -/
def freeGranules (s : State) : List Nat :=
  let used := s.gv.handles.flatMap (fun x => if x.2.alloc && !x.2.canopy then x.2.parts else [])
  (List.range 256).filter (fun g => !decide (g ∈ used))

/-- Physical accumulator tiles that no task maps: a task's end releases its tiles (R73, R74). -/
def freeTiles (s : State) : List Nat :=
  let used := (([s.st0, s.st1] ++ s.gv.heldTasks).filter hasTask).flatMap (fun c => c.amap.map (fun x => x.2 - 1))
  (List.range 24).filter (fun t => !decide (t ∈ used))

/-- The whole of an image, read by the device. -/
def readImage (part slot : Nat) (s : State) : Option (List Byte) × State := devLoad part (slotAddr s part slot) (2 ^ 20) s

/-- The bytes of an image as a read would find them. -/
def imageBytes (s : State) (part slot : Nat) : Option (List Byte) := (readImage part slot s).1

/-- A read of an image is held back by its bank (R505, R506). -/
def imageWaits (s : State) (part slot : Nat) : Bool :=
  match devRange .ld part (slotAddr s part slot) (2 ^ 20) s with
  | (some hs, t) => segHeld t hs
  | (none, t) => t.dev.waits && !s.dev.waits

/-- The Grove has the handle numbers and granules that an image needs, and the array is free where it needs it (R452). -/
def imageFits (s : State) (bs : List Byte) : Bool :=
  let hs := (imgMask bs 0xB40 256).filter (fun h => !bit (imgWord bs (0x1000 + 16 * h + 8)).toNat 1)
  hs.all (fun h => !(handleOf s h).alloc) &&
  decide ((hs.map (fun h => bits (imgWord bs (0x1000 + 16 * h + 8)).toNat 31 16)).sum ≤ (freeGranules s).length) &&
  (!bit (imgWord bs 0).toNat 44 || s.gv.owner.isNone) &&
  decide (bits (imgWord bs 0).toNat 30 23 = 0 || 8 ≤ (freeTiles s).length) &&
  (!bit (imgWord bs 0).toNat 46 || bits (imgWord bs 16).toNat 15 8 == s.gv.id)

/-- SPAD TASK handles allocated anew under their old numbers with their contents (R452). -/
def restoreHandles (x : SavedCtx) (bs : List Byte) : List Nat → Nat → State → State
  | [], _, s => s
  | h :: r, off, s =>
    let at1 := (imgWord bs (0x1000 + 16 * h + 8)).toNat
    if bit at1 1 then restoreHandles x bs r off s
    else
      let n := bits at1 31 16
      let hd : Handle := { alloc := true, wcode := bits at1 7 3, shape := imgWord bs (0x1000 + 16 * h), task := x.task,
                           launch := x.launch, parts := (freeGranules s).take n }
      let s := modGv s (fun g => { g with handles := rset {} g.handles h hd })
      restoreHandles x bs r (off + 2048 * n) (putHandleRange s hd 0 ((bs.drop off).take (handleBytes hd)))

/-- Accumulator tiles mapped anew with their contents. -/
def restoreAccs (bs : List Byte) : List Nat → RMap Nat → State → RMap Nat × State
  | [], m, s => (m, s)
  | k :: r, m, s =>
    let t := (((freeTiles s).filter (fun t => !(m.any (fun x => x.2 == t + 1)))).head?).getD 0
    let src := bs.drop (0x6000 + 10240 * k)
    let s := modGv s (fun g => { g with
      acc := (List.range 2048).foldl (fun a i => rset 0 a (2048 * t + i) (BitVec.ofNat 40 (leNat ((src.drop (5 * i)).take 5)))) g.acc })
    restoreAccs bs r (rset 0 m k (t + 1)) s

/-- A plane restored from an image. -/
def imgPlane (bs : List Byte) (off st typ : Nat) (fmt : Word) : Plane :=
  { st := st, typ := typ, fmt := fmt,
    image := (List.range 8192).foldl (fun m i => rset 0 m i ((bs.drop (off + i)).headD 0)) [] }

/-- The bits of word 3 of a record that are not reserved (R26). -/
def recMask : Word := 0xFFFFFFFFFFFFE000

/-- Lost marks of an image, with the addresses that the machine kept of them (R444, R450). -/
def lostMarks (kept : List (Nat × Word)) (ns : List Nat) : List (Nat × Word) :=
  ns.map (fun n => (n, match kept.find? (fun x => x.1 == n) with | some x => x.2 | none => 0))

/-- The banks of a task that resumes: every minimum from its earlier commands is met (R110). -/
def settleBanks (task : Nat) (s : State) : State :=
  modGv s (fun g => { g with banks := g.banks.map (fun x => (x.1,
    if x.2.holder == some task then { x.2 with tAct := none, tPre := none, tRef := none, tCld := none, tCst := none, tPlane := none }
    else x.2)) })

/-- The image taken into stream b (R452): every state of R449 and R450, reserved bits left out (R7), those of the record's word 3 too
(R26). The level, the ASID and the launch are the task's own, which no image changes (R419, R426). What a supervisor has written into the
image since CTXLD accepted it is taken so, field by field, without a second validation (DESIGN CHOICE, notes/assumptions/93.md). -/
def resumeInto (b : Bool) (x : SavedCtx) (bs : List Byte) (s : State) : State :=
  let w (k : Nat) : Word := imgWord bs (8 * k)
  let h0 := (w 0).toNat
  let r3 := withField (w 7) 46 6 x.launch &&& recMask
  let l := launchOf s x.launch
  let s := restoreHandles x bs (imgMask bs 0xB40 256) 0x80000 s
  let (amap, s) := restoreAccs bs ((List.range 8).filter (fun k => bit h0 (23 + k))) [] s
  let s := if bit h0 44 then modGv s (fun g => { g with
      owner := some x.task
      comp := if bit h0 41 then imgPlane bs 0x2000 2 (bits h0 40 36) x.cfmt else {}
      idle := if bits h0 43 42 = 0 then {} else imgPlane bs 0x4000 2 (bits h0 35 31) x.ifmt }) else s
  let rows := if recNowin r3 then []
    else ((List.range (32 * (recMwl r3 + 1 - recMwb r3))).map (fun r => 32 * recMwb r3 + r)).filter (fun r => decide (r < 1536))
  let s := rows.foldl (fun s r => setRow s r (bytesLanes 32 (bs.drop (0x20000 + 128 * r)))) s
  let s := (devStore x.part (slotAddr s x.part x.slot) (natLe 8 (withField (w 0) 47 1 0).toNat) s).getD s
  let s := modDev s (fun d => { d with ctxlive := d.ctxlive.filter (fun y => !(y.part == x.part && y.slot == x.slot)) })
  let lcs := (List.range 8).foldl (fun m k => rset 0 m k (BitVec.ofNat 32 (bits (w (16 + k / 2)).toNat (32 * (k % 2) + 31) (32 * (k % 2))))) []
  let c : Stream := {
    status := .running, task := x.task, pc := w 1, ridx := bits (w 2).toNat 5 0,
    g := (List.range 64).foldl (fun m n => if n = 0 then m else rset 0 m n (imgWord bs (0x100 + 8 * n))) [],
    lostG := lostMarks x.lostG ((imgMask bs (8 * 15) 64).filter (fun n => n != 0)), lostR := lostMarks x.lostR (imgMask bs 0xB60 1536),
    level := opPriv l, asid := opAsid l, launch := x.launch, queue := opQueue l,
    r0 := w 4, r1 := w 5, r2 := if x.prov then w 6 else withField (w 6) 3 1 0, r3 := r3, prov := x.prov,
    lc := lcs, skipp := w 14, fmt := imgTable fmtMask bs 0x900 16, tdesc := imgTable tdescMask bs 0x780 48, mp := imgTable allOnes bs 0x980 8,
    ps := imgTable allOnes bs 0x300 128, portmap := w 13 &&& portmapMask,
    walk := (List.range 8).foldl (fun m p => rset {} m p (imgWalk bs (0x700 + 16 * p))) [],
    flags := w 10 &&& flagsMask, mxc := w 11, seqstat := w 12 &&& seqMask, fstat := w 9 &&& fstatMask,
    v0 := imgPos bs 160, v1 := imgPos bs 176, m := imgPos bs 192, c := imgPos bs 208,
    allow := bits (w 8).toNat 15 0, used := bits (w 8).toNat 47 16, segOn := x.segOn,
    capped := x.capped, overrun := x.overrun && !capActs s.gv, ovr := x.ovr, debtTrap := x.debtTrap, amap := amap,
    scr := (List.range 32).foldl (fun m k => rset 0 m k (BitVec.ofNat 32 (leNat ((bs.drop (0x9C0 + 4 * k)).take 4)))) [],
    scc := (List.range 64).foldl (fun m k => rset 0 m k (BitVec.ofNat 32 (leNat ((bs.drop (0xA40 + 4 * k)).take 4)))) [],
    micro := x.micro, barGen := x.barGen, barRes := x.barRes }
  fixPrimary (setStrm (settleBanks x.task s) b { c with queue := x.queue })

/-! ## Dispatch and arbitration -/

/-- The task-end value (R28, R272). -/
def taskEnd : Word := 0x61FFFFFFFFFFFFF8

/-- The stream context that a record's task begins with (R28). -/
def freshStream (s : State) (q : Nat) (e : QEntry) : Stream :=
  let n := recLaunch e.w3
  let l := launchOf s n
  let g := rset 0 (rset 0 (rset 0 (rset 0 [] 62 taskEnd) 61 (l.fbase + w64 (16 * recFrameoff e.w1))) 60 (w64 (tile48 e.w1 e.w2))) 59
    (w64 (bits e.w3.toNat 33 26 * 2 ^ 12 + bits e.w3.toNat 45 34))
  { status := .running, task := s.gv.nextTask, pc := w64 (opWord l 2) + w64 (8 * recCodeoff e.w0), g := g,
    level := opPriv l, asid := opAsid l, launch := n, queue := q, r0 := e.w0, r1 := e.w1, r2 := e.w2, r3 := e.w3,
    prov := recProv e.w2 && pendingShape l, allow := recSrun e.w2 }

/-- A record dispatched into stream b (R28, R30): an acquire where it is marked released or names a weight handle, whose pages the
Orchard has written (R139, R489). -/
def dispatch (b : Bool) (q : Nat) (e : QEntry) (s : State) : State :=
  let c := freshStream s q e
  let s := takeRefs e.w2 (modGv s (fun g => { g with nextTask := g.nextTask + 1 }))
  let s := if e.released || !(recHandles e.w2).isEmpty then dropPath0 s else s
  fixPrimary (setStrm (modGv s (fun g => { g with capcyc := 0 })) b c)

/-- The saved context that a resume entry of a queue names. -/
def entryCtx (s : State) (e : QEntry) : Option SavedCtx :=
  match e.resume with
  | none => none
  | some k => s.dev.ctxlive.find? (fun x => x.slot == k && x.launch == recLaunch e.w3)

/-- A resume entry that stream b may take (R452). -/
def resumable (s : State) (k : Queue) (b : Bool) (e : QEntry) : Bool :=
  match entryCtx s e with
  | none => false
  | some x =>
    (launchOf s x.launch).st == .active && admits s k b e &&
    (match imageBytes s x.part x.slot with | some bs => imageFits s bs | none => false)

/-- A candidate of queue q for stream b: its resume entry taken ahead of a head of equal effective rank (R44, R452). -/
def candOf (s : State) (b : Bool) (q : Nat) : Option QEntry :=
  let k := queueOf s q
  let h := (headOf s k b).filter (fun e => fits s q k e)
  match k.entries.find? (fun e => e.resume.isSome && resumable s k b e), h with
  | some r, some e => if effRank s e ≤ effRank s r then some r else some e
  | some r, none => some r
  | none, h => h

/-- A candidate a is taken before b: by effective rank, then by queue order from RPTR (R46). -/
def takesBefore (s : State) (a b : Nat × QEntry) : Bool :=
  let d (q : Nat) : Nat := (q + 256 - s.gv.rptr) % 256
  decide (effRank s a.2 > effRank s b.2) || (effRank s a.2 == effRank s b.2 && decide (d a.1 < d b.1))

/-- The arbiter's choice for stream b. -/
def choose (s : State) (b : Bool) : Option (Nat × QEntry) :=
  (s.dev.queues.filterMap (fun x => (candOf s b x.1).map (fun e => (x.1, e)))).foldl (fun r x =>
    match r with
    | none => some x
    | some y => if takesBefore s x y then some x else some y) none

/-- The arbiter serves stream b if it is idle (R46). -/
def arbitrateStream (b : Bool) (s : State) : State :=
  if hasTask (strm s b) then s
  else
    match choose s b with
    | none => s
    | some (q, e) =>
      let s := modGv s (fun g => { g with rptr := (q + 1) % 256 })
      let s := settleQueue q (modQueue s q (fun k => { k with entries := k.entries.erase e }))
      match entryCtx s e with
      | some x =>
        (match readImage x.part x.slot s with
         | (some bs, s) => resumeInto b x bs s
         | (none, s) => s)
      | none => dispatch b q e s

end Sys2Proof.Machine
end

