-- ==== Sys2Proof/Machine/Flags.lean ====
section
/-!
DEFINITION. Every flag computation: how an issue's contributions reach FLAGS, MXC and SEQSTAT (R86 to R88, R91, R171,
R172), how a job's and a microprogram run's do (R86, R375, R383), and the guard test of an op (R63).
-/

namespace Sys2Proof.Machine

/-- Counts added to MXC, each field saturating at 0xFFFF (R88). -/
def mxcAdd (m : Word) (k : MxcCnt) : Word :=
  let f (lo n : Nat) : Nat := satAdd 0xFFFF (bits m.toNat (lo + 15) lo) n
  w64 (f 48 k.accof * 2 ^ 48 + f 32 k.nanacc * 2 ^ 32 + f 16 k.drsat * 2 ^ 16 + f 0 k.msksp)

/-- Generation events merged into SEQSTAT: bits ORed, NANCNT saturating (R91). -/
def seqAdd (m : Word) (ev : Word) (nan : Nat) : Word :=
  w64 (satAdd 0xFFFF (bits m.toNat 63 48) nan * 2 ^ 48) ||| ((m ||| ev) &&& 7)

/-- The sum of two counts. -/
def MxcCnt.plus (a b : MxcCnt) : MxcCnt :=
  { accof := a.accof + b.accof, nanacc := a.nanacc + b.nanacc, drsat := a.drsat + b.drsat, msksp := a.msksp + b.msksp }

/-- The contributions of an issue folded in at its commit, after any MOVS of the same issue (R86). -/
def foldFlags (c : Stream) : Stream :=
  { c with
    flags := c.flags ||| (c.iflags &&& 0x3F)
    mxc := mxcAdd c.mxc c.imxc
    seqstat := seqAdd c.seqstat c.iseq c.inan
    iflags := 0, imxc := {}, iseq := 0, inan := 0 }

/-- FLAGS bits raised by the op in issue. -/
def raise (f : Word) (s : State) : State := modCur s (fun c => { c with iflags := c.iflags ||| f })

/-- MXC events counted by the op in issue. -/
def countMxc (k : MxcCnt) (s : State) : State := modCur s (fun c => { c with imxc := c.imxc.plus k })

/-- Generation events of the op in issue. -/
def raiseSeq (ev : Word) (nan : Nat) (s : State) : State :=
  modCur s (fun c => { c with iseq := c.iseq ||| ev, inan := c.inan + nan })

/-- The flags of a job reach the issuing task if it still runs in a stream of the Grove, and the launch's job-flag word
otherwise (R86, R383, R443). -/
def jobFlags (task launch : Nat) (f : Word) (s : State) : State :=
  if s.st0.task = task ∧ hasTask s.st0 then { s with st0 := { s.st0 with flags := s.st0.flags ||| (f &&& 0x3F) } }
  else if s.st1.task = task ∧ hasTask s.st1 then { s with st1 := { s.st1 with flags := s.st1.flags ||| (f &&& 0x3F) } }
  else modLaunch s launch (fun l => { l with jobFlags := l.jobFlags ||| (f &&& 0x3F) })

/-- The flags and counts of a microprogram run, made once when it ends (R375). -/
def foldMicro (c : Stream) : Stream :=
  { c with
    flags := c.flags ||| (c.micro.flags &&& 0x3F)
    mxc := mxcAdd c.mxc c.micro.mxc
    micro := { c.micro with flags := 0, mxc := {} } }

/-- The guard test of R63: with GE, bit GBIT of G[GREG] selects, and GN inverts the choice. -/
def guardOn (c : Stream) (q : Guard) : Bool :=
  !q.ge || (bit (gRead c q.greg.toNat).toNat q.gbit.toNat != q.gn)

end Sys2Proof.Machine
end

