-- ==== Sys2Proof/Machine/Exec.lean ====
section
/-!
DEFINITION. One op issued alone by the acting stream: its guard (R63), its effect, and the three things that can become
of it: its commit, its fault, its wait. A bundle of several ops is in Machine/Issue.lean; an op alone moves no position
state and no time (notes/assumptions/4.md).
-/

namespace Sys2Proof.Machine

/-- The number of a position in FSTAT.MASK (R89). -/
def posNum : Pos → Nat
  | .s0 => 0 | .s1 => 1 | .v0 => 2 | .v1 => 3 | .m => 4 | .c => 5 | .b => 6

/-- A result lands (R286): its registers are written and its flags ORed (R295), or, where its memory was uncorrectable,
its registers are marked lost (R444). -/
def landOne (b : Bool) (p : Pending) (s : State) : State :=
  let c := strm s b
  if p.ue then
    setStrm s b { c with
      lostG := p.gdst.map (fun x => (x.1, p.addr)) ++ c.lostG.filter (fun n => !p.gdst.any (fun x => x.1 == n.1))
      lostR := ((p.mdst.map (fun x => x.1 / 32)).eraseDups).map (fun r => (r, p.addr)) ++
        c.lostR.filter (fun n => !p.mdst.any (fun x => x.1 / 32 == n.1))
      flags := c.flags ||| p.flags }
  else
    let c := p.gdst.foldl (fun c x => gWrite c x.1 x.2) c
    let c := { c with flags := c.flags ||| p.flags,
                      lostR := c.lostR.filter (fun r => !p.mdst.any (fun x => x.1 / 32 == r.1)) }
    let s := setStrm s b c
    modGv s (fun g => { g with mrf := p.mdst.foldl (fun m x => rset 0 m x.1 x.2) g.mrf })

/-- Every result of a stream lands. -/
def landAll (b : Bool) (s : State) : State :=
  let s := (strm s b).pend.foldl (fun s p => landOne b p s) s
  setStrm s b { strm s b with pend := [] }

/-- The m position may issue in this cycle: at most once a cycle, and as the matrix cap lets it (R235, R509). -/
def capReady (s : State) : Bool :=
  match s.gv.lastM with
  | none => true
  | some t => decide (t + max 1 (2 * s.gv.mcap) ≤ s.now)

/-- The m position issues in this cycle. -/
def noteM (s : State) : State := modGv s (fun g => { g with lastM := some s.now })

/-- Every load, register write and CLD delivery of a stream's task has landed, and its microprogram has ended (R280). -/
def allLanded (s : State) (c : Stream) : Bool :=
  c.pend.isEmpty && !c.micro.running && s.gv.clds.all (fun m => m.task != c.task)

/-- What follows the commit of an issue: the task ends where END, CONT, RET to the task-end value or ERET acted (R279,
R280, R457), or stops for its save after a trap (R281). What the ending bundle itself has left outstanding lands first:
the stream waits for it (R280). -/
def settleIssue (b : Bool) (s : State) : State :=
  let c := strm s b
  if c.ending then
    if !allLanded s c then setStrm s b { c with status := .stalled }
    else
    let t := endTask b s
    match c.eretTo with
    | none => t
    | some k =>
      match t.dev.ctxlive.find? (fun x => x.part == partOf s c && x.slot == k) with
      | none => t
      | some x => match readImage x.part x.slot t with
        | (some bs, t) => resumeInto b x bs t
        | (none, t) => t
  else if c.status == .running && c.saveWant.isSome && c.saveWant != some 2 && c.saveWant != some 3 then stopTask b c .saving s
  else s

/-- The commit of an op issued alone. -/
def commitOne (s : State) : State :=
  settleIssue s.sel (modCur s (fun c => { foldFlags c with
    pc := c.npc.getD c.pc
    npc := none
    hand := []
    status := if c.status == .stalled then .running else c.status }))

/-- The wait of an op: its effect, and the stream STALLED (R59). -/
def waitOne (eff : State → State) (s : State) : State :=
  modCur (eff s) (fun c => if c.status == .running then { c with status := .stalled } else c)

/-- An op issued alone in position p under its guard. -/
def issueOne (p : Pos) (q : Guard) (op : OpM) (s : State) : Host.Outcome State Fault Refusal :=
  if guardOn (cur s) q then
    match op { pos := p, j := 0, rd := seen s } s with
    | .ok t => .next (commitOne t)
    | .error (.fault f) => .next (takeFault s.sel (2 ^ posNum p) f s)
    | .error (.stall eff) => .next (waitOne eff s)
  else .next s

end Sys2Proof.Machine
end

