-- ==== Sys2Proof/Machine/Mem.lean ====
section
/-!
DEFINITION. Loads and stores of position c (R285 to R292): scalar forms, vector forms, gathers and scatters, and the
landing of what they loaded (R286, R444).
-/

namespace Sys2Proof.Machine

/-! ## Scalar forms (R289) -/

/-- A load of n bytes into G[D], sign-extended or zero-extended (R285, R289). -/
def opLoad (n : Nat) (signed : Bool) (d a : Reg) (off : BitVec 14) : OpM := fun x s0 => do
  let ea ← effAddr (gr x a) off.toInt
  let (bs, ue, s) ← loadBytes ea n s0
  let v : Word := if signed then BitVec.ofInt 64 (sextI (leNat bs) (8 * n)) else w64 (leNat bs)
  pendG s0 s d v ue ea

/-- A store of the low n bytes of G[D] (R289). -/
def opStore (n : Nat) (d a : Reg) (off : BitVec 14) : OpM := fun x s => do
  let ea ← effAddr (gr x a) off.toInt
  storeBytes ea (natLe n (grN x d)) s

/-- LD.B (R289). -/
def opLdB (d a : Reg) (off : BitVec 14) : OpM := opLoad 1 true d a off
def execLdB (q : Guard) (d a : Reg) (off : BitVec 14) (s : State) : Host.Outcome State Fault Refusal := issueOne .c q (opLdB d a off) s

/-- LD.H (R289). -/
def opLdH (d a : Reg) (off : BitVec 14) : OpM := opLoad 2 true d a off
def execLdH (q : Guard) (d a : Reg) (off : BitVec 14) (s : State) : Host.Outcome State Fault Refusal := issueOne .c q (opLdH d a off) s

/-- LD.W (R289). -/
def opLdW (d a : Reg) (off : BitVec 14) : OpM := opLoad 4 true d a off
def execLdW (q : Guard) (d a : Reg) (off : BitVec 14) (s : State) : Host.Outcome State Fault Refusal := issueOne .c q (opLdW d a off) s

/-- LD.D (R289). -/
def opLdD (d a : Reg) (off : BitVec 14) : OpM := opLoad 8 true d a off
def execLdD (q : Guard) (d a : Reg) (off : BitVec 14) (s : State) : Host.Outcome State Fault Refusal := issueOne .c q (opLdD d a off) s

/-- LD.N.B (R289). -/
def opLdNB (d a : Reg) (off : BitVec 14) : OpM := opLoad 1 false d a off
def execLdNB (q : Guard) (d a : Reg) (off : BitVec 14) (s : State) : Host.Outcome State Fault Refusal := issueOne .c q (opLdNB d a off) s

/-- LD.N.H (R289). -/
def opLdNH (d a : Reg) (off : BitVec 14) : OpM := opLoad 2 false d a off
def execLdNH (q : Guard) (d a : Reg) (off : BitVec 14) (s : State) : Host.Outcome State Fault Refusal := issueOne .c q (opLdNH d a off) s

/-- LD.N.W (R289). -/
def opLdNW (d a : Reg) (off : BitVec 14) : OpM := opLoad 4 false d a off
def execLdNW (q : Guard) (d a : Reg) (off : BitVec 14) (s : State) : Host.Outcome State Fault Refusal := issueOne .c q (opLdNW d a off) s

/-- ST.B (R289). -/
def opStB (d a : Reg) (off : BitVec 14) : OpM := opStore 1 d a off
def execStB (q : Guard) (d a : Reg) (off : BitVec 14) (s : State) : Host.Outcome State Fault Refusal := issueOne .c q (opStB d a off) s

/-- ST.H (R289). -/
def opStH (d a : Reg) (off : BitVec 14) : OpM := opStore 2 d a off
def execStH (q : Guard) (d a : Reg) (off : BitVec 14) (s : State) : Host.Outcome State Fault Refusal := issueOne .c q (opStH d a off) s

/-- ST.W (R289). -/
def opStW (d a : Reg) (off : BitVec 14) : OpM := opStore 4 d a off
def execStW (q : Guard) (d a : Reg) (off : BitVec 14) (s : State) : Host.Outcome State Fault Refusal := issueOne .c q (opStW d a off) s

/-- ST.D (R289). -/
def opStD (d a : Reg) (off : BitVec 14) : OpM := opStore 8 d a off
def execStD (q : Guard) (d a : Reg) (off : BitVec 14) (s : State) : Host.Outcome State Fault Refusal := issueOne .c q (opStD d a off) s

/-- Every request that a result waits for has been served (R505, R514). -/
def landReady (s : State) (p : Pending) : Bool := p.asks.all (askServed s)

/-- The oldest result of a stream whose requests are served lands. -/
def landNext (b : Bool) (s : State) : State :=
  match (strm s b).pend.find? (landReady s) with
  | none => s
  | some p => landOne b p (setStrm s b { strm s b with pend := (strm s b).pend.erase p })

/-- A held task that ran in stream b and for which a result can land (R192, R286). -/
def heldPend (b : Bool) (s : State) : Option Stream :=
  s.gv.heldTasks.find? (fun c => c.wasStrm == b && c.pend.any (landReady s))

/-- LOAD_COMPLETE: the oldest result of a stream's task whose requests are served lands, or one of a held task that ran
there (R286, R444). -/
def execLoadComplete (b : Bool) (s : State) : Host.Outcome State Fault Refusal :=
  .next (if (strm s b).pend.any (landReady s) then landNext b s
    else match heldPend b s with
      | some c => withHeld c (landNext b) s
      | none => s)

/-! ## Vector forms (R291, R292) -/

/-- The enabled lanes of a mask register; register 0 enables all (R291). -/
def laneMask (x : OpCtx) (msk : Reg) : List Nat :=
  if msk = 0 then List.range 32 else (List.range 32).filter (fun k => bit (grN x msk) k)

/-- The address of lane k of a 128-byte vector at ea: a lane beyond bits [56:0] is a path fault (R113). -/
def laneAddr (ea k : Nat) : Except (Stop State) Nat :=
  if lowOf ea + 4 * k + 4 > 2 ^ 57 then faultWith .pathFault 0 (w64 ea) else .ok (ea + 4 * k)

/-- The pending lanes of a row, column or diagonal. -/
def pendLanes (dir idx : Nat) (vs : List (Nat × Lane)) : List (Nat × Lane) :=
  vs.map (fun v => let p := place dir idx v.1; (32 * p.1 + p.2, v.2))

/-- The step of an LDV or STV address (R226). -/
def addrStep (x : OpCtx) (off : BitVec 14) (step : Bool) : Int := off.toInt + (if step then 128 * x.j else 0)

/-- LDV (R291). -/
def opLdv (m : Mrf) (a : Reg) (off : BitVec 14) (step : Bool) : OpM := fun x s0 => do
  let (dir, idx) ← destOpnd x m step
  let ea ← effAddr (gr x a) (addrStep x off step)
  provWait (cur s0) .ld ea
  alignedTo 4 ea
  let (bs, ue, s) ← loadBytes ea 128 s0
  addPend s0 s { mdst := pendLanes dir idx ((List.range 32).zip (bytesLanes 32 bs)), ue := ue, addr := w64 ea, accs := [ea] }
def execLdv (q : Guard) (m : Mrf) (a : Reg) (off : BitVec 14) (step : Bool) (s : State) : Host.Outcome State Fault Refusal :=
  issueOne .c q (opLdv m a off step) s

/-- Lanes stored one by one in ascending order, the address of each computed and checked as its turn comes (R291,
R292). -/
def storeLanes (addr : Nat → Except (Stop State) Nat) : List (Nat × Lane) → State → Except (Stop State) State
  | [], s => .ok s
  | (k, v) :: r, s => do
    let a ← addr k
    let s ← storeBytes a (natLe 4 v.toNat) s
    storeLanes addr r s

/-- STV: the enabled lanes at their places; a lane masked off is neither accessed nor checked (R291). -/
def opStv (m : Mrf) (msk a : Reg) (off : BitVec 14) (step : Bool) : OpM := fun x s => do
  let ea ← effAddr (gr x a) (addrStep x off step)
  provWait (cur s) .st ea
  alignedTo 4 ea
  let (ls, s) ← readOpnd x m step s
  let on := laneMask x msk
  if on.length = 32 then storeBytes ea (laneBytes ls) s
  else storeLanes (laneAddr ea) (on.map (fun k => (k, ls.getD k 0))) s
def execStv (q : Guard) (m : Mrf) (msk a : Reg) (off : BitVec 14) (step : Bool) (s : State) :
    Host.Outcome State Fault Refusal := issueOne .c q (opStv m msk a off step) s

/-- The index and data rows of a gather or scatter, both in the window (R292). -/
def pairRows (x : OpCtx) (m : Mrf) (step : Bool) : Except (Stop State) Nat := do
  let n := stepIdx m x.j step
  idxCheck (cur x.rd) n
  idxCheck (cur x.rd) (n + 1)
  return n

/-- The address of an element that lane k of the index row names, for a kind of access (R190, R292). -/
def elemAddr (x : OpCtx) (kind : AKind) (a : Reg) (off : BitVec 14) (n k : Nat) : Except (Stop State) Nat := do
  let ea ← effAddr (gr x a) (off.toInt + 4 * (mrfLane x.rd n k).toInt)
  provWait (cur x.rd) kind ea
  alignedTo 4 ea
  return ea

/-- The lanes of a gather loaded in ascending order. -/
def gatherLanes (x : OpCtx) (a : Reg) (off : BitVec 14) (n : Nat) : List Nat → State →
    Except (Stop State) (List (Nat × Lane) × Option Nat × State)
  | [], s => .ok ([], none, s)
  | k :: r, s => do
    let ea ← elemAddr x .ld a off n k
    let (bs, ue, s) ← loadBytes ea 4 s
    let (vs, lost, s) ← gatherLanes x a off n r s
    return ((k, BitVec.ofNat 32 (leNat bs)) :: vs, if ue then some ea else lost, s)

/-- LDVX (R292). -/
def opLdvx (m : Mrf) (msk a : Reg) (off : BitVec 14) (step : Bool) : OpM := fun x s0 => do
  let n ← pairRows x m step
  let (vs, lost, s) ← gatherLanes x a off n (laneMask x msk) s0
  let accs := (laneMask x msk).filterMap (fun k => (elemAddr x .ld a off n k).toOption)
  addPend s0 s { mdst := pendLanes 0 (n + 1) vs, ue := lost.isSome, addr := w64 (lost.getD 0), accs := accs }
def execLdvx (q : Guard) (m : Mrf) (msk a : Reg) (off : BitVec 14) (step : Bool) (s : State) :
    Host.Outcome State Fault Refusal := issueOne .c q (opLdvx m msk a off step) s

/-- STVX: where two lanes name one address the higher lane prevails (R292). -/
def opStvx (m : Mrf) (msk a : Reg) (off : BitVec 14) (step : Bool) : OpM := fun x s => do
  let n ← pairRows x m step
  storeLanes (elemAddr x .st a off n) ((laneMask x msk).map (fun k => (k, mrfLane x.rd (n + 1) k))) s
def execStvx (q : Guard) (m : Mrf) (msk a : Reg) (off : BitVec 14) (step : Bool) (s : State) :
    Host.Outcome State Fault Refusal := issueOne .c q (opStvx m msk a off step) s

/-! ## Prefetch (R298, R438) -/

/-- A hint dropped and counted (R425). -/
def dropHint (s : State) : State := modGv s (fun g => { g with hintdrop := satAdd 0xFFFFFFFF g.hintdrop 1 })

/-- A line brought into the L1 where it is not held. No line of path 0x0 with the same home stays, which might hold older bytes
(R129). -/
def fillLine (line : L1Line) (s : State) : State :=
  if s.gv.l1.any (fun l => l.asid == line.asid && l.tag == line.tag) then s else putLine line (dropLine line.home s)

/-- The line of a translated address brought into the level named and those below it, on the paths that have them: the L1 and the L2
on paths 0x0 and 0x1 alone, for a page that is not UC (R298). -/
def prefetch (lvl : BitVec 6) (ea : Nat) (h : HomeOf) (s : State) : State :=
  let upper := decide (pathOf ea ≤ 1) && !h.2.2
  let s := if pathOf ea ≤ 2 && h.1 == .dev then touchThrough (upper && decide (lvl ≤ 1)) (h.2.1 / 128) s else s
  if upper && decide (lvl = 0) && !ueIn s h.1 (h.2.1 - h.2.1 % 128) 128 then fillLine (lineOf (seen s) (cur s).asid ea h.1 h.2.1) s else s

/-- PREF: the line of EA is brought into the levels named; it changes no loaded value, and every failure drops it. Where its page
misses in the L2 TLB and the miss file is full, a free choice, it is dropped too, and no walk is begun (R298, R434, R438). -/
def opPref (lvl : BitVec 6) (a : Reg) (off : BitVec 14) : OpM := fun x s =>
  match effAddr (gr x a) off.toInt with
  | .error _ => .ok (dropHint s)
  | .ok ea =>
    let c := cur s
    let full := takeKeep Config.missFull s
    if (addrCheck .ld ea 1).toOption.isNone || pathOf ea == 6 then .ok (dropHint s)
    else if !(translateAt .ld c.asid c.level (partOf s c) ea s).1.2.isEmpty && full.1 then .ok (dropHint full.2)
    else
      match translate .ld c.asid c.level (partOf s c) ea s with
      | (.error _, t) => .ok (dropHint t)
      | (.ok h, t) => .ok (prefetch lvl ea h t)
def execPref (q : Guard) (lvl : BitVec 6) (a : Reg) (off : BitVec 14) (s : State) : Host.Outcome State Fault Refusal :=
  issueOne .c q (opPref lvl a off) s

end Sys2Proof.Machine
end

