-- ==== Sys2Proof/Machine/Handles.lean ====
section
/-!
DEFINITION. Tile handles and the launch arena (R94 to R99, R312 to R314).
-/

namespace Sys2Proof.Machine

/-- The lowest handle number that is not allocated. -/
def freeHandle (s : State) : Option Nat := (List.range 256).find? (fun h => !(handleOf s h).alloc)

/-- The rows of a bank's tile-handle share (R96, R522). -/
def bankShare (s : State) (bank : Nat) : Nat := 512 - rget 0 s.dev.pools (32 * s.gv.id + bank)

/-- Bank and row of every allocated row of CANOPY handles. -/
def usedRows (s : State) : List (Nat × Nat) :=
  s.gv.handles.flatMap (fun x =>
    if x.2.alloc && x.2.canopy then (List.range x.2.parts.length).map (ordinalPlace x.2.fbank x.2.parts) else [])

/-- Rows picked for ordinals j, j + 1, …: the lowest free row of each bank's share (R96). -/
def pickRows (s : State) (fbank : Nat) : Nat → Nat → List (Nat × Nat) → Option (List Nat)
  | 0, _, _ => some []
  | n + 1, j, used =>
    let bank := (fbank + j) % 32
    match (List.range (bankShare s bank)).find? (fun r => !decide ((bank, r) ∈ used)) with
    | none => none
    | some r => (pickRows s fbank n (j + 1) ((bank, r) :: used)).map (fun rs => r :: rs)

/-- The storage of a new handle: granules or rows; none where there is no room (R95, R96, R98). -/
def pickParts (s : State) (canopy : Bool) (fbank bytes : Nat) : Option (List Nat) :=
  if canopy then (if bytes > 32 * 512 * 8192 then none else pickRows s fbank (cdiv bytes 8192) 0 (usedRows s))
  else
    let n := cdiv bytes 2048
    if n ≤ (freeGranules s).length then some ((freeGranules s).take n) else none

/-- Every dimension of a shape word is from 1 to 65,535 (R94, R98). -/
def shapeOk (w : Word) : Bool := [0, 1, 2, 3].all (fun k => bits w.toNat (16 * k + 15) (16 * k) != 0)

/-- TALLOC (R98, R312). -/
def opTalloc (d a : Reg) (canopy launchLife : Bool) (fbank wcode : BitVec 5) : OpM := fun x s => do
  let c := cur x.rd
  let sh := gr x a
  need (shapeOk sh) .illegalEnc
  let h : Handle := { alloc := true, canopy := canopy, launchLife := launchLife, wcode := wcode.toNat, shape := sh,
                      fbank := fbank.toNat, task := c.task, launch := c.launch,
                      prov := c.prov, tile := tileOf x.rd c }
  match freeHandle s, pickParts s canopy fbank.toNat (handleBytes h) with
  | some n, some ps =>
    return setG (modGv s (fun g => { g with handles := rset {} g.handles n { h with parts := ps } })) d (w64 n)
  | _, _ => return setG s d allOnes
def execTalloc (q : Guard) (d a : Reg) (canopy launchLife : Bool) (fbank wcode : BitVec 5) (s : State) :
    Host.Outcome State Fault Refusal := issueOne .c q (opTalloc d a canopy launchLife fbank wcode) s

/-- A CANOPY handle has a row open in one of its banks (R98). -/
def rowOpen (s : State) (h : Handle) : Bool :=
  h.canopy && (List.range h.parts.length).any (fun j =>
    (rget {} s.gv.banks (ordinalPlace h.fbank h.parts j).1).openRow.isSome)

/-- TFREE (R97, R98, R313). -/
def opTfree (a : Reg) : OpM := fun x s => do
  let n := grN x a
  let h := handleOf s n
  need (decide (n < 256) && usable h (cur x.rd)) .tileRange
  need (!rowOpen s h) .canopyState
  return sweepHandles (modGv s (fun g => { g with handles := rset {} g.handles n { h with freed := true } }))
def execTfree (q : Guard) (a : Reg) (s : State) : Host.Outcome State Fault Refusal := issueOne .c q (opTfree a) s

/-- TQRY never faults on its handle (R99, R313). -/
def opTqry (d a : Reg) (sel : BitVec 2) : OpM := fun x s =>
  let n := grN x a
  let h := handleOf (seen s) n
  .ok (setG s d (if decide (n < 256) && usable h (cur x.rd) then (if sel = 0 then h.shape else attrWord h) else 0))
def execTqry (q : Guard) (d a : Reg) (sel : BitVec 2) (s : State) : Host.Outcome State Fault Refusal :=
  issueOne .c q (opTqry d a sel) s

/-- The arena takes n bytes more (R314). -/
def arenaRoom (l : Launch) (n : Nat) : Bool :=
  decide (n ≤ 2 ^ 32) && decide (l.arenaTop + 256 * cdiv n 256 ≤ opArena l + opArenaSize l)

/-- n bytes of a launch's arena taken for a tile (R314). -/
def arenaTake (launch n tile : Nat) (s : State) : State :=
  modLaunch s launch (fun l => { l with
    arenaTop := l.arenaTop + 256 * cdiv n 256, allocs := l.allocs ++ [(l.arenaTop, 256 * cdiv n 256, tile)] })

/-- BALLOC (R314). -/
def opBalloc (d a : Reg) : OpM := fun x s =>
  let c := cur x.rd
  let l := launchOf s c.launch
  let n := grN x a
  .ok (if n = 0 then setG s d (w64 (launchOf (seen s) c.launch).arenaTop)
    else if arenaRoom l n then setG (arenaTake c.launch n (tileOf x.rd c) s) d (w64 l.arenaTop)
    else setG s d allOnes)
def execBalloc (q : Guard) (d a : Reg) (s : State) : Host.Outcome State Fault Refusal := issueOne .c q (opBalloc d a) s

end Sys2Proof.Machine
end

