-- ==== Sys2Proof/Machine/Canopy.lean ====
section
/-!
DEFINITION. The canopy (R96, R100 to R110, R315 to R318): row references, command checks, bank holds, the vertical bus,
background and emergency refresh, and deliveries.
-/

namespace Sys2Proof.Machine

/-! ## Spacings (R101), in core cycles -/

def ACTUSE : Nat := 16
def ROWMIN : Nat := 32
def RDREC : Nat := 1
def PLANEREC : Nat := 64
def WRREC : Nat := 16
def PRECH : Nat := 16
def REFDUR : Nat := 240
def LOADLAT : Nat := 48
def PLANEDUR : Nat := 64
def REFWIN : Nat := 5856
/-- Half the refresh window: a takeover refreshes a bank whose last refresh is older (R105). -/
def TAKEOVER : Nat := 2928

/-- The canopy commands (R101). -/
inductive CanopyCmd where
  | act | pre | ref | ld | st | plane
  deriving DecidableEq, Repr

/-- The command uses the vertical bus (R104). -/
def CanopyCmd.bus : CanopyCmd → Bool
  | .ld | .st | .plane => true
  | _ => false

/-- The earliest cycle at which a bank's minima allow the command (R101). -/
def minAt (k : Bank) : CanopyCmd → Nat
  | .act | .ref => max (after k.tPre PRECH) (after k.tRef REFDUR)
  | .pre => max (max (after k.tAct ROWMIN) (after k.tCld RDREC)) (max (after k.tCst WRREC) (after k.tPlane PLANEREC))
  | .ld | .st | .plane => after k.tAct ACTUSE

/-! ## Row references (R100, R102, R315) -/

/-- A row reference resolved to bank and row, in the order of R102; the third part says it names a weight handle. -/
def resolveRow (x : OpCtx) (ref : Word) (s : State) : Except (Stop State) (Nat × Nat × Bool) := do
  let v := ref.toNat
  let c := cur x.rd
  need (bits v 62 45 == 0 && bits v 31 16 == 0) .tileRange
  let n := bits v 44 32
  let ord := bits v 15 0
  if bit v 63 then
    let w := whOf s n
    need (whLive s (partOf x.rd c) n) .handleInvalid
    need (!w.hbm && w.grove == s.gv.id) .handlePlace
    need (decide (ord < w.nrows)) .tileRange
    need (whInPlace w) .handleInvalid
    return ((w.fbank + ord) % 32, w.parts.getD ord 0, true)
  else
    need (decide (n < 256)) .tileRange
    let h := handleOf (seen s) n
    need (usable h c && h.canopy && decide (ord < h.parts.length)) .tileRange
    let p := ordinalPlace h.fbank h.parts ord
    return (p.1, p.2, false)

/-! ## The checks and waits of a command (R102, R104 to R107, R109) -/

/-- A bank of the Grove. -/
def bankOf (s : State) (k : Nat) : Bank := rget {} s.gv.banks k

/-- A bank changed. -/
def modBank (s : State) (k : Nat) (f : Bank → Bank) : State :=
  modGv s (fun g => { g with banks := rmod {} g.banks k f })

/-- The bus is free for an op that issues now, the thermal gap kept (R104, R109). -/
def busReady (s : State) : Bool :=
  decide (s.gv.busFree ≤ s.now) && (s.gv.gap == 0 || decide (after s.gv.lastBus s.gv.gap ≤ s.now))

/-- The bus taken for n cycles from now. -/
def takeBus (n : Nat) (s : State) : State :=
  modGv s (fun g => { g with busFree := s.now + n, lastBus := some (s.now + n - 1) })

/-- A takeover refresh: the bank's last refresh is older than TAKEOVER (R105). -/
def takeoverRefresh (bank : Nat) (s : State) : State :=
  modBank s bank (fun k => { k with lastRef := s.now, freeAt := s.now + REFDUR })

/-- The bank is free for the task: neither the engine nor another task holds it. -/
def bankMine (k : Bank) (task : Nat) : Bool := k.eng.isNone && (k.holder == none || k.holder == some task)

/-- A command's bank cases, waits and spacings, in the order in which they count: the spacings are judged in the cycle of
the issue, once nothing holds it back (R101, R102, R104 to R106). `ready` is what the op itself waits for. The bank is
then held by the task. -/
def canopyCmd (x : OpCtx) (cmd : CanopyCmd) (bank row : Nat) (ready : Bool) (s : State) : Except (Stop State) State := do
  let task := (cur x.rd).task
  let k := bankOf s bank
  need (bankMine k task) .canopyState
  if cmd = .act || cmd = .ref then need (k.openRow == none) .canopyState
  if cmd.bus then need (k.openRow == some row) .canopyState
  waitFor (ready && decide (s.gv.stallTo ≤ s.now) && decide (k.freeAt ≤ s.now))
  if k.holder == none then
    if s.now - k.lastRef > TAKEOVER then stallWith (takeoverRefresh bank)
  if cmd.bus then waitFor (busReady s)
  need (decide (minAt k cmd ≤ s.now)) .canopyEarly
  return modBank s bank (fun k => { k with holder := some task })

/-- CACT opens the row (R316). -/
def opCact (a : Reg) : OpM := fun x s => do
  let (bank, row, _) ← resolveRow x (gr x a) s
  let s ← canopyCmd x .act bank row true s
  return modBank s bank (fun k => { k with openRow := some row, tAct := some s.now })
def execCact (q : Guard) (a : Reg) (s : State) : Host.Outcome State Fault Refusal := issueOne .c q (opCact a) s

/-- CPRE closes the bank; on a closed bank it has no effect (R102, R316), and takes no hold of one that no task holds (DESIGN CHOICE,
notes/assumptions/78.md). -/
def opCpre (a : Reg) : OpM := fun x s => do
  let (bank, row, _) ← resolveRow x (gr x a) s
  let k := bankOf s bank
  if k.openRow = none ∧ bankMine k (cur x.rd).task = true then return s
  else
    let s ← canopyCmd x .pre bank row true s
    return modBank s bank (fun k => { k with openRow := none, tPre := some s.now })
def execCpre (q : Guard) (a : Reg) (s : State) : Host.Outcome State Fault Refusal := issueOne .c q (opCpre a) s

/-- CREF refreshes the closed bank (R105, R316). -/
def opCref (a : Reg) : OpM := fun x s => do
  let (bank, row, _) ← resolveRow x (gr x a) s
  let s ← canopyCmd x .ref bank row true s
  return modBank s bank (fun k => { k with tRef := some s.now, lastRef := s.now })
def execCref (q : Guard) (a : Reg) (s : State) : Host.Outcome State Fault Refusal := issueOne .c q (opCref a) s

/-- n bytes of a canopy row. -/
def canopyBytes (s : State) (bank row off n : Nat) : List Byte := rgetN 0 s.gv.canopy (canopyKey bank row off) n

/-- Bytes of a canopy row written. -/
def putCanopy (s : State) (bank row off : Nat) (bs : List Byte) : State :=
  modGv s (fun g => { g with canopy := rsetAll 0 g.canopy (canopyKey bank row off) bs })

/-- The byte offset of a CLD or CST (R226, R317, R318). -/
def rowOffset (x : OpCtx) (off : BitVec 14) (step : Bool) : Except (Stop State) Nat := do
  let b : Int := addrStep x off step
  need (decide (0 ≤ b) && decide (b ≤ 8064)) .tileRange
  return b.toNat
where
  /-- The signed offset with its step. -/
  addrStep (x : OpCtx) (off : BitVec 14) (step : Bool) : Int := off.toInt + (if step then 128 * x.j else 0)

/-- CLD: the row's bytes are delivered at the start of cycle t + 48 (R103, R317). -/
def opCld (m : Mrf) (a : Reg) (off : BitVec 14) (step : Bool) : OpM := fun x s => do
  let (bank, row, _) ← resolveRow x (gr x a) s
  let b ← rowOffset x off step
  idxCheck (cur x.rd) (stepIdx m x.j step)
  let s ← canopyCmd x .ld bank row true s
  let mv : CldMove := { due := s.now + LOADLAT, row := stepIdx m x.j step, lanes := bytesLanes 32 (canopyBytes s bank row b 128),
                        task := (cur x.rd).task }
  return takeBus 1 (modGv (modBank s bank (fun k => { k with tCld := some s.now })) (fun g => { g with clds := g.clds ++ [mv] }))
def execCld (q : Guard) (m : Mrf) (a : Reg) (off : BitVec 14) (step : Bool) (s : State) : Host.Outcome State Fault Refusal :=
  issueOne .c q (opCld m a off step) s

/-- CST (R317, R318). -/
def opCst (m : Mrf) (a : Reg) (off : BitVec 14) (step : Bool) : OpM := fun x s => do
  let (bank, row, weight) ← resolveRow x (gr x a) s
  need (!weight) .canopyRo
  let b ← rowOffset x off step
  idxCheck (cur x.rd) (stepIdx m x.j step)
  let s ← canopyCmd x .st bank row true s
  let s := putCanopy s bank row b (laneBytes (mrfRow x.rd (stepIdx m x.j step)))
  return takeBus 1 (modBank s bank (fun k => { k with tCst := some s.now }))
def execCst (q : Guard) (m : Mrf) (a : Reg) (off : BitVec 14) (step : Bool) (s : State) : Host.Outcome State Fault Refusal :=
  issueOne .c q (opCst m a off step) s

/-! ## Events -/

/-- A delivery clears the row's lost mark of its task (R444). -/
def clearLostRow (row task : Nat) (c : Stream) : Stream :=
  if c.task = task then { c with lostR := c.lostR.filter (fun r => r.1 != row) } else c

/-- CLD_DELIVERY: a delivery whose cycle has come is written to its row (R103). -/
def execCldDelivery (s : State) : Host.Outcome State Fault Refusal :=
  .next (match s.gv.clds.find? (fun m => decide (m.due ≤ s.now)) with
    | none => s
    | some m =>
      let s := setRow s m.row m.lanes
      modGv { s with st0 := clearLostRow m.row m.task s.st0, st1 := clearLostRow m.row m.task s.st1 }
        (fun g => { g with clds := g.clds.erase m, heldTasks := g.heldTasks.map (clearLostRow m.row m.task) }))

/-- The task that holds a bank is at the Grove: in a stream, or held there with its fault. A task that has been saved is
not (R107, R110, R192). -/
def holderHere (s : State) (task : Nat) : Bool :=
  (hasTask s.st0 && s.st0.task == task) || (hasTask s.st1 && s.st1.task == task) || s.gv.heldTasks.any (fun c => c.task == task)

/-- A bank that the background refresher serves: held by no task, or by one that is saved (R105, R110). -/
def background (s : State) (k : Bank) : Bool :=
  k.eng.isNone && (match k.holder with | none => true | some t => !holderHere s t)

/-- BACKGROUND_REFRESH of a bank (R105, R110). -/
def execBackgroundRefresh (bank : Nat) (s : State) : Host.Outcome State Fault Refusal :=
  .next (let k := bankOf s bank
    if bank < 32 && background s k && k.freeAt ≤ s.now then
      modBank s bank (fun k => { k with lastRef := s.now, freeAt := if k.holder.isNone then s.now + REFDUR else k.freeAt })
    else s)

/-- The debt trap noted for the task that holds the bank (R108). -/
def noteDebt (task : Nat) (c : Stream) : Stream := if hasTask c && c.task == task then { c with debtTrap := true } else c

/-- A running stream stalls at its next issue; one that waits in IDLE, or whose task ends, has none (R59, R107). -/
def stallStream (c : Stream) : Stream :=
  if c.status == .running && c.idleSeen.isNone && !c.ending then { c with status := .stalled } else c

/-- EMERGENCY_REFRESH of a held bank at its due time: both streams stall, an open row is open again afterwards, every
minimum from earlier commands is met, and the debt is counted (R107, R108). -/
def execEmergencyRefresh (bank : Nat) (s : State) : Host.Outcome State Fault Refusal :=
  .next (let k := bankOf s bank
    match k.holder with
    | none => s
    | some task =>
      if k.lastRef + REFWIN ≤ s.now && holderHere s task && k.eng.isNone then
        let s := modBank s bank (fun k => { k with
          lastRef := s.now, tAct := none, tPre := none, tRef := none, tCld := none, tCst := none, tPlane := none })
        let s := modGv s (fun g => { g with
          stallTo := max g.stallTo (s.now + (if k.openRow.isSome then 272 else 240))
          debt := true, debtcnt := satAdd 0xFFFF g.debtcnt 1 })
        let s := { s with st0 := stallStream s.st0, st1 := stallStream s.st1 }
        if s.gv.dtrap then
          modGv { s with st0 := noteDebt task s.st0, st1 := noteDebt task s.st1 } (fun g => { g with
            heldTasks := g.heldTasks.map (noteDebt task) })
        else s
      else s)

/-! ## Row writes by the placement engine and the router (R393, R489) -/

/-- The engine may begin a row write to the bank for a task: the bank closed, held by no other task, free, its minima met. -/
def engineReady (s : State) (task : Option Nat) (bank : Nat) : Bool :=
  let k := bankOf s bank
  k.openRow == none && k.eng.isNone && (k.holder == none || (task.isSome && k.holder == task)) &&
  decide (k.freeAt ≤ s.now) && decide (minAt k .act ≤ s.now) && decide (s.gv.stallTo ≤ s.now)

/-- A row write begins now (R393): on a takeover a refresh first where the last is old, then CACT; the bus write and CPRE
follow as engineStep says. The row holds the bytes, which nothing can read before the engine gives the bank back. Answers
the number of the write. -/
def engineWrite (bank row : Nat) (bs : List Byte) (s : State) : Nat × State :=
  let k := bankOf s bank
  let fresh := k.holder.isNone && decide (s.now - k.lastRef > TAKEOVER)
  let t := if fresh then s.now + REFDUR else s.now
  let n := s.reqs + 1
  let s := putCanopy { s with reqs := n } bank row 0 bs
  (n, modBank s bank (fun k => { k with
    lastRef := if fresh then s.now else k.lastRef
    eng := some { tag := n, act := t, use := t + ACTUSE }
    tAct := none, tPre := none, tCld := none, tCst := none, tPlane := none, tRef := none }))

/-- What the engine does with a bank that it holds in the cycle that ends: at a due time it refreshes the bank, which takes
as long as an emergency refresh does (R107); it takes the bus for its 64 cycles once the row may be used and the bus and
the gap allow it; after WRREC and ROWMIN it precharges and gives the bank back (R101, R104, R109, R393). -/
def engineStep (s : State) (bank : Nat) : State :=
  let k := bankOf s bank
  match k.eng with
  | none => s
  | some e =>
    if k.lastRef + REFWIN ≤ s.now then
      let e' := if s.now < e.act then { e with act := max e.act (s.now + 240), use := max e.act (s.now + 240) + ACTUSE }
        else { e with use := max e.use (s.now + 272), pre := max e.pre (s.now + 272) }
      modBank s bank (fun k => { k with lastRef := s.now, eng := some e' })
    else
      match e.bus with
      | none =>
        if decide (e.use ≤ s.now) && busReady s then
          takeBus 64 (modBank s bank (fun k => { k with
            eng := some { e with bus := some s.now, pre := max (s.now + 64 + WRREC) (max e.pre (e.act + ROWMIN)) } }))
        else s
      | some _ =>
        if e.pre ≤ s.now then modBank s bank (fun k => { k with eng := none, freeAt := s.now + PRECH }) else s

/-- The engine's holds moved on at the end of a cycle. -/
def engineTick (s : State) : State := (s.gv.banks.map (fun x => x.1)).foldl engineStep s

/-- The row write of that number is over: its bank has been given back. -/
def writeOver (s : State) (n : Nat) : Bool :=
  s.gv.banks.all (fun x => match x.2.eng with | some e => e.tag != n | none => true)

end Sys2Proof.Machine
end

