-- ==== Sys2Proof/Machine/Matrix.lean ====
section
/-!
DEFINITION. The matrix ops (R351 to R372): weight planes and their formats, streaming with masks, batched cells,
accumulators, scales, the drain, the microprogram store and MSTAT. The bodies take what a micro-op gives them too.
-/

namespace Sys2Proof.Machine

/-! ## Types of the array (R157, R355) -/

/-- A 16-bit array type. -/
def is16 (t : Nat) : Bool := t == 17 || t == 18

/-- The array accepts the type of a code, fm being the format register it names (R157). -/
def arrayAccepts (t : Nat) (fm : Word) : Bool :=
  is16 t || t == 19 || t == 20 || (decide (t < 16) && decide ((fmtOfReg fm).E ≤ 5) && decide ((fmtOfReg fm).M ≤ 7))

/-- The check of a type against R71 and R157. -/
def arrayCheck (c : Stream) (t : Nat) : Except (Stop State) Unit := do
  fmtCheck c t
  need (arrayAccepts t (fmtReg c t)) .fmtArray

/-- The type of a plane, by its latched format (R72). -/
def planeTy (p : Plane) : NTy := tyOfCode (fun _ => p.fmt) p.typ

/-- Rows of a weight tile (R355). -/
def planeK (p : Plane) : Nat := if is16 p.typ then 64 else 128

/-- Element (k, n) of a weight tile (R355). -/
def weightAt (p : Plane) (k n : Nat) : XV :=
  decT (planeTy p) (unitOf (planeTy p).store (fun o => rget 0 p.image o) (64 * k + n) % 2 ^ (planeTy p).width)

/-- A byte string as a plane's image. -/
def imageOf (bs : List Byte) : RMap Byte := rsetAll 0 [] 0 bs

/-! ## Ownership and the microprogram's hold of the position (R352, R372, R375) -/

/-- Every matrix op but MSTAT waits for the stream's microprogram; a microprogram fault not yet delivered comes first
(R372, R375). -/
def matrixGate (x : OpCtx) : Except (Stop State) Unit := do
  let c := cur x.rd
  need (!c.micro.fpend) .microFault c.micro.fcode
  waitFor (!c.micro.running)

/-- No other task owns the array (R352). -/
def arrayFree (x : OpCtx) (s : State) : Bool :=
  match s.gv.owner with | none => true | some t => t == (cur x.rd).task

/-- The array taken for the task, or a wait while another task owns it (R352). -/
def claimArray (x : OpCtx) (s : State) : Except (Stop State) State :=
  match s.gv.owner with
  | none => .ok (modGv s (fun g => { g with owner := some (cur x.rd).task }))
  | some t => if t = (cur x.rd).task then .ok s else stallNow

/-! ## Loading the idle plane (R356 to R358) -/

/-- Consecutive pops of a port, the given number of vectors. -/
def popMany (x : OpCtx) (idx : Nat) : Nat → State → Except (Stop State) (List Lane × State)
  | 0, s => .ok ([], s)
  | n + 1, s => do
    let (v, s) ← portRead x idx s
    let (r, s) ← popMany x idx n s
    return (v ++ r, s)

/-- The idle plane begins to load an image. -/
def loadPlane (typ : Nat) (fmt : Word) (bs : List Byte) (s : State) : State :=
  modGv s (fun g => { g with idle := { st := 1, typ := typ, fmt := fmt, image := imageOf bs, readyAt := s.now + PLANEDUR } })

/-- The body of MLDW and WLOAD (R356). -/
def loadWeights (x : OpCtx) (src : Mrf) (wt : Nat) (s : State) : Except (Stop State) State := do
  let c := cur x.rd
  need (decide (wt ≤ 24)) .illegalEnc
  arrayCheck c wt
  let fmt := if wt < 16 then fmtReg c wt else 0
  let n := if (tyOfCode (fmtReg c) wt).store = 4 then 32 else 64
  if isPort src then
    portLegal c src
    portExpects c src (tyOfCode (fmtReg c) wt).width
  else
    idxCheck c (mrfIdx src)
    idxCheck c (mrfIdx src + n - 1)
  let s ← claimArray x s
  waitFor (s.gv.idle.st != 1)
  let (ls, s) ← if isPort src then popMany x (mrfIdx src) n s
    else pure ((List.range n).flatMap (fun r => mrfRow x.rd (mrfIdx src + r)), s)
  return loadPlane wt fmt (laneBytes ls) s

/-- MLDW (R356). -/
def opMldw (src : Mrf) (wt : BitVec 5) : OpM := fun x s => do
  matrixGate x
  loadWeights x src wt.toNat s
def execMldw (q : Guard) (src : Mrf) (wt : BitVec 5) (s : State) : Host.Outcome State Fault Refusal :=
  issueOne .m q (opMldw src wt) s

/-- MLDWC (R357). -/
def opMldwc (r : Reg) (wt : BitVec 5) (half : Bool) : OpM := fun x s => do
  matrixGate x
  let c := cur x.rd
  arrayCheck c wt.toNat
  let narrow := (tyOfCode (fmtReg c) wt.toNat).store == 4
  need (!half || narrow) .illegalEnc
  let (bank, row, _) ← resolveRow x (gr x r) s
  let s ← canopyCmd x .plane bank row (arrayFree x s && s.gv.idle.st != 1) s
  let s ← claimArray x s
  let bs := canopyBytes s bank row (if half then 4096 else 0) (if narrow then 4096 else 8192)
  let s := modBank s bank (fun k => { k with tPlane := some s.now })
  return loadPlane wt.toNat (if wt.toNat < 16 then fmtReg c wt.toNat else 0) bs (takeBus 64 s)
def execMldwc (q : Guard) (r : Reg) (wt : BitVec 5) (half : Bool) (s : State) : Host.Outcome State Fault Refusal :=
  issueOne .m q (opMldwc r wt half) s

/-- PLANE_READY: the idle plane's completion time is reached (R356 to R358). -/
def execPlaneReady (s : State) : Host.Outcome State Fault Refusal :=
  .next (if s.gv.idle.st = 1 ∧ s.gv.idle.readyAt ≤ s.now then modGv s (fun g => { g with idle := { g.idle with st := 2 } }) else s)

/-- The planes swapped (R358): the caller has seen that the idle plane is READY. -/
def swapPlanes (s : State) : State :=
  modGv s (fun g => { g with comp := { g.idle with st := 2 }, idle := { g.comp with st := if g.comp.st = 0 then 0 else 2 } })

/-! ## Accumulators (R73, R74, R365) -/

/-- A name mapped to a fresh tile of +0; it waits while no physical tile is free. -/
def mapFresh (k : Nat) (s : State) : Except (Stop State) State :=
  match (freeTiles s).head? with
  | none => stallNow
  | some t =>
    .ok (modCur (modGv s (fun g => { g with acc := g.acc.filter (fun e => e.1 / 2048 != t) }))
      (fun c => { c with amap := rset 0 c.amap k (t + 1) }))

/-- The tile of a name, mapped first where it has none (R73). -/
def needTile (k : Nat) (s : State) : Except (Stop State) (Nat × State) := do
  match accTile (cur s) k with
  | some t => return (t, s)
  | none =>
    let s ← mapFresh k s
    return ((accTile (cur s) k).getD 0, s)

/-- MZERO (R365). -/
def opMzero (acc : BitVec 3) : OpM := fun x s => do
  matrixGate x
  mapFresh acc.toNat (modCur s (fun c => { c with amap := rset 0 c.amap acc.toNat 0 }))
def execMzero (q : Guard) (acc : BitVec 3) (s : State) : Host.Outcome State Fault Refusal := issueOne .m q (opMzero acc) s

/-- MFREE (R365). -/
def opMfree (acc : BitVec 3) : OpM := fun x s => do
  matrixGate x
  return modCur s (fun c => { c with amap := rset 0 c.amap acc.toNat 0 })
def execMfree (q : Guard) (acc : BitVec 3) (s : State) : Host.Outcome State Fault Refusal := issueOne .m q (opMfree acc) s

/-! ## Streaming (R359 to R364) -/

/-- One product sum of an issue: the accumulator element, and the pairs of operands of its active depths. -/
structure Cell where
  row : Nat
  col : Nat
  prods : List (XV × XV)
  deriving DecidableEq, Repr

/-- The block steps of an issue performed (R160, R162). -/
def blockSteps (wide : Bool) (pw : Nat × Nat) (tile : Nat) (cells : List Cell) (s : State) : State :=
  let rs := cells.map (fun e =>
    (2048 * tile + 64 * e.row + e.col, blockStep wide pw (accAt s tile e.row e.col).toNat e.prods))
  let s := modGv s (fun g => { g with acc := rs.foldl (fun a e => rset 0 a e.1 (BitVec.ofNat 40 e.2.1)) g.acc })
  let s := raise (w64 (rs.foldl (fun a e => a ||| e.2.2.1) 0)) s
  countMxc { accof := (rs.map (fun e => e.2.2.2.1)).sum, nanacc := (rs.map (fun e => e.2.2.2.2)).sum } s

/-- The special values among operands, each counted once (R161). -/
def specials (vs : List XV) : Nat := (vs.filter XV.isSpecial).length

/-- The activation rows in a vector of a type (R360). -/
def actRows (t : NTy) (ls : List Lane) : List (List XV) :=
  let es := (unpack t.store ls).map (fun v => decT t (v % 2 ^ t.width))
  if t.store = 4 then [es.take 128, es.drop 128] else [es]

/-- The masks of a pair, or none when every position is active. -/
abbrev Masks := Option (Word × Word)

/-- The mask pair that an op's GR names (R359). -/
def maskPair (x : OpCtx) (r : Reg) : Masks := if r = 0 then none else some (gr x r, gRead (cur x.rd) (r.toNat + 1))

/-- The zero fields of a mask pair of MSTRM are zero (R361). -/
def maskOk (m : Masks) : Bool :=
  match m with
  | none => true
  | some (_, b) => bits b.toNat 31 29 == 0 && bits b.toNat 15 8 == 0

/-- The lengths of MBATCH's cell c: MLEN, KLEN and NLEN (R363). -/
def cellLens (m : Masks) (kc c : Nat) : Nat × Nat × Nat :=
  match m with
  | none => (32, kc, 16)
  | some (a, b) => (bits a.toNat (16 * c + 5) (16 * c), bits a.toNat (16 * c + 13) (16 * c + 8), bits b.toNat (8 * c + 4) (8 * c))

/-- A length pair is legal for a cell depth KC (R364). -/
def lensOk (m : Masks) (kc : Nat) : Bool :=
  match m with
  | none => true
  | some (a, b) =>
    bits b.toNat 63 32 == 0 && (List.range 4).all (fun c =>
      let l := cellLens m kc c
      decide (l.1 ≤ 32) && decide (l.2.1 ≤ kc) && decide (l.2.2 ≤ 16) && bits a.toNat (16 * c + 7) (16 * c + 6) == 0 &&
      bits a.toNat (16 * c + 15) (16 * c + 14) == 0 && bits b.toNat (8 * c + 7) (8 * c + 5) == 0)

/-- The plane that an issue streams against: the idle one when it swaps. It is loaded, or PLANE_EMPTY (R358). -/
def planeFor (sw : Bool) (s : State) : Except (Stop State) Plane := do
  let p := if sw then s.gv.idle else s.gv.comp
  need (p.st != 0) .planeEmpty
  return p

/-- The activation type of an issue from a row operand's descriptor or a port's element width (R360, R364); a port of another width is
FMT_INVALID before it is read (DESIGN CHOICE, notes/assumptions/63.md). -/
def actType (x : OpCtx) (src : Mrf) (idx : Nat) (port : NTy × Nat) : Except (Stop State) (NTy × Nat) := do
  let c := cur x.rd
  if isPort src then
    portLegal c src
    need (portEw c src == port.1.width) .fmtInvalid
    return port
  else
    idxCheck c idx
    let t ← tdescType c (idx / 32)
    need (arrayAccepts t (fmtReg c t)) .fmtArray
    return (tyOfCode (fmtReg c) t, t)

/-- The activation vector: the row as it stood before the issue, or a pop. -/
def actVector (x : OpCtx) (src : Mrf) (idx : Nat) (s : State) : Except (Stop State) (List Lane × State) :=
  if isPort src then portRead x (mrfIdx src) s else .ok (mrfRow x.rd idx, s)

/-- One issue of MSTRM (R360): row operand index idx, accumulator row u. -/
def streamIssue (x : OpCtx) (acc : Nat) (src : Mrf) (idx u : Nat) (m : Masks) (sw : Bool) (s : State) :
    Except (Stop State) State := do
  let c := cur x.rd
  need (maskOk m) .maskBad
  if isPort src then need (portBound c src) .portUnbound
  let at_ := match m with | some (_, b) => bits b.toNat 28 24 | none => 0
  if isPort src && m.isSome then arrayCheck c at_
  let s ← claimArray x s
  let p ← planeFor sw s
  let port := if m.isSome then (tyOfCode (fmtReg c) at_, at_) else (planeTy p, p.typ)
  let (ty, code) ← actType x src idx port
  need (is16 code == is16 p.typ) .fmtArray
  let (ls, s) ← actVector x src idx s
  if sw then waitFor (s.gv.idle.st == 2)
  let (tile, s) ← needTile acc s
  let s := if sw then swapPlanes s else s
  let rows := if ty.store = 4 then [2 * (u % 16), 2 * (u % 16) + 1] else [u]
  let (cm, rm, kend, kbeg) := match m with
    | some (a, b) => (a.toNat, bits b.toNat 63 32, bits b.toNat 23 16, bits b.toNat 7 0)
    | none => (2 ^ 64 - 1, 2 ^ 32 - 1, 255, 0)
  let kN := planeK p
  let on (k : Nat) : Bool := decide (kbeg ≤ k) && decide (k < min kend kN)
  let ks := (List.range kN).filter on
  let av := rows.zip (actRows ty ls)
  let cells := av.flatMap (fun r =>
    if bit rm r.1 then
      ((List.range 64).filter (bit cm)).map (fun n => ⟨r.1, n, ks.map (fun k => (r.2.getD k (.fin false 0 0), weightAt p k n))⟩)
    else [])
  let sa := (av.map (fun r =>
    specials (((List.range kN).filter (fun k => !bit rm r.1 || !on k)).map (fun k => r.2.getD k (.fin false 0 0))))).sum
  let sb := ((List.range 64).map (fun n =>
    specials (((List.range kN).filter (fun k => !bit cm n || !on k)).map (fun k => weightAt p k n)))).sum
  return countMxc { msksp := sa + sb } (blockSteps (is16 p.typ) (payWidth ty, payWidth (planeTy p)) tile cells s)

/-- One issue of MBATCH (R363, R364). -/
def batchIssue (x : OpCtx) (acc : Nat) (src : Mrf) (idx u : Nat) (m : Masks) (sw : Bool) (s : State) :
    Except (Stop State) State := do
  let c := cur x.rd
  if isPort src then need (portBound c src) .portUnbound
  let s ← claimArray x s
  let p ← planeFor sw s
  let kc := if is16 p.typ then 16 else 32
  need (lensOk m kc) .maskBad
  let (ty, code) ← actType x src idx (planeTy p, p.typ)
  need (is16 code == is16 p.typ && ty.store != 4) .fmtArray
  let (ls, s) ← actVector x src idx s
  if sw then waitFor (s.gv.idle.st == 2)
  let (tile, s) ← needTile acc s
  let s := if sw then swapPlanes s else s
  let a := (actRows ty ls).headD []
  let el (k : Nat) : XV := a.getD k (.fin false 0 0)
  let cells := (List.range 4).flatMap (fun c =>
    let l := cellLens m kc c
    if u < l.1 then
      (List.range l.2.2).map (fun n =>
        ⟨u, 16 * c + n, (List.range l.2.1).map (fun k => (el (kc * c + k), weightAt p (kc * c + k) (16 * c + n)))⟩)
    else [])
  let sp := ((List.range 4).map (fun c =>
    let l := cellLens m kc c
    specials (((List.range kc).filter (fun k => decide (l.1 ≤ u) || decide (l.2.1 ≤ k))).map (fun k => el (kc * c + k))) +
    ((List.range 16).map (fun n =>
      specials (((List.range kc).filter (fun k => decide (l.2.2 ≤ n) || decide (l.2.1 ≤ k))).map
        (fun k => weightAt p (kc * c + k) (16 * c + n))))).sum)).sum
  return countMxc { msksp := sp } (blockSteps (is16 p.typ) (payWidth ty, payWidth (planeTy p)) tile cells s)

/-- The accumulator row of an issue at step count j (R360). -/
def stepRow (x : OpCtx) (arow : BitVec 5) (step : Bool) : Nat := if step then (arow.toNat + x.j) % 32 else arow.toNat

/-- MSTRM (R359 to R362). -/
def opMstrm (acc : BitVec 3) (src : Mrf) (arow : BitVec 5) (r : Reg) (sw step : Bool) : OpM := fun x s => do
  matrixGate x
  streamIssue x acc.toNat src (stepIdx src x.j step) (stepRow x arow step) (maskPair x r) sw s
def execMstrm (q : Guard) (acc : BitVec 3) (src : Mrf) (arow : BitVec 5) (r : Reg) (sw step : Bool) (s : State) :
    Host.Outcome State Fault Refusal := issueOne .m q (opMstrm acc src arow r sw step) s

/-- MBATCH (R363, R364). -/
def opMbatch (acc : BitVec 3) (src : Mrf) (arow : BitVec 5) (r : Reg) (sw step : Bool) : OpM := fun x s => do
  matrixGate x
  batchIssue x acc.toNat src (stepIdx src x.j step) (stepRow x arow step) (maskPair x r) sw s
def execMbatch (q : Guard) (acc : BitVec 3) (src : Mrf) (arow : BitVec 5) (r : Reg) (sw step : Bool) (s : State) :
    Host.Outcome State Fault Refusal := issueOne .m q (opMbatch acc src arow r sw step) s

/-! ## Scales and the drain (R366 to R369) -/

/-- The body of MSCL and SCALE (R366). -/
def loadScale (x : OpCtx) (row : Nat) (col : Bool) (s : State) : Except (Stop State) State := do
  let c := cur x.rd
  idxCheck c row
  if col then
    idxCheck c (row + 1)
    return modCur s (fun c => { c with scc := rsetAll 0 c.scc 0 (mrfRow x.rd row ++ mrfRow x.rd (row + 1)) })
  else return modCur s (fun c => { c with scr := rsetAll 0 c.scr 0 (mrfRow x.rd row) })

/-- MSCL (R366). -/
def opMscl (src : Mrf) (col : Bool) : OpM := fun x s => do
  matrixGate x
  loadScale x (mrfIdx src) col s
def execMscl (q : Guard) (src : Mrf) (col : Bool) (s : State) : Host.Outcome State Fault Refusal :=
  issueOne .m q (opMscl src col) s

/-- The exact product of an accumulator element and its scales, and whether a NaN arose from 0 × ∞ (R163, R164): it did not where an
element or a scale is a NaN (DESIGN CHOICE, notes/assumptions/81.md). -/
def scaled (v a b : XV) : XV × Bool :=
  if v.isNan || a.isNan || b.isNan then (.nan false 0, false)
  else match (xmul v a).bind (fun p => xmul p b) with
    | some p => (p, false)
    | none => (.nan false 0, true)

/-- The accumulator element that stream element e of a drain takes (R367, R368). -/
def drainElem (pack : Bool) (cells : List Nat) (e : Nat) : Nat × Nat :=
  if pack then (e % 512 / 16, 16 * cells.getD (e / 512) 0 + e % 16) else (e / 64, e % 64)

/-- One issue of MDRAIN: destination row, chunk q (R367, R368). The drain of an unmapped name applies no scale and sets no flag
(R73; of the flags DESIGN CHOICE, notes/assumptions/81.md). -/
def drainIssue (x : OpCtx) (acc row tt q : Nat) (rs cs pack : Bool) (cmask : Nat) (s : State) :
    Except (Stop State) State := do
  let c := cur x.rd
  need (decide (tt ≤ 24) && pack == (cmask != 0)) .illegalEnc
  idxCheck c row
  fmtCheck c tt
  let ty := tyOfCode (fmtReg c) tt
  let n := 1024 / ty.store
  let cells := (List.range 4).filter (bit cmask)
  let total := if pack then 512 * cells.length else 2048
  need (decide (n * q < total)) .drainRange
  let es := (List.range n).map (fun k => drainElem pack cells (n * q + k))
  let one : XV := .fin false 1 0
  match accTile (cur s) acc with
  | none => return setRow s row (List.replicate 32 0)
  | some t =>
    let sr (i : Nat) : XV := if rs then f32 (rget 0 (cur s).scr i).toNat else one
    let sc (j : Nat) : XV := if cs then f32 (rget 0 (cur s).scc j).toNat else one
    let outs := es.map (fun e =>
      let v := scaled (decF fE8M31 (accAt s t e.1 e.2).toNat) (sr e.1) (sc e.2)
      let r := drainTo ty v.2 v.1
      (r.1, r.2.1 ||| (if (sr e.1).isNan || (sc e.2).isNan then fNANIN else 0), r.2.2))
    let s := setRow s row (Sys2Proof.Machine.pack ty.store (outs.map (fun o => o.1)))
    let s := raise (w64 (outs.foldl (fun a o => a ||| o.2.1) 0)) s
    let s := countMxc { drsat := (outs.filter (fun o => o.2.2)).length } s
    return if pack && n * (q + 1) == total then
      modGv s (fun g => { g with acc := g.acc.filter (fun e => !(e.1 / 2048 == t && decide (e.1 % 64 / 16 ∈ cells))) })
    else s

/-- MDRAIN (R367 to R369). -/
def opMdrain (acc : BitVec 3) (dst : Mrf) (chk : BitVec 6) (cmask : BitVec 4) (tt : BitVec 6) (rs cs pack step : Bool) : OpM :=
  fun x s => do
  matrixGate x
  drainIssue x acc.toNat (stepIdx dst x.j step) tt.toNat (chk.toNat + if step then x.j else 0) rs cs pack cmask.toNat s
def execMdrain (q : Guard) (acc : BitVec 3) (dst : Mrf) (chk : BitVec 6) (cmask : BitVec 4) (tt : BitVec 6)
    (rs cs pack step : Bool) (s : State) : Host.Outcome State Fault Refusal :=
  issueOne .m q (opMdrain acc dst chk cmask tt rs cs pack step) s

/-! ## The microprogram store and status (R370 to R372) -/

/-- A microprogram runs on the Grove. -/
def microRuns (s : State) : Bool := s.st0.micro.running || s.st1.micro.running || s.gv.heldTasks.any (fun c => c.micro.running)

/-- Sixteen microwords of a row: lanes 2k and 2k + 1, low half first (R371). -/
def microWords (ls : List Lane) : List Word :=
  (List.range 16).map (fun k => w64 ((ls.getD (2 * k) 0).toNat + 2 ^ 32 * (ls.getD (2 * k + 1) 0).toNat))

/-- MMPW (R371, R421). -/
def opMmpw (src : Mrf) (r : Reg) (tbl : Bool) : OpM := fun x s => do
  matrixGate x
  let c := cur x.rd
  need (c.level != 0 || !bit (rget 0 x.rd.dev.sysctl (partOf x.rd c)).toNat 0) .priv
  idxCheck c (mrfIdx src)
  let b := grN x r
  need (if tbl then decide (b + 15 ≤ 255) else decide (b + 15 ≤ 1023)) .microAddr
  waitFor (!microRuns s)
  let ls := mrfRow x.rd (mrfIdx src)
  return modGv s (fun g =>
    if tbl then { g with uentry := rsetAll 0 g.uentry b ((ls.take 16).map (fun l => BitVec.ofNat 16 (l.toNat % 2 ^ 16) &&& 0x83FF)) }
    else { g with ustore := rsetAll 0 g.ustore b (microWords ls) })
def execMmpw (q : Guard) (src : Mrf) (r : Reg) (tbl : Bool) (s : State) : Host.Outcome State Fault Refusal :=
  issueOne .m q (opMmpw src r tbl) s

/-- The micro state that MCALL begins a run with (R372). -/
def microStart (c : Stream) (addr acc : Nat) : Micro :=
  { running := true, mpc := addr, cur := acc, mp := c.mp, fcode := c.micro.fcode }

/-- MCALL (R372). -/
def opMcall (entry : BitVec 8) (acc : BitVec 3) : OpM := fun x s => do
  matrixGate x
  let e := (rget 0 x.rd.gv.uentry entry.toNat).toNat
  need (bit e 15) .microEntry
  let s ← claimArray x s
  return modCur s (fun c => { c with micro := microStart (cur x.rd) (e % 1024) acc.toNat })
def execMcall (q : Guard) (entry : BitVec 8) (acc : BitVec 3) (s : State) : Host.Outcome State Fault Refusal :=
  issueOne .m q (opMcall entry acc) s

/-- The word of MSTAT (R370). -/
def mstatWord (s : State) (c : Stream) : Word :=
  let own := s.gv.owner == some c.task
  w64 (c.micro.running.toNat * 2 ^ 63 + own.toNat * 2 ^ 62 + (s.gv.owner.isSome && !own).toNat * 2 ^ 61 +
    c.micro.mpc * 2 ^ 50 + s.gv.idle.st * 2 ^ 48 + (if s.gv.comp.st = 0 then 0 else 2 ^ 47) + s.gv.comp.typ * 2 ^ 42 +
    s.gv.idle.typ * 2 ^ 37 + (freeTiles s).length * 2 ^ 32 +
    ((List.range 8).filter (fun k => (accTile c k).isSome)).foldl (fun a k => a + 2 ^ (24 + k)) 0 + c.micro.fcode * 2 ^ 16)

/-- MSTAT: with WAIT it waits for the stream's microprogram, without it it reads MBUSY (R370). -/
def opMstat (r : Reg) (wait : Bool) : OpM := fun x s => do
  let c := cur x.rd
  need (!c.micro.fpend) .microFault c.micro.fcode
  waitFor (!wait || !c.micro.running)
  return setG s r (mstatWord x.rd c)
def execMstat (q : Guard) (r : Reg) (wait : Bool) (s : State) : Host.Outcome State Fault Refusal :=
  issueOne .m q (opMstat r wait) s

end Sys2Proof.Machine
end

