-- ==== Sys2Proof/Machine/Micro.lean ====
section
/-!
DEFINITION. The micro-ops and the run of a microprogram (R372 to R377): each micro-op is performed for the acting
stream, whose microprogram runs.
-/

namespace Sys2Proof.Machine

/-- What a micro-op comes to: the next state with its branch target if one is taken, or one issue of a STREAM or DRAIN
with more to come, or the sub-code of R375 with the state its completed part leaves, or a wait. -/
inductive MicroEnd where
  | done (s : State) (target : Option Nat)
  | more (s : State)
  | fault (sub : Nat) (s : State)
  | wait (s : State)

/-- The contributions that a micro-op's equivalent op made are the run's (R375). -/
def takeMicroFlags (s : State) : State :=
  modCur s (fun c => { c with
    micro := { c.micro with flags := c.micro.flags ||| c.iflags, mxc := c.micro.mxc.plus c.imxc }
    iflags := 0, imxc := {}, iseq := 0, inan := 0 })

/-- The run ends: its flags and counts are made once (R375); a fault waits for its delivery. -/
def stopMicro (sub : Option Nat) (s : State) : State :=
  modCur s (fun c => foldMicro { c with micro := { c.micro with
    running := false
    prog := 0
    fcode := sub.getD c.micro.fcode
    fpend := c.micro.fpend || sub.isSome } })

/-- A micro-op of the acting stream's run: it counts, and goes on to the next microword or its target; sub-codes 5 and 6
of R375 are met here. Nothing happens where no microprogram runs, or where the matrix cap holds it (R509). -/
def microOp (f : State → MicroEnd) (s : State) : Host.Outcome State Fault Refusal :=
  let m := (cur s).micro
  if !m.running then .next s
  else if m.wait != 0 || !capReady s then .next s
  else if 2 ^ 20 ≤ m.count then .next (stopMicro (some 6) s)
  else match f s with
    | .wait t => .next t
    | .fault sub t => .next (stopMicro (some sub) (takeMicroFlags t))
    | .more t => .next (modCur (noteM (takeMicroFlags t)) (fun c => { c with micro := { c.micro with prog := m.prog + 1 } }))
    | .done t target =>
      let t := noteM (takeMicroFlags t)
      let go := target.getD (m.mpc + 1)
      if go ≥ 1024 then .next (stopMicro (some 5) t)
      else .next (modCur t (fun c => { c with micro := { c.micro with mpc := go, count := m.count + 1, prog := 0 } }))

/-- The equivalent op's result as a micro-op's: its fault is sub-code 7, its wait that of the run. -/
def microOf (s : State) (r : Except (Stop State) State) : MicroEnd :=
  match r with
  | .ok t => .done t none
  | .error (.fault _) => .fault 7 s
  | .error (.stall eff) => .wait (eff s)

/-- The context of an op that a micro-op stands for: it reads the state as it is (R376). -/
def microCtx (s : State) : OpCtx := { pos := .m, j := 0, rd := s }

/-- Pointer MA[px]. -/
def maOf (s : State) (px : BitVec 2) : Mrf := rget 0 (cur s).micro.ma px.toNat

/-- Loop count MLC[lx]. -/
def mlcOf (s : State) (lx : BitVec 2) : Nat := (rget 0 (cur s).micro.mlc lx.toNat).toNat

/-- A pointer written. -/
def setMa (px : BitVec 2) (v : Mrf) (s : State) : State :=
  modCur s (fun c => { c with micro := { c.micro with ma := rset 0 c.micro.ma px.toNat v } })

/-- A loop count written. -/
def setMlc (lx : BitVec 2) (v : Nat) (s : State) : State :=
  modCur s (fun c => { c with micro := { c.micro with mlc := rset 0 c.micro.mlc lx.toNat (BitVec.ofNat 16 v) } })

/-- A pointer of a direction that a source may have: a row, or a port (R65, R373, R375). -/
def maSource (m : Mrf) : Bool := mrfDir m == 0 || isPort m

/-- A port pointer that the equivalent op does not take, a peek or one with index bits [10:4] set: its ILLEGAL_ENC (R65, R356,
R361, R375). -/
def maNoPop (m : Mrf) : Bool := isPort m && !(decide (8 ≤ mrfIdx m) && decide (mrfIdx m < 16))

/-- A pointer that names a row. -/
def maRow (m : Mrf) : Bool := mrfDir m == 0

/-- Some row of a row operand's n rows is marked lost: the equivalent op that reads it faults (R375, R444). -/
def lostRows (s : State) (m : Mrf) (idx n : Nat) : Bool :=
  !isPort m && (cur s).lostR.any (fun r => decide (idx ≤ r.1) && decide (r.1 < idx + n))

/-- The sub-code of a row index that MA + v makes above 1,535: a stepped index is sub-code 2, the pointer's own row is the
equivalent op's fault (R375). -/
def rowSub (v : Nat) : Nat := if v = 0 then 7 else 2

/-- WLOAD (R374). -/
def execWload (px : BitVec 2) (typ : BitVec 5) (s : State) : Host.Outcome State Fault Refusal :=
  microOp (fun s =>
    let src := maOf s px
    let n := if (tyOfCode (fmtReg (cur s)) typ.toNat).store = 4 then 32 else 64
    if !maSource src then .fault 2 s
    else if maNoPop src || lostRows s src (mrfIdx src) n then .fault 7 s
    else microOf s (loadWeights (microCtx s) src typ.toNat s)) s

/-- WSWAP (R358, R374). -/
def execWswap (s : State) : Host.Outcome State Fault Refusal :=
  microOp (fun s =>
    if s.gv.idle.st = 0 then .fault 7 s else if s.gv.idle.st = 1 then .wait s else .done (swapPlanes s) none) s

/-- The next issue of a STREAM or DRAIN of n issues: each is an m issue of its own (R372, R509), and those completed before
a fault remain. -/
def microIssues (f : Nat → State → MicroEnd) (n : Nat) (s : State) : MicroEnd :=
  let v := (cur s).micro.prog
  match f v s with
  | .done t _ => if v + 1 < n then .more t else .done t none
  | r => r

/-- One issue of STREAM: MSTRM, or MBATCH in batch mode, of the current accumulator (R374). -/
def streamOne (px : BitVec 2) (v : Nat) (s : State) : MicroEnd :=
  let m := (cur s).micro
  let src := maOf s px
  let idx := mrfIdx src + v
  let masks : Masks := if m.masked then some (m.m0, m.m1) else none
  if !maSource src then .fault 2 s
  else if !isPort src && decide (idx > 1535) then .fault (rowSub v) s
  else if maNoPop src || lostRows s src idx 1 then .fault 7 s
  else microOf s ((if m.batch then batchIssue else streamIssue) (microCtx s) m.cur src idx ((m.base + v) % 32) masks false s)

/-- STREAM (R374). -/
def execStream (px : BitVec 2) (imm : BitVec 16) (s : State) : Host.Outcome State Fault Refusal :=
  microOp (fun s =>
    if imm = 0 || 1024 < imm.toNat then .fault 4 s else microIssues (streamOne px) imm.toNat s) s

/-- ACCUM (R374): IMM[15:5] is zero, or sub-code 1. -/
def execAccum (acc : BitVec 3) (imm : BitVec 16) (batch : Bool) (s : State) : Host.Outcome State Fault Refusal :=
  microOp (fun s =>
    if imm.toNat ≥ 32 then .fault 1 s
    else .done (modCur s (fun c => { c with micro := { c.micro with cur := acc.toNat, base := imm.toNat, batch := batch } })) none) s

/-- One issue of DRAIN (R374). -/
def drainOne (acc : BitVec 3) (px : BitVec 2) (typ : BitVec 5) (imm : BitVec 16) (cmask : BitVec 4) (rs cs pack : Bool)
    (v : Nat) (s : State) : MicroEnd :=
  let dst := maOf s px
  let idx := mrfIdx dst + v
  if !maRow dst then .fault 2 s
  else if decide (idx > 1535) then .fault (rowSub v) s
  else microOf s ((drainIssue (microCtx s) acc.toNat idx typ.toNat (imm.toNat % 64 + v) rs cs pack cmask.toNat s).map
    (fun t => modCur t (fun c => { c with lostR := c.lostR.filter (fun r => r.1 != idx) })))

/-- DRAIN (R374). -/
def execDrain (acc : BitVec 3) (px : BitVec 2) (typ : BitVec 5) (imm : BitVec 16) (cmask : BitVec 4) (rs cs pack : Bool)
    (s : State) : Host.Outcome State Fault Refusal :=
  microOp (fun s =>
    if imm.toNat / 256 = 0 then .fault 4 s
    else microIssues (drainOne acc px typ imm cmask rs cs pack) (imm.toNat / 256) s) s

/-- MASK (R374). -/
def execMask (mpx : BitVec 3) (s : State) : Host.Outcome State Fault Refusal :=
  microOp (fun s =>
    if mpx.toNat % 2 = 1 then .fault 1 s
    else .done (modCur s (fun c => { c with micro := { c.micro with
      masked := true, m0 := rget 0 c.micro.mp mpx.toNat, m1 := rget 0 c.micro.mp (mpx.toNat + 1) } })) none) s

/-- LOOP (R374). -/
def execMicroLoop (lx : BitVec 2) (tgt : BitVec 10) (s : State) : Host.Outcome State Fault Refusal :=
  microOp (fun s =>
    if 2 ≤ mlcOf s lx then .done (setMlc lx (mlcOf s lx - 1) s) (some tgt.toNat) else .done (setMlc lx 0 s) none) s

/-- STEP (R374): a row pointer moved; a result outside 0 to 1,535 is sub-code 2. -/
def execMicroStep (px : BitVec 2) (imm : BitVec 16) (s : State) : Host.Outcome State Fault Refusal :=
  microOp (fun s =>
    let i : Int := mrfIdx (maOf s px) + imm.toInt
    if mrfDir (maOf s px) != 0 || i < 0 || i > 1535 then .fault 2 s
    else .done (setMa px (BitVec.ofNat 13 i.toNat) s) none) s

/-- PARAM (R374). -/
def execParam (px lx : BitVec 2) (mpx : BitVec 3) (opd : BitVec 13) (imm : BitVec 16) (flg : BitVec 2) (s : State) :
    Host.Outcome State Fault Refusal :=
  microOp (fun s =>
    let o := imm.toNat % 64
    let w := (rget 0 (cur s).micro.mp mpx.toNat).toNat
    if flg = 0 then (if o + 12 > 63 then .fault 3 s else .done (setMa px (BitVec.ofNat 13 (bits w (o + 12) o)) s) none)
    else if flg = 1 then (if o + 15 > 63 then .fault 3 s else .done (setMlc lx (bits w (o + 15) o) s) none)
    else if flg = 2 then .done (setMa px opd s) none
    else .fault 3 s) s

/-- BRANCHZ (R374). -/
def execBranchz (lx : BitVec 2) (tgt : BitVec 10) (s : State) : Host.Outcome State Fault Refusal :=
  microOp (fun s => .done s (if mlcOf s lx = 0 then some tgt.toNat else none)) s

/-- WAITW (R374). -/
def execWaitw (s : State) : Host.Outcome State Fault Refusal :=
  microOp (fun s => if s.gv.idle.st = 1 then .wait s else .done s none) s

/-- SCALE (R374). -/
def execScale (px : BitVec 2) (col : Bool) (s : State) : Host.Outcome State Fault Refusal :=
  microOp (fun s =>
    if !maRow (maOf s px) then .fault 2 s
    else if lostRows s (maOf s px) (mrfIdx (maOf s px)) (if col then 2 else 1) then .fault 7 s
    else microOf s (loadScale (microCtx s) (mrfIdx (maOf s px)) col s)) s

/-- NOPM: the run waits for IMM cycles (R374). -/
def execNopm (imm : BitVec 16) (s : State) : Host.Outcome State Fault Refusal :=
  microOp (fun s => .done (modCur s (fun c => { c with micro := { c.micro with wait := imm.toNat } })) none) s

/-- ENDM: the run ends (R374, R375). -/
def execEndm (s : State) : Host.Outcome State Fault Refusal :=
  .next (if (cur s).micro.running && (cur s).micro.wait == 0 && capReady s then
    (if 2 ^ 20 ≤ (cur s).micro.count then stopMicro (some 6) s else stopMicro none (noteM s))
  else s)

/-- The microword that a run stands at. -/
def microWord (s : State) : Word := rget 0 s.gv.ustore (cur s).micro.mpc

end Sys2Proof.Machine
end

