-- ==== Sys2Proof/Machine/Branch.lean ====
section
/-!
DEFINITION. The ops of position b (R271 to R284, R457, R458): transfers, counted loops, skip predicates, the control
block, and the ops that end, continue, trap or wait.
-/

namespace Sys2Proof.Machine

/-! ## Transfers (R271 to R274) -/

/-- The target H + 8 × OFF34 (R271). -/
def relTarget (c : Stream) (off : BitVec 34) : Word := c.pc + BitVec.ofInt 64 (8 * off.toInt)

/-- The address of the next bundle (R274). -/
def linkOf (c : Stream) : Word := c.pc + w64 c.blen

/-- A taken transfer: the pc moves when the issue commits. -/
def jump (t : Word) (s : State) : State := modCur s (fun c => { c with npc := some t })

/-- BR (R273). -/
def opBr (off : BitVec 34) : OpM := fun x s => .ok (jump (relTarget (cur x.rd) off) s)
def execBr (q : Guard) (off : BitVec 34) (s : State) : Host.Outcome State Fault Refusal := issueOne .b q (opBr off) s

/-- BRI (R273). -/
def opBri (n : Reg) (off : BitVec 34) : OpM := fun x s => .ok (jump (gr x n + BitVec.ofInt 64 (8 * off.toInt)) s)
def execBri (q : Guard) (n : Reg) (off : BitVec 34) (s : State) : Host.Outcome State Fault Refusal :=
  issueOne .b q (opBri n off) s

/-- CALL: the link to G[AUX] (R274). -/
def opCall (n : Reg) (off : BitVec 34) : OpM :=
  fun x s => .ok (jump (relTarget (cur x.rd) off) (setG s n (linkOf (cur x.rd))))
def execCall (q : Guard) (n : Reg) (off : BitVec 34) (s : State) : Host.Outcome State Fault Refusal :=
  issueOne .b q (opCall n off) s

/-- CALLI (R274). -/
def opCalli (n link : Reg) : OpM := fun x s => .ok (jump (gr x n) (setG s link (linkOf (cur x.rd))))
def execCalli (q : Guard) (n link : Reg) (s : State) : Host.Outcome State Fault Refusal := issueOne .b q (opCalli n link) s

/-- The task may end: every load, register write and CLD delivery of it has landed, those of its microprogram among them (R280). -/
def endReady (x : OpCtx) : Except (Stop State) Unit :=
  let c := cur x.rd
  waitFor (c.pend.isEmpty && !c.micro.running && x.rd.gv.clds.all (fun m => m.task != c.task))

/-- The task ends when the issue commits (R280). -/
def ends (s : State) : State := modCur s (fun c => { c with ending := true })

/-- RET; to the task-end value it ends the task (R272, R274, R280). -/
def opRet (n : Reg) : OpM := fun x s => do
  if gr x n = taskEnd then
    endReady x
    return ends s
  else return jump (gr x n) s
def execRet (q : Guard) (n : Reg) (s : State) : Host.Outcome State Fault Refusal := issueOne .b q (opRet n) s

/-! ## Loops and skip predicates (R275 to R278) -/

/-- LCk written. -/
def setLc (s : State) (k : Nat) (v : BitVec 32) : State := modCur s (fun c => { c with lc := rset 0 c.lc k v })

/-- LSET (R275). -/
def opLset (k : BitVec 3) (src : LoopSrc) : OpM := fun x s =>
  .ok (setLc s k.toNat (match src with | .imm n => n | .reg r => (gr x r).setWidth 32))
def execLset (q : Guard) (k : BitVec 3) (src : LoopSrc) (s : State) : Host.Outcome State Fault Refusal :=
  issueOne .b q (opLset k src) s

/-- LOOP (R276). -/
def opLoop (k : BitVec 3) (off : BitVec 34) : OpM := fun x s =>
  let n := rget 0 (cur x.rd).lc k.toNat
  .ok (if n.toNat ≥ 2 then jump (relTarget (cur x.rd) off) (setLc s k.toNat (n - 1)) else setLc s k.toNat 0)
def execLoop (q : Guard) (k : BitVec 3) (off : BitVec 34) (s : State) : Host.Outcome State Fault Refusal :=
  issueOne .b q (opLoop k off) s

/-- An 8-byte or 64-byte block read at home on path 0x0 or 0x2 (R277, R458): its bytes and its home address. Its value is taken by
the commit, so its line has to be at hand; an uncorrectable one is MEM_UE. It is a load: what was filled from an older value of the line
is dropped (R129). -/
def homeBlock (a n : Nat) (s0 : State) : Except (Stop State) (List Byte × Nat × State) := do
  let (pa, s) ← homeOf02 .ld n a s0
  let (lost, t) ← inHand false s (askHome .dev pa (dropLine (pa / 128) s))
  if lost || lineUe s .dev pa n then faultWith .memUe 0 (w64 a)
  let t ← keepAsks s0 t
  return (homeBytes (seen s) .dev pa n, pa, t)

/-- LCLD loads LC0–LC7 and SKIPP from the control block (R204, R277). -/
def opLcld (n : Reg) (off : BitVec 34) : OpM := fun x s => do
  let a := (gr x n + BitVec.ofInt 64 (64 * off.toInt)).toNat
  let (bs, _, s) ← homeBlock a 64 s
  return modCur s (fun c => { c with
    lc := (List.range 8).foldl (fun m k => rset 0 m k (BitVec.ofNat 32 (leNat ((bs.drop (4 * k)).take 4)))) c.lc
    skipp := leW (bs.drop 32) })
def execLcld (q : Guard) (n : Reg) (off : BitVec 34) (s : State) : Host.Outcome State Fault Refusal :=
  issueOne .b q (opLcld n off) s

/-- SKSET (R278). -/
def opSkset (n : BitVec 6) : OpM := fun _ s =>
  .ok (modCur s (fun c => { c with skipp := c.skipp ||| w64 (2 ^ n.toNat) }))
def execSkset (q : Guard) (n : BitVec 6) (s : State) : Host.Outcome State Fault Refusal := issueOne .b q (opSkset n) s

/-- SKCLR (R278). -/
def opSkclr (n : BitVec 6) : OpM := fun _ s =>
  .ok (modCur s (fun c => { c with skipp := c.skipp &&& ~~~w64 (2 ^ n.toNat) }))
def execSkclr (q : Guard) (n : BitVec 6) (s : State) : Host.Outcome State Fault Refusal := issueOne .b q (opSkclr n) s

/-! ## Ending and continuing a task (R279, R280) -/

/-- The phase that a CONT writes: the next once the Grove has arrived (R51). -/
def contPhase (s : State) (c : Stream) : Nat :=
  let l := launchOf s c.launch
  (l.phase + (if opExplicit l && decide (s.gv.id ∈ l.arrived) then 1 else 0)) % 4096

/-- CONT (R279): checks, the release, room in the queue, the record, the end of the task. -/
def opCont (n : Reg) (off : BitVec 34) : OpM := fun x s => do
  let c := cur x.rd
  let aux := if n = 0 then 0 else grN x n
  let base := opWord (launchOf s c.launch) 2
  let tgt := (relTarget c off).toNat
  need (decide (base ≤ tgt) && decide ((tgt - base) / 8 < 2 ^ 32)) .badRecord
  need (bits aux 63 48 == 0) .badRecord
  endReady x
  waitFor (!queueFull (queueOf s c.queue))
  let s ← if c.prov then pure s else release s
  let w0 := w64 ((tgt - base) / 8 * 2 ^ 32 + bits aux 31 0)
  let w2 := if bits aux 47 32 = 0 then c.r2 else withField c.r2 32 16 (bits aux 47 32)
  let w3 := withField c.r3 52 12 (contPhase s c)
  return ends (enqueue c.queue w0 c.r1 w2 w3 true s)
def execCont (q : Guard) (n : Reg) (off : BitVec 34) (s : State) : Host.Outcome State Fault Refusal :=
  issueOne .b q (opCont n off) s

/-- END (R280). -/
def opEndTask : OpM := fun x s => do
  endReady x
  return ends s
def execEndTask (q : Guard) (s : State) : Host.Outcome State Fault Refusal := issueOne .b q opEndTask s

/-! ## Traps (R281, R282) -/

/-- TRAP: its issue commits and the task is saved before its next bundle (R281). -/
def opTrap (code : BitVec 6) (payload : BitVec 16) : OpM := fun _ s => .ok (noteTrap 1 code.toNat payload.toNat s)
def execTrap (q : Guard) (code : BitVec 6) (payload : BitVec 16) (s : State) : Host.Outcome State Fault Refusal :=
  issueOne .b q (opTrap code payload) s

/-- BRK: no effect while DBGEN is clear, else a BREAK event (R282). -/
def opBrk (tag : BitVec 16) : OpM := fun x s =>
  .ok (if bit (rget 0 x.rd.dev.sysctl (partOf x.rd (cur x.rd))).toNat 1 then noteTrap 4 0 tag.toNat s else s)
def execBrk (q : Guard) (tag : BitVec 16) (s : State) : Host.Outcome State Fault Refusal := issueOne .b q (opBrk tag) s

/-! ## ERET and IDLE (R457, R458) -/

/-- Privileged ops at kernel level (R421). -/
def needPriv (x : OpCtx) : Except (Stop State) Unit := need ((cur x.rd).level != 0) .priv

/-- The header of an image is well formed (R456, result 4). -/
def imageWellFormed (bs : List Byte) : Bool :=
  let w (k : Nat) : Nat := (imgWord bs (8 * k)).toNat
  bits (w 0) 63 48 == 1 && bits (w 0) 8 0 == 0 && w 1 % 8 == 0 && bits (w 2) 63 17 == 0 && !bit (w 2) 7 &&
  decide (recMwb (w64 (w 7)) ≤ recMwl (w64 (w 7))) && decide (recMwl (w64 (w 7)) ≤ 47) &&
  (!recNowin (w64 (w 7)) || recMwl (w64 (w 7)) == 0) && bits (w 7) 12 0 == 0 && bits (w 8) 63 48 == 0 && !bit (w 15) 0 &&
  [21, 23, 25, 27].all (fun k => bits (w k) 63 17 == 0) && [28, 29, 30, 31].all (fun k => w k == 0)

/-- The saved context of a slot. -/
def savedAt (s : State) (part id : Nat) : Option SavedCtx := s.dev.ctxlive.find? (fun x => x.part == part && x.slot == id)

/-- The result of validating an image (R456): 0 where it is accepted. A slot that holds no image of a saved task has
result 2. -/
def imageCode (s : State) (part id : Nat) : Nat :=
  if id ≥ bits (rget 0 s.dev.ctxarea part).toNat 11 0 then 1
  else
    match savedAt s part id, imageBytes s part id with
    | some x, some bs =>
      if !bit (imgWord bs 0).toNat 47 || x.entry then 2
      else if !((launchOf s x.launch).st == .active || inBoundary (launchOf s x.launch)) then 3
      else if !imageWellFormed bs then 4
      else 0
    | _, _ => 2

/-- The image may run on this Grove and on the acting stream once its task has ended: its Grove and placement, the windows
of the other stream's task and of held tasks, and what it needs of the Grove (R33, R37, R192, R452, R457). -/
def eretFits (s : State) (part id : Nat) : Bool :=
  match savedAt s part id, imageBytes s part id with
  | some x, some bs =>
    let t := endTask s.sel s
    let l := launchOf t x.launch
    imageFits t bs && l.st == .active &&
    admits t (queueOf t x.queue) s.sel { w0 := imgWord bs 32, w1 := imgWord bs 40, w2 := imgWord bs 48,
                                         w3 := withField (imgWord bs 56) 46 6 x.launch }
  | _, _ => false

/-- ERET ends the task and takes the image, which the device reads as the task ends (R457). -/
def opEret (n : Reg) : OpM := fun x s => do
  needPriv x
  let part := partOf x.rd (cur x.rd)
  let id := bits (grN x n) 31 0
  waitFor (!imageWaits x.rd part id)
  need (imageCode x.rd part id == 0 && eretFits x.rd part id) .ctxBad
  endReady x
  return modCur s (fun c => { c with ending := true, eretTo := some id })
def execEret (q : Guard) (n : Reg) (s : State) : Host.Outcome State Fault Refusal := issueOne .b q (opEret n) s

/-- IDLE reads the word at home and waits for it to change (R458). -/
def opIdle (n : Reg) : OpM := fun x s => do
  needPriv x
  let a := grN x n
  let (bs, pa, s) ← homeBlock a 8 s
  return modCur s (fun c => { c with idleSeen := some (pa, leW bs) })
def execIdle (q : Guard) (n : Reg) (s : State) : Host.Outcome State Fault Refusal := issueOne .b q (opIdle n) s

/-- The wait of IDLE is over: the word differs, or the segment's allowance has run out (R458). -/
def idleOver (s : State) (c : Stream) : Bool :=
  match c.idleSeen with
  | none => false
  | some (pa, v) => homeWord s .dev pa != v || decide (c.used ≥ c.allow)

/-- IDLE_WAKE: the stream goes on at its next bundle (R458). -/
def execIdleWake (b : Bool) (s : State) : Host.Outcome State Fault Refusal :=
  .next (if idleOver s (strm s b) then
    setStrm s b { strm s b with idleSeen := none, status := if (strm s b).status == .stalled then .running else (strm s b).status }
  else s)

end Sys2Proof.Machine
end

