-- ==== Sys2Proof/Machine/Random.lean ====
section
/-!
DEFINITION. Random words (R212 to R214): the ChaCha8 block, the word of a ticket, and the rings of the random word
engine.
-/

namespace Sys2Proof.Machine

/-- The ChaCha quarter round on words a, b, c, d of the state. -/
def quarter (a b c d : Nat) (x : List (BitVec 32)) : List (BitVec 32) :=
  let g (n : Nat) : BitVec 32 := x.getD n 0
  let a1 := g a + g b
  let d1 := (g d ^^^ a1).rotateLeft 16
  let c1 := g c + d1
  let b1 := (g b ^^^ c1).rotateLeft 12
  let a2 := a1 + b1
  let d2 := (d1 ^^^ a2).rotateLeft 8
  let c2 := c1 + d2
  let b2 := (b1 ^^^ c2).rotateLeft 7
  (((x.set a a2).set b b2).set c c2).set d d2

/-- Two rounds: the columns, then the diagonals. -/
def doubleRound (x : List (BitVec 32)) : List (BitVec 32) :=
  let x := quarter 3 7 11 15 (quarter 2 6 10 14 (quarter 1 5 9 13 (quarter 0 4 8 12 x)))
  quarter 3 4 9 14 (quarter 2 7 8 13 (quarter 1 6 11 12 (quarter 0 5 10 15 x)))

/-- The ChaCha block of four double rounds, the input added to the output (R212). -/
def chacha8 (x : List (BitVec 32)) : List (BitVec 32) :=
  (doubleRound (doubleRound (doubleRound (doubleRound x)))).zipWith (fun a b => a + b) x

/-- The input words of the block that holds ticket n of slot q (R212). -/
def chachaInput (seed : List (BitVec 32)) (n q : Nat) : List (BitVec 32) :=
  [0x61707865, 0x3320646E, 0x79622D32, 0x6B206574] ++ seed ++
  [BitVec.ofNat 32 (n / 16), BitVec.ofNat 32 (n / 16 / 2 ^ 32), BitVec.ofNat 32 q, 0]

/-- The random word of ticket n of a slot (R212). -/
def ticketWord (s : State) (q n : Nat) : BitVec 32 :=
  (chacha8 (chachaInput (rgetN 0 s.dev.seeds (8 * q) 8) n q)).getD (n % 16) 0

/-- Word k of a slot record (R200). -/
def slotWord (s : State) (q k : Nat) : Word := rget 0 s.dev.slots (4 * q + k)

/-- Word k of a slot record written. -/
def putSlotWord (s : State) (q k : Nat) (v : Word) : State :=
  modDev s (fun d => { d with slots := rset 0 d.slots (4 * q + k) v })

/-- The words that the ring of a slot holds. -/
def ringHas (s : State) (q : Nat) : Nat := rget 0 s.dev.rings q

/-- The ring of a slot filled up to 16 words (R213). -/
def refillRing (q : Nat) (s : State) : State :=
  if q < 4096 then modDev s (fun d => { d with rings := rset 0 d.rings q 16 }) else s

/-- One word taken, from a ring that refills where it is empty: TICKET moves on by one (R213, R214). -/
def takeWord (q : Nat) (s : State) : BitVec 32 × State :=
  let n := (slotWord s q 1).toNat
  let s' := putSlotWord s q 1 (w64 (n + 1))
  (ticketWord s q n, modDev s' (fun d => { d with rings := rset 0 d.rings q ((if rget 0 d.rings q = 0 then 16 else rget 0 d.rings q) - 1) }))

/-- RWE_RING_REFILL: the ring of a slot is refilled in ticket order (R212, R213). -/
def execRweRingRefill (slot : Nat) (s : State) : Host.Outcome State Fault Refusal := .next (refillRing slot s)

end Sys2Proof.Machine
end

