-- ==== Sys2Proof/Machine/Slots.lean ====
section
/-!
DEFINITION. Sequence slots (R200 to R206, R215 to R221): eligibility, the division of check slots, the commit of a row,
the control block, and the pending configuration of slots.
-/

namespace Sys2Proof.Machine

/-! ## Slot records (R200 to R202) -/

/-- A slot is eligible (R202). -/
def slotEligible (s : State) (q : Nat) : Bool :=
  let x := (slotWord s q 0).toNat
  bit x 31 && !bit x 30 && !bit x 29 && !bit x 28

/-- EST of a slot, as an FP32 code. -/
def slotEst (s : State) (q : Nat) : Nat := bits (slotWord s q 2).toNat 63 32

/-- ALLOC of a slot. -/
def slotAlloc (s : State) (q : Nat) : Nat := bits (slotWord s q 2).toNat 31 27

/-- ALLOC of a slot written. -/
def setAlloc (q n : Nat) (s : State) : State := putSlotWord s q 2 (withField (slotWord s q 2) 27 5 n)

/-- STATUS bits of a slot set. -/
def setStatus (q m : Nat) (s : State) : State := putSlotWord s q 0 (slotWord s q 0 ||| w64 m)

/-! ## The division of check slots (R215) -/

/-- The value that an EST counts as: NaN, negative and −0 count as +0. Where only the order counts, +∞ is above every
finite value; the spec gives no quotient for +∞: a free weight. -/
def estValue (ordered : Bool) (s : State) (q : Nat) : (Nat × Int) × State :=
  match f32 (slotEst s q) with
  | .nan _ _ => ((0, 0), s)
  | .inf sg =>
    if sg then ((0, 0), s)
    else if ordered then ((1, 128), s)
    else let (w, s) := takeFree s; ((w.toNat, 0), s)
  | .fin sg m e => (if sg then (0, 0) else (m, e), s)

/-- The values of several slots. -/
def estValues (ordered : Bool) : List Nat → State → List (Nat × Nat × Int) × State
  | [], s => ([], s)
  | q :: r, s =>
    let (v, s) := estValue ordered s q
    let (vs, s) := estValues ordered r s
    ((q, v.1, v.2) :: vs, s)

/-- Values as integer weights of one unit. -/
def toWeights (vs : List (Nat × Nat × Int)) : List (Nat × Nat) :=
  let e0 := (vs.filter (fun v => v.2.1 != 0)).foldl (fun a v => min a v.2.2) 0
  vs.map (fun v => (v.1, v.2.1 * 2 ^ (v.2.2 - e0).toNat))

/-- Insertion by descending key, ties to the lower slot. -/
def insBig (x : Nat × Nat) : List (Nat × Nat) → List (Nat × Nat)
  | [] => [x]
  | y :: r => if x.2 > y.2 || (x.2 == y.2 && decide (x.1 < y.1)) then x :: y :: r else y :: insBig x r

/-- The n entries of largest key, ties to the lower slot. -/
def largest (n : Nat) (xs : List (Nat × Nat)) : List Nat := ((xs.foldl (fun a x => insBig x a) []).take n).map (fun x => x.1)

/-- The rounds of R215 over the slots still in S with R left; fuel is the number of slots and one. -/
def divideRounds : Nat → List (Nat × Nat) → Nat → List (Nat × Nat)
  | 0, _, _ => []
  | fuel + 1, ws, r =>
    if ws.isEmpty then []
    else
      let ws1 := if (ws.map (fun w => w.2)).sum = 0 then ws.map (fun w => (w.1, 1)) else ws
      let tot := (ws1.map (fun w => w.2)).sum
      let k := ws1.filter (fun w => decide (15 * tot ≤ r * w.2))
      if k.isEmpty then
        let fl := ws1.map (fun w => (w.1, r * w.2 / tot))
        let left := r - (fl.map (fun w => w.2)).sum
        let more := largest left (ws1.map (fun w => (w.1, r * w.2 % tot)))
        fl.map (fun w => (w.1, 1 + w.2 + (if w.1 ∈ more then 1 else 0)))
      else
        k.map (fun w => (w.1, 16)) ++
          divideRounds fuel (ws.filter (fun w => !k.any (fun v => v.1 == w.1))) (r - 15 * k.length)

/-- The division of C check slots among slots with weights (R215). -/
def divide (c : Nat) (ws : List (Nat × Nat)) : List (Nat × Nat) :=
  if c < ws.length then
    let top := largest c ws
    ws.map (fun w => (w.1, if w.1 ∈ top then 1 else 0))
  else divideRounds (ws.length + 1) ws (c - ws.length)

/-- ALLOC written for the slots named, ineligible ones 0; the sum allocated (R215, R395). With no eligible slot, R215 says both
that nothing is written and that an ineligible slot's ALLOC is 0: it is written (DESIGN CHOICE, notes/assumptions/70.md). -/
def allocate (c : Nat) (slots : List Nat) (s : State) : Nat × State :=
  let slots := slots.eraseDups
  let el := slots.filter (slotEligible s)
  let (vs, s) := estValues (decide (c < el.length)) el s
  let al := if el.isEmpty then [] else divide c (toWeights vs)
  let s := (slots.filter (fun q => decide (q ∉ el))).foldl (fun s q => setAlloc q 0 s) s
  let s := al.foldl (fun s a => setAlloc a.1 a.2 s) s
  ((al.map (fun a => a.2)).sum, s)

/-! ## The commit of a row (R216, R219, R220, R396) -/

/-- The fields of a commit row. -/
def rowSlot (ls : List Lane) : Nat := (ls.getD 0 0).toNat % 4096
def rowNacc (ls : List Lane) : Nat := bits (ls.getD 0 0).toNat 16 12
def rowXtra (ls : List Lane) : Nat := bits (ls.getD 0 0).toNat 17 17
def rowValid (ls : List Lane) : Bool := bit (ls.getD 0 0).toNat 31

/-- A row that GCMT skips with a GCMT_ROW record; seen are the slots of earlier rows (R396). -/
def rowBad (s : State) (part : Nat) (seen : List Nat) (ls : List Lane) : Bool :=
  let n := rowNacc ls + rowXtra ls
  bits (ls.getD 0 0).toNat 30 22 != 0 || decide (n > 31) ||
  ((ls.drop 1).take n).any (fun l => decide (l.toNat ≥ 2 ^ 20)) ||
  !slotShare s part (rowSlot ls) || decide (rowSlot ls ∈ seen)

/-- The tokens that a row emits: NACC taken as at most ALLOC, and the final token (R221). -/
def rowTokens (s : State) (ls : List Lane) : List Nat :=
  let n := min (rowNacc ls) (slotAlloc s (rowSlot ls))
  (((ls.drop 1).take n) ++ (if rowXtra ls = 1 then [ls.getD (rowNacc ls + 1) 0] else [])).map (fun l => l.toNat % 2 ^ 20)

/-- Words 1 to 15 of a commit record (R481). -/
def commitWords (slot ctok : Nat) (toks : List Nat) : List Word :=
  w64 (slot + toks.length * 2 ^ 16 + ctok * 2 ^ 32) ::
  ((List.range 11).map (fun m =>
    w64 (toks.getD (3 * m) 0 + toks.getD (3 * m + 1) 0 * 2 ^ 20 + toks.getD (3 * m + 2) 0 * 2 ^ 40))) ++ [0, 0, 0]

/-- EST after a commit with a accepted drafts (R216). -/
def estAfter (est a : Nat) : Nat :=
  match f32 est with
  | .nan _ _ => quietCode fFP32 est
  | .inf _ => est
  | .fin sg m e => (rneX fFP32 (xadd (.fin sg (7 * m) (e - 3)) (.fin false a (-3)))).1

/-- The key of a partition's token queue (R477). -/
def tokenRing (part : Nat) : Nat := ringKey part 2 0

/-- The commit of a row needs room in the token queue. -/
def rowEmits (s : State) (ls : List Lane) : Bool :=
  slotEligible s (rowSlot ls) && !(rowTokens s ls).isEmpty

/-- A valid row committed (R220); the token queue has room where the row emits. -/
def commitRow (part : Nat) (ls : List Lane) (s : State) : State :=
  let q := rowSlot ls
  let x := (ls.getD 0 0).toNat
  let el := slotEligible s q
  let toks := rowTokens s ls
  let s := setStatus q ((bit x 18).toNat + 2 * (bit x 19).toNat + 4 * (bit x 20).toNat) s
  if !el then s
  else
    let s := if toks.isEmpty then s
      else
        let ctok := bits (slotWord s q 0).toNat 63 32
        let seq := rget 0 s.dev.seqctr part + 1
        let s := ringWrite (tokenRing part) (commitWords q ctok toks) s
        putSlotWord (putSlotWord s q 0 (withField (slotWord s q 0) 32 32 ((ctok + toks.length) % 2 ^ 32))) q 3 (w64 seq)
    let a := min (rowNacc ls) (slotAlloc s q)
    let s := putSlotWord s q 2 (withField (slotWord s q 2) 32 32 (estAfter (slotEst s q) a))
    if bit x 21 then setStatus q (2 ^ 28) s else s

/-! ## The control block (R204, R205) -/

/-- The 64 bytes of the control block that a descriptor names, for the slots of the committed rows. -/
def controlBlock (s : State) (desc : List Byte) (slots : List Nat) : List Byte :=
  let el := slots.filter (slotEligible s)
  let codes := leNat ((desc.drop 56).take 2)
  let lc (k : Nat) : Nat :=
    let src := codes / 4 ^ k % 4
    if src = 0 then leNat ((desc.drop (4 * k)).take 4)
    else if src = 1 then el.length
    else if src = 2 then (el.map (slotAlloc s)).sum
    else el.foldl (fun m q => max m (slotAlloc s q)) 0
  let lcs := (List.range 8).map lc
  let skip := leNat ((desc.drop 32).take 8)
  let zeros := ((List.range 8).map (fun k => if lcs.getD k 0 = 0 then 2 ^ (32 + k) else 0)).sum
  lcs.flatMap (natLe 4) ++ natLe 8 (skip % 2 ^ 32 + skip / 2 ^ 40 * 2 ^ 40 + zeros) ++ (desc.drop 40).take 8 ++ natLe 16 0

end Sys2Proof.Machine
end

