-- ==== Sys2Proof/Machine/Jobs.lean ====
section
/-!
DEFINITION. Job cards (R378 to R396, R401): issue and its checks, footprints (R140), the sequencer (R141), execution,
completion, failure, replay, and what happens to them at a shape's resolution.
-/

namespace Sys2Proof.Machine

/-! ## Cards and their locations (R380 to R382) -/

/-- A card: its op code and its four words. -/
structure Card where
  op : Nat
  w0 : Nat
  w1 : Nat
  w2 : Nat
  w3 : Nat
  fs : Word := 0
  fd : Word := 0
  members : Nat := 0
  deriving DecidableEq, Repr

/-- The kind bits. -/
def Card.sk (c : Card) : Bool := bit c.w2 63
def Card.dk (c : Card) : Bool := bit c.w2 62
/-- IK of XGATH and XSCAT, and of XRED. -/
def Card.ik (c : Card) : Bool := if c.op = 0x103 then bit c.w2 60 else bit c.w2 61
/-- IX of XRED. -/
def Card.ix (c : Card) : Bool := bit c.w2 61
/-- NIDX and NEL in [47:24], TLEN. -/
def Card.count (c : Card) : Nat := bits c.w2 47 24
def Card.tlen (c : Card) : Nat := bits c.w2 23 0
/-- ES of XGATH and XSCAT. -/
def Card.es (c : Card) : Nat := bits c.w2 60 48
/-- TYPE and ROP of XRED. -/
def Card.typ (c : Card) : Nat := bits c.w2 56 52
def Card.rop (c : Card) : Nat := bits c.w2 59 57
/-- LEN in [31:0]. -/
def Card.len (c : Card) : Nat := bits c.w2 31 0
/-- ST of XCONV. -/
def Card.st (c : Card) : Nat := bits c.w2 61 57

/-- Bytes of an element of an XRED or XCOLL type. -/
def redSize (t : Nat) : Nat := if t = 17 || t = 18 then 2 else 4

/-- The location word of a kind 1 location has [63:48] zero (R380). -/
def locWordOk (kind : Bool) (w : Nat) : Bool := !kind || bits w 63 48 == 0

/-- The static checks of a card: field ranges and reserved bits (R381, R382, R389, R390, R391, R395, R396). -/
def cardOkBits (c : Card) : Bool :=
  let z (hi lo : Nat) : Bool := bits c.w2 hi lo == 0
  let src := locWordOk c.sk c.w0
  let dst := locWordOk c.dk c.w1
  match c.op with
  | 0x100 => src && dst && z 61 32 && c.len != 0
  | 0x101 | 0x102 =>
    src && dst && locWordOk c.ik c.w3 && decide (1 ≤ c.es) && decide (c.es ≤ 4096) && c.count != 0 && c.tlen != 0
  | 0x103 =>
    src && dst && z 51 48 && decide (c.rop ≤ 5) && c.count != 0 &&
    (c.typ == 23 || c.typ == 24 || (decide (c.rop ≤ 2) && decide (16 ≤ c.typ) && decide (c.typ ≤ 18))) &&
    (if c.ix then c.tlen != 0 && locWordOk c.ik c.w3 else c.tlen == 0 && c.w3 == 0)
  | 0x104 => src && dst && z 51 32 && c.w3 == 0 && decide (c.st ≤ 24) && decide (c.typ ≤ 24) && c.len != 0
  | 0x105 => dst && c.w0 == 0 && z 63 63 && z 61 58 && z 55 32 && c.len != 0 && c.len % 2 ^ bits c.w2 57 56 == 0
  | 0x106 =>
    let cop := bits c.w2 61 60
    src && dst && z 59 57 && z 51 32 && bits c.w3 15 10 == 0 && bits c.w3 39 32 == 0 && bits c.w3 63 48 == 0 && c.len != 0 &&
    cop != 3 && (if cop = 2 then (c.typ == 16 || c.typ == 23 || c.typ == 24) && c.len % 4 == 0 else c.typ == 0)
  | 0x107 => src && z 62 32 && c.w3 == 0 && c.len != 0
  | 0x108 =>
    src && z 62 10 && decide (1 ≤ bits c.w2 9 0) && decide (bits c.w2 9 0 ≤ 512) && c.w3 == 0 && bits c.w1 63 24 == 0
  | 0x110 =>
    let k := bits c.w2 39 32
    let d := bits c.w3 11 8
    src && dst && z 61 52 && decide (1 ≤ k) && decide (k ≤ 8) && decide (1 ≤ bits c.w2 31 16) && decide (bits c.w2 31 16 ≤ 4096) &&
    decide (1 ≤ bits c.w2 15 0) && decide (bits c.w2 15 0 ≤ 256) && decide (1 ≤ d) && decide (d ≤ 8) && bits c.w3 63 12 == 0
  | 0x111 =>
    let n := bits c.w2 12 0
    src && dst && z 60 32 && z 15 13 && c.w3 == 0 && decide (1 ≤ n) && decide (n ≤ 4096) &&
    (bit c.w2 61 || (!c.dk && c.w1 == 0))
  | 0x112 =>
    c.w2 == 0 && c.w3 == 0 && bits c.w0 63 23 == 0 && bits c.w0 15 11 == 0 && decide (1 ≤ bits c.w0 22 16) &&
    decide (bits c.w0 22 16 ≤ 64) && decide (bits c.w0 10 0 + bits c.w0 22 16 ≤ 1536)
  | _ => false

/-- A region of a card: a location word with its kind, an offset from it, a length; written or read; its alignment. -/
structure JLoc where
  kind : Bool
  base : Nat
  off : Nat
  len : Nat
  wr : Bool
  al : Nat := 1
  amo : Bool := false
  deriving DecidableEq, Repr

/-- The source regions of a card, in order (R382). -/
def Card.srcs (c : Card) : List JLoc :=
  let one (n : Nat) : List JLoc := [⟨c.sk, c.w0, 0, n, false, 1, false⟩]
  match c.op with
  | 0x100 => (List.range (max 1 (bits c.w3 15 0))).map (fun i => ⟨c.sk, c.w0, i * bits c.w3 39 16, c.len, false, 1, false⟩)
  | 0x101 => one (c.tlen * c.es)
  | 0x102 => one (c.count * c.es)
  | 0x103 => one (c.count * redSize c.typ)
  | 0x104 => one (cdiv (c.len * (tyOfCode (fun _ => c.fs) c.st).store) 8)
  | 0x106 | 0x107 => one c.len
  | 0x108 => one (bits c.w2 9 0 * 8192)
  | 0x110 => one (bits c.w2 15 0 * bits c.w2 31 16 * 4)
  | 0x111 => one (bits c.w2 12 0 * 4)
  | _ => []

/-- The destination regions of a card, in order. -/
def Card.dsts (c : Card) : List JLoc :=
  let one (n : Nat) : List JLoc := [⟨c.dk, c.w1, 0, n, true, 1, false⟩]
  match c.op with
  | 0x100 => (List.range (max 1 (bits c.w3 15 0))).map (fun i => ⟨c.dk, c.w1, i * bits c.w3 63 40, c.len, true, 1, false⟩)
  | 0x101 => one (c.count * c.es)
  | 0x102 => one (c.tlen * c.es)
  | 0x103 => [⟨c.dk, c.w1, 0, (if c.ix then c.tlen else c.count) * redSize c.typ, true, redSize c.typ, true⟩]
  | 0x104 => one (cdiv (c.len * (tyOfCode (fun _ => c.fd) c.typ).store) 8)
  | 0x105 => one c.len
  | 0x106 => one (if bits c.w2 61 60 = 1 then c.members * c.len else c.len)
  | 0x110 => one (bits c.w2 15 0 * bits c.w2 39 32 * 4)
  | 0x111 => if bit c.w2 61 then one 8 else []
  | _ => []

/-- The index region of a card. -/
def Card.idxs (c : Card) : List JLoc :=
  if c.op = 0x101 || c.op = 0x102 || (c.op = 0x103 && c.ix) then [⟨c.ik, c.w3, 0, 4 * c.count, false, 4, false⟩] else []

/-! ## Issue (R379, R381) -/

/-- The pages of a flat region checked for an access at issue: a page that is not mapped is no fault yet (R437). -/
def checkPages (k : AKind) : List (Nat × Nat) → State → Except (Stop State) State
  | [], s => .ok s
  | (a, _) :: r, s =>
    match xlateOp k a s with
    | .ok (_, s) => checkPages k r s
    | .error (.stall f) => .error (.stall f)
    | .error (.fault f) => if f.code = .xlate then checkPages k r s else .error (.fault f)

/-- The checks of one region, and its part of the footprint (R113, R140, R381). -/
def locCheck (x : OpCtx) (l : JLoc) (s : State) : Except (Stop State) (JRegion × State) := do
  if l.kind then
    let h := handleOf (seen s) (l.base % 256)
    let lo := bits l.base 47 8 + l.off
    need (usable h (cur x.rd) && !h.canopy && decide (lo + l.len ≤ handleBytes h)) .tileRange
    need (lo % l.al == 0) .misaligned 0 (w64 l.base)
    return ({ sp := 3, key := l.base % 256, lo := lo, len := l.len, wr := l.wr }, s)
  else
    let w := w64 l.base
    need (decide (lowOf l.base + l.off + l.len ≤ 2 ^ 57) || pathOf l.base ≥ 7 || (qualOf l.base != 0 && pathOf l.base != 3)) .pathFault 0 w
    let a := l.base + l.off
    addrCheck (if l.wr then .st else .ld) a l.len
    need (pathOf a != 6) .pathUse 0 w
    need (a % l.al == 0) .misaligned 0 (w64 a)
    let s ← checkPages (if l.amo then .amo else if l.wr then .st else .ld) (pageSegs a l.len (l.len / 65536 + 2)) s
    let lo := lowOf a
    return (if pathOf a = 3 then { sp := 0, lo := lo - lo % 2048, len := 2048, wr := l.wr }
      else { sp := if pathOf a = 5 then 1 else 0, lo := lo, len := l.len, wr := l.wr }, s)

/-- The checks of all regions. -/
def locsCheck (x : OpCtx) : List JLoc → State → Except (Stop State) (List JRegion × State)
  | [], s => .ok ([], s)
  | l :: r, s => do
    let (f, s) ← locCheck x l s
    let (fs, s) ← locsCheck x r s
    return (f :: fs, s)

/-- Word k of entry i of a partition's peer table (R529). -/
def peerWord (s : State) (part i k : Nat) : Nat := (rget 0 s.dev.peers (4 * (bits (ptw s part 12) 41 32 + i) + k)).toNat

/-- The kind and reserved bits of a peer-table entry (R529, R530). -/
def peerOk (s : State) (part i kind : Nat) : Bool :=
  let w0 := peerWord s part i 0
  bits w0 61 58 != 0 && bits w0 57 32 == 0 &&
  (if kind = 1 then bits (peerWord s part i 3) 63 47 == 0
   else bits (peerWord s part i 2) 63 14 == 0 && bits (peerWord s part i 2) 7 6 == 0 && peerWord s part i 3 == 0)

/-- The four words of an entry of a partition's peer table. -/
def peerEntry (s : State) (part i : Nat) : List Word := (List.range 4).map (fun k => w64 (peerWord s part i k))

/-- The entry that a job names: its number lies in the share, its kind is not the reserved one and is the one wanted, and the entry
keeps R529 (R391, R392, R529, R530). -/
def peerNamed (s : State) (part i kind : Nat) (w : Word) : Except (Stop State) Unit := do
  need (decide (i < bits (ptw s part 12) 10 0)) .pathUse 0 w
  need (bits (peerWord s part i 0) 63 62 != 3) .jobBad
  need (bits (peerWord s part i 0) 63 62 == kind) .pathUse 0 w
  need (peerOk s part i kind) .jobBad

/-- The peer checks of XCOLL: the group's entry and member list (R391, R529, R530). Answers word 2 of the entry, and the entries
that it reads. -/
def collGroup (x : OpCtx) (c : Card) (s : State) : Except (Stop State) ((Nat × List Word) × State) := do
  let part := partOf x.rd (cur x.rd)
  let g := bits c.w3 9 0
  peerNamed s part g 2 0
  let w2 := peerWord s part g 2
  let m := bits w2 5 0 + 1
  need (decide (2 ≤ m) && decide (bits w2 13 8 < m)) .jobBad
  need (decide (bits c.w3 47 40 < m)) .jobBad
  match devLoad part (peerWord s part g 1) (2 * m) s with
  | (some bs, s) =>
    let es := (List.range m).map (numAt2 bs)
    let ok := (List.range m).all (fun q =>
      let e := es.getD q 0
      q == bits w2 13 8 || (decide (e < bits (ptw s part 12) 10 0) && bits (peerWord s part e 0) 63 62 == 1 && peerOk s part e 1))
    if ok then return ((w2, peerEntry s part g ++ es.flatMap (peerEntry s part)), s) else faultWith .jobBad
  | (none, t) => if t.dev.waits && !s.dev.waits then stallNow else faultWith .jobBad
where
  /-- Halfword q of the member list. -/
  numAt2 (bs : List Byte) (q : Nat) : Nat := leNat ((bs.drop (2 * q)).take 2)

/-- The peer checks of XPEER: path 0x4, the entry, the window (R392, R529, R530). Answers the entry number and the entry. -/
def peerDest (x : OpCtx) (c : Card) (s : State) : Except (Stop State) (Nat × List Word) := do
  let part := partOf x.rd (cur x.rd)
  let a := c.w1
  let w := w64 a
  need (decide (pathOf a < 7) && (qualOf a == 0 || pathOf a == 3)) .pathFault 0 w
  need (pathOf a != 1 && pathOf a != 3) .pathRo 0 w
  need (pathOf a == 4) .pathUse 0 w
  let e := bits a 56 47
  peerNamed s part e 1 w
  need (decide (a % 2 ^ 47 + c.len ≤ peerWord s part e 3 % 2 ^ 47)) .pathUse 0 w
  return (e, peerEntry s part e)

/-- The canopy rows of XCANW (R393). -/
def canwRegion (x : OpCtx) (c : Card) (s : State) : Except (Stop State) JRegion := do
  let h := handleOf (seen s) (c.w1 % 256)
  let o := bits c.w1 23 8
  need (usable h (cur x.rd) && h.canopy && decide (o + bits c.w2 9 0 ≤ h.parts.length)) .tileRange
  return { sp := 3, key := c.w1 % 256, lo := 8192 * o, len := 8192 * bits c.w2 9 0, wr := true }

/-- The commit rows of GCMT lie in the window (R396). -/
def gcmtRows (x : OpCtx) (c : Card) : Except (Stop State) (List (List Lane)) := do
  let r := bits c.w0 10 0
  let n := bits c.w0 22 16
  idxCheck (cur x.rd) r
  idxCheck (cur x.rd) (r + n - 1)
  return (List.range n).map (fun i => mrfRow x.rd (r + i))

/-- The descriptor address of GCMT is one it may have (R396). -/
def descOk (a : Nat) : Bool := a % 64 == 0 && decide (pathOf a ≤ 2) && qualOf a == 0

/-- The descriptor of GCMT as a part of the footprint, its pages checked; one that GCMT may not have makes the job fail
when it starts (R379, R396). -/
def descRegion (a : Nat) (s : State) : Except (Stop State) (List JRegion × State) :=
  if descOk a then do
    let s ← checkPages .ld (pageSegs a 64 2) s
    return ([{ sp := 0, lo := lowOf a, len := 64 }], s)
  else .ok ([], s)

/-- The control block that the descriptor at an address names as it stands, as a part of the footprint (R140, R396). -/
def blockRegion (s : State) (a : Nat) : List JRegion :=
  let c := cur s
  match translate .ld c.asid c.level (partOf s c) a s with
  | (.ok (sp, pa, _), _) => [{ sp := 0, lo := lowOf (homeNat s sp (pa + 48) 8), len := 64, wr := true }]
  | _ => []

/-- A buffered byte lies in the read footprint of a card in its address space (R127). -/
def readsByte (c : Stream) (foot : List JRegion) (e : BufByte) : Bool :=
  e.asid == c.asid && foot.any (fun r => r.sp == 0 && !r.wr && granuleMeet e.va 1 r.lo r.len)

/-- The card accepted: the next job number of its partition, its place at the sequencer (R379). -/
def acceptJob (x : OpCtx) (k : Card) (cw : List Word) (gc : Reg) (cpa : Nat) (inc : BitVec 16) (exch : Bool)
    (foot : List JRegion) (rows : List (List Lane)) (peer : Nat × List Word) (s : State) : State :=
  let c := cur x.rd
  let part := partOf x.rd c
  let n := rget 0 s.dev.jobctr part + 1
  let j : Job := { seq := n, op := k.op, cw0 := cw.getD 0 0, cw1 := cw.getD 1 0, cw2 := cw.getD 2 0, cw3 := cw.getD 3 0,
                   counts := gc != 0, caddr := gr x gc, cpa := cpa, inc := inc.toNat, exch := exch, task := c.task, strm := x.rd.sel,
                   asid := c.asid, level := c.level, launch := c.launch, phase := recPhase c.r3, tile := tileOf x.rd c,
                   prov := c.prov, rows := rows, fmtS := k.fs, fmtD := k.fd, foot := foot, peer := w64 peer.1, dest := peer.2 }
  let s := modDev s (fun d => { d with jobctr := rset 0 d.jobctr part n })
  modGv s (fun g => { g with jobs := g.jobs ++ [j] })

/-- The card op: its checks in the order of R379, the waits of R117, R190 and R127, then its acceptance. -/
def opJob (code : Nat) (gb gc : Reg) (inc : BitVec 16) (exch : Bool) : OpM := fun x s => do
  let c := cur x.rd
  let cw := (List.range 4).map (fun k => gRead c (gb.toNat + k))
  let k0 : Card := { op := code, w0 := (cw.getD 0 0).toNat, w1 := (cw.getD 1 0).toNat, w2 := (cw.getD 2 0).toNat,
                     w3 := (cw.getD 3 0).toNat }
  if code = 0x106 || code = 0x107 || code = 0x111 || code = 0x112 then notProv x
  need (cardOkBits k0) .jobBad
  if code = 0x104 then
    fmtCheck c k0.st
    fmtCheck c k0.typ
  let k1 : Card := if code = 0x104 then { k0 with fs := fmtReg c k0.st, fd := fmtReg c k0.typ } else k0
  let (cpa, s) ← if gc = 0 then pure (0, s) else counterHome .amo (grN x gc) s
  let (peer, s) ← if code = 0x106 then collGroup x k1 s
    else if code = 0x107 then (do let e ← peerDest x k1 s; pure (e, s))
    else pure ((0, []), s)
  let k : Card := if code = 0x106 then { k1 with members := bits peer.1 5 0 + 1 } else k1
  let (f1, s) ← locsCheck x (k.srcs ++ k.idxs ++ k.dsts) s
  let f2 ← if code = 0x108 then (do let r ← canwRegion x k s; pure [r])
    else if code = 0x107 then pure [{ sp := 2, key := peer.1, lo := k.w1 % 2 ^ 47, len := k.len, wr := true }]
    else pure []
  let rows ← if code = 0x112 then gcmtRows x k else pure []
  let (f3, s) ← if code = 0x112 then descRegion k.w1 s else pure ([], s)
  -- XRED also reads its destination (R142, R390)
  let f4 : List JRegion := if code = 0x103 then (f1.filter (fun r => r.wr)).map (fun r => { r with wr := false }) else []
  let foot := f1 ++ f2 ++ f3 ++ f4
  waitFor (decide (s.gv.jobs.length < 64))
  if c.prov then waitFor (!s.gv.wbuf.any (fun e => e.task == c.task && readsByte c foot e))
  let p (e : BufByte) : Bool := !e.prov && readsByte c foot e
  let s := publish p s
  if !published p s then stallWith (publish p)
  else
    -- GCMT is a release at DEVICE scope: the stream's stores are published now, and the job waits for them (R138, R221)
    let s := if code = 0x112 then publish (ofStream s.sel) s else s
    return acceptJob x k cw gc cpa inc exch (foot ++ (if f3.isEmpty then [] else blockRegion s k.w1)) rows peer s

/-- XCOPY (R382, R386). -/
def execXcopy (q : Guard) (gb gc : Reg) (inc : BitVec 16) (exch : Bool) (s : State) : Host.Outcome State Fault Refusal :=
  issueOne .c q (opJob 0x100 gb gc inc exch) s
/-- XGATH (R382, R387). -/
def execXgath (q : Guard) (gb gc : Reg) (inc : BitVec 16) (exch : Bool) (s : State) : Host.Outcome State Fault Refusal :=
  issueOne .c q (opJob 0x101 gb gc inc exch) s
/-- XSCAT (R382, R387). -/
def execXscat (q : Guard) (gb gc : Reg) (inc : BitVec 16) (exch : Bool) (s : State) : Host.Outcome State Fault Refusal :=
  issueOne .c q (opJob 0x102 gb gc inc exch) s
/-- XRED (R382, R390). -/
def execXred (q : Guard) (gb gc : Reg) (inc : BitVec 16) (exch : Bool) (s : State) : Host.Outcome State Fault Refusal :=
  issueOne .c q (opJob 0x103 gb gc inc exch) s
/-- XCONV (R382, R388). -/
def execXconv (q : Guard) (gb gc : Reg) (inc : BitVec 16) (exch : Bool) (s : State) : Host.Outcome State Fault Refusal :=
  issueOne .c q (opJob 0x104 gb gc inc exch) s
/-- XFILL (R382, R389). -/
def execXfill (q : Guard) (gb gc : Reg) (inc : BitVec 16) (exch : Bool) (s : State) : Host.Outcome State Fault Refusal :=
  issueOne .c q (opJob 0x105 gb gc inc exch) s
/-- XCOLL (R382, R391). -/
def execXcoll (q : Guard) (gb gc : Reg) (inc : BitVec 16) (s : State) : Host.Outcome State Fault Refusal :=
  issueOne .c q (opJob 0x106 gb gc inc false) s
/-- XPEER (R382, R392). -/
def execXpeer (q : Guard) (gb gc : Reg) (inc : BitVec 16) (s : State) : Host.Outcome State Fault Refusal :=
  issueOne .c q (opJob 0x107 gb gc inc false) s
/-- XCANW (R382, R393). -/
def execXcanw (q : Guard) (gb gc : Reg) (inc : BitVec 16) (s : State) : Host.Outcome State Fault Refusal :=
  issueOne .c q (opJob 0x108 gb gc inc false) s
/-- RTSUB (R382, R394). -/
def execRtsub (q : Guard) (gb gc : Reg) (inc : BitVec 16) (s : State) : Host.Outcome State Fault Refusal :=
  issueOne .c q (opJob 0x110 gb gc inc false) s
/-- SPALLOC (R382, R395). -/
def execSpalloc (q : Guard) (gb gc : Reg) (inc : BitVec 16) (s : State) : Host.Outcome State Fault Refusal :=
  issueOne .c q (opJob 0x111 gb gc inc false) s
/-- GCMT (R382, R396). -/
def execGcmt (q : Guard) (gb gc : Reg) (inc : BitVec 16) (s : State) : Host.Outcome State Fault Refusal :=
  issueOne .c q (opJob 0x112 gb gc inc false) s

/-! ## The sequencer (R141) -/

/-- A job of the Grove by its number. -/
def jobOf (s : State) (n : Nat) : Option Job := s.gv.jobs.find? (fun j => j.seq == n)

/-- A job replaced by its number. -/
def setJob (j : Job) (s : State) : State :=
  modGv s (fun g => { g with jobs := g.jobs.map (fun i => if i.seq == j.seq then j else i) })

/-- Two regions overlap with one of them written (R140, R141). -/
def regDep (a b : JRegion) : Bool :=
  (a.wr || b.wr) && a.sp == b.sp && a.key == b.key && granuleMeet a.lo a.len b.lo b.len

/-- The slot unit's jobs: GCMT and SPALLOC (R396). -/
def slotJob (j : Job) : Bool := j.op == 0x111 || j.op == 0x112

/-- Two cards depend on one another (R141). -/
def jobDep (i j : Job) : Bool := i.foot.any (fun a => j.foot.any (regDep a))

/-- An earlier card holds back a later one: they overlap; both are the slot unit's, whose jobs go one at a time (R396); or
the earlier is a GCMT that has not read its descriptor, so that its control block is not settled (R141). -/
def holdsBack (i j : Job) : Bool :=
  decide (i.seq < j.seq) && (jobDep i j || (slotJob i && slotJob j) || (i.op == 0x112 && i.st == .queued))

/-- Stores that GCMT's release published before it still wait for an earlier card (R138, R221). -/
def releaseWaits (s : State) (j : Job) : Bool :=
  j.op == 0x112 && s.gv.wbuf.any (fun e => e.pub && ofStream j.strm e &&
    s.gv.jobs.any (fun i => decide (i.seq < j.seq) && i.foot.any (fun r => r.sp == 0 && granuleMeet e.va 1 r.lo r.len)))

/-- A queued job may start: no earlier card of the Grove holds it back. -/
def jobAdmitted (s : State) (j : Job) : Bool :=
  j.st == .queued && s.gv.jobs.all (fun i => !holdsBack i j) && !releaseWaits s j

/-! ## Reading and writing by a running job (R142, R143, R383) -/

/-- What a running job meets: a translation fault, a memory error, an index outside its table, or a wait. -/
inductive JobErr where
  | xlate (f : FaultInfo)
  | mem
  | foot
  | wait
  deriving DecidableEq, Repr

/-- What a running job reads or locates: the answer, or what it meets; the reads that it has made at home stay made in either case
(R500, R514). -/
abbrev JobM (α : Type) := Except (JobErr × State) α

/-- The card of an accepted job. -/
def jobCard (j : Job) : Card :=
  { op := j.op, w0 := j.cw0.toNat, w1 := j.cw1.toNat, w2 := j.cw2.toNat, w3 := j.cw3.toNat, fs := j.fmtS, fd := j.fmtD,
    members := bits j.peer.toNat 5 0 + 1 }

/-- The lines of home that a job's read of bytes [o, o + n) of a page run wants, whose first byte a lies at pa. -/
def wantLines (a pa o n : Nat) : List Nat :=
  ((List.range n).map (fun i => (if pathOf a = 3 then viewSource (a + o + i) (pa + o + i) else pa + o + i) / 128)).eraseDups

/-- The requests to home of a job's read of n bytes of one page: one for each line, and on path 0x3 one fetch of the whole
tile for each 128-byte part (R501). -/
def askPart (sp : Space) (a pa n : Nat) (s : State) : State :=
  if sp = .host then s
  else (lineSegs pa n (n / 128 + 2)).foldl (fun s g =>
    if pathOf a = 3 then askLines false (g.1 / 2048 * 16) 16 (wantLines a pa (g.1 - pa) g.2) s
    else askLines false (g.1 / 128) 1 [g.1 / 128] s) s

/-- The places of a flat range, page by page; path 0x3 reads the view (R112), and what is read is asked for at home. A place
is a space (0 device, 1 host, 2 scratchpad) and an address in it. A walk that meets an uncorrectable entry is a memory error of the
job (DESIGN CHOICE, notes/assumptions/90.md). -/
def flatPlaces (k : AKind) (j : Job) (part : Nat) : List (Nat × Nat) → State → JobM (List (Nat × Nat) × State)
  | [], s => .ok ([], s)
  | (a, n) :: r, s =>
    if walkWaits k j.asid j.level part a s then .error (.wait, s)
    else
    match translate k j.asid j.level part a s with
    | (.error f, u) => .error (if f.code = .memUe then .mem else .xlate f, u)
    | (.ok (sp, pa, _), s) => do
      let here := (List.range n).map (fun i =>
        if pathOf a = 3 then (0, viewSource (a + i) (pa + i)) else ((if sp = .host then 1 else 0), pa + i))
      let (rest, s) ← flatPlaces k j part r (if k == .st then s else askPart sp a pa n s)
      return (here ++ rest, s)

/-- The places of the bytes of a region. -/
def locPlaces (j : Job) (l : JLoc) (s : State) : JobM (List (Nat × Nat) × State) :=
  if l.kind then
    let h := handleOf s (l.base % 256)
    .ok ((List.range l.len).map (fun i => (2, spadKey h (bits l.base 47 8 + l.off + i))), s)
  else
    let a := l.base + l.off
    flatPlaces (if l.amo then .amo else if l.wr then .st else .ld) j (launchOf s j.launch).part (pageSegs a l.len (l.len / 65536 + 2)) s

/-- The places of several regions one after another. -/
def locsPlaces (j : Job) : List JLoc → State → JobM (List (Nat × Nat) × State)
  | [], s => .ok ([], s)
  | l :: r, s => do
    let (p, s) ← locPlaces j l s
    let (ps, s) ← locsPlaces j r s
    return (p ++ ps, s)

/-- The byte at a place. -/
def placeByte (s : State) (p : Nat × Nat) : Byte :=
  if p.1 = 0 then devByte s p.2 else if p.1 = 1 then hostByte s p.2 else rget 0 s.gv.spad p.2

/-- The device lines of places. -/
def placeLines (ps : List (Nat × Nat)) : List Nat := ((ps.filter (fun p => p.1 == 0)).map (fun p => p.2 / 128)).eraseDups

/-- The bytes at places, or a memory error (R385, R502); the job waits for a bank that holds accesses back (R505, R506). -/
def readPlaces (s : State) (ps : List (Nat × Nat)) : JobM (List Byte) :=
  let ls := placeLines ps
  if ls.any (fun l => heldIn s .dev (128 * l) 128) then .error (.wait, s)
  else if ls.any (fun l => ueIn s .dev (128 * l) 128) then .error (.mem, s)
  else .ok (ps.map (placeByte s))

/-- The bytes of regions read. -/
def readLocs (j : Job) (ls : List JLoc) (s : State) : JobM (List Byte × State) := do
  let (ps, s) ← locsPlaces j ls s
  let bs ← readPlaces s ps
  return (bs, s)

/-- One byte written at a place; spaces 4 to 6 are 0 to 2 with the high nibble kept (R388). -/
def putPlace (s : State) (o : Nat × Nat × Byte) : State :=
  let sp := o.1 % 4
  let v := if o.1 ≥ 4 then (placeByte s (sp, o.2.1) &&& 0xF0) ||| (o.2.2 &&& 0x0F) else o.2.2
  if sp = 0 then putByte s .dev o.2.1 v
  else if sp = 1 then putByte s .host o.2.1 v
  else modGv s (fun g => { g with spad := rset 0 g.spad o.2.1 v })

/-- Bytes written at their places; a device line written whole is correctable again (R502). -/
def putPlaces (outs : List (Nat × Nat × Byte)) (s : State) : State :=
  let s := { s with ue := s.ue.filter (fun l => !(List.range 128).all (fun i => outs.any (fun o => o.1 == 0 && o.2.1 == 128 * l + i))) }
  outs.foldl putPlace s

/-- Places with the bytes they receive. -/
def outsOf (ps : List (Nat × Nat)) (bs : List Byte) : List (Nat × Nat × Byte) := (ps.zip bs).map (fun x => (x.1.1, x.1.2, x.2))

/-! ## What each job computes (R386 to R390) -/

/-- The indices of a card. -/
def indices (bs : List Byte) (n : Nat) : List Int := (List.range n).map (fun e => sextI (leNat ((bs.drop (4 * e)).take 4)) 32)

/-- The index pairs (e, x) of the elements that are not skipped, or none: an index is at or above TLEN (R387). -/
def indexPairs (tlen : Nat) (xs : List Int) : Option (List (Nat × Nat)) :=
  if xs.any (fun x => decide (x ≥ (tlen : Int))) then none
  else some (((List.range xs.length).zip xs).filterMap (fun p => if p.2 < 0 then none else some (p.1, p.2.toNat)))

/-- Element i of es items. -/
def elemAt (es : Nat) (xs : List α) (i : Nat) : List α := (xs.drop (es * i)).take es

/-- The number in bytes es × e of a byte string. -/
def numAt (es : Nat) (bs : List Byte) (e : Nat) : Nat := leNat (elemAt es bs e)

/-- XCONV's elements: codes and flags (R388). -/
def convElems (k : Card) (bs : List Byte) : List (Nat × Nat) :=
  let st := tyOfCode (fun _ => k.fs) k.st
  let dt := tyOfCode (fun _ => k.fd) k.typ
  (List.range k.len).map (fun e =>
    cvtTo (payWidth st) dt (decT st (unitOf st.store (fun o => bs.getD o 0) e % 2 ^ st.width)))
where
  /-- The mantissa width of a type. -/
  payWidth : NTy → Nat
    | .flt f => f.M
    | .int _ _ => 0

/-- Codes packed at a storage width into places; an odd last nibble leaves the high half of its byte (R388). -/
def packOut (w : Nat) (vs : List Nat) (ps : List (Nat × Nat)) : List (Nat × Nat × Byte) :=
  if w = 4 then
    ((List.range ps.length).zip ps).map (fun x =>
      let lo := vs.getD (2 * x.1) 0
      if 2 * x.1 + 1 < vs.length then (x.2.1, x.2.2, BitVec.ofNat 8 (lo % 16 + vs.getD (2 * x.1 + 1) 0 % 16 * 16))
      else (x.2.1 + 4, x.2.2, BitVec.ofNat 8 (lo % 16)))
  else outsOf ps (vs.flatMap (natLe (w / 8)))

/-- One application of XRED or of XCOLL's reduction: new value and flags (R390, R391). -/
def redApply (rop t old v : Nat) : Nat × Nat :=
  let f : Option Fmt := if t = 16 then some fFP32 else if t = 17 then some fBF16 else if t = 18 then some fFP16 else none
  match f with
  | some f => if rop = 0 then fAdd f old v else if rop = 1 then fMin f old v else fMax f old v
  | none =>
    let i (x : Nat) : Int := if t = 23 then sextI x 32 else (x : Nat)
    (if rop = 0 then (old + v) % 2 ^ 32
     else if rop = 1 then (if i v < i old then v else old)
     else if rop = 2 then (if i old < i v then v else old)
     else if rop = 3 then old &&& v else if rop = 4 then old ||| v else old ^^^ v, 0)

/-- What a start leaves in its job: bytes to write, bytes to send, flags. -/
structure JobRun where
  out : List (Nat × Nat × Byte) := []
  send : List Byte := []
  flags : Nat := 0
  deriving DecidableEq, Repr

/-- The pairs of elements that an indexed move makes: of its dense region and of its table (R387). -/
def movedPairs (j : Job) (s : State) : JobM (List (Nat × Nat) × State) := do
  let k := jobCard j
  let (ib, s) ← readLocs j k.idxs s
  match indexPairs k.tlen (indices ib k.count) with
  | some prs => return (prs, s)
  | none => .error (.foot, s)

/-- Element e of n bytes of a location. -/
def elemLoc (l : JLoc) (n e : Nat) : JLoc := { l with off := n * e, len := n }

/-- The elements of an indexed move: only those that an index selects are read and written (R387). Answers their source bytes and
their destination places, n bytes for each pair. -/
def movedData (j : Job) (n : Nat) (prs : List (Nat × Nat)) (s : State) : JobM (List Byte × List (Nat × Nat) × State) := do
  let k := jobCard j
  let tableSrc := k.op = 0x101
  let at_ (ls : List JLoc) (f : Nat × Nat → Nat) : List JLoc := ls.flatMap (fun l => prs.map (fun p => elemLoc l n (f p)))
  let (src, s) ← readLocs j (at_ k.srcs (if tableSrc then fun p => p.2 else fun p => p.1)) s
  let (dp, s) ← locsPlaces j (at_ k.dsts (if tableSrc then fun p => p.1 else fun p => p.2)) s
  return (src, dp, s)

/-- The run of an indexed move (R387). -/
def indexRun (j : Job) (s : State) : JobM (JobRun × State) := do
  let (prs, s) ← movedPairs j s
  let (src, dp, s) ← movedData j (jobCard j).es prs s
  return ({ out := outsOf dp src }, s)

/-- The run of a copy-class or fabric job up to its completion (R386 to R389, R391, R392, R394). -/
def jobRun (j : Job) (s : State) : JobM (JobRun × State) := do
  let k := jobCard j
  if k.op = 0x101 || k.op = 0x102 then indexRun j s
  else
  let (dp, s) ← locsPlaces j k.dsts s
  let (src, s) ← readLocs j k.srcs s
  match k.op with
  | 0x100 => return ({ out := outsOf dp src }, s)
  | 0x104 =>
    let es := convElems k src
    return ({ out := packOut (tyOfCode (fun _ => k.fd) k.typ).store (es.map (fun e => e.1)) dp,
              flags := es.foldl (fun a e => a ||| e.2) 0 }, s)
  | 0x105 =>
    let w := 2 ^ bits k.w2 57 56
    let pat := natLe w (k.w3 % 2 ^ (8 * w))
    return ({ out := outsOf dp ((List.range k.len).map (fun i => pat.getD (i % w) 0)) }, s)
  | _ => return ({ send := src }, s)

/-! ## Completion and failure (R143, R144, R383, R385) -/

/-- The completion add (R144). -/
def jobCounter (j : Job) (poison : Bool) (s : State) : State :=
  if !j.counts then s else putWord (touchHome .dev j.cpa 8 s) .dev j.cpa (counterAdd (homeWord s .dev j.cpa) j.inc poison)

/-- The contributions of a reduction applied in order; answers the flags (R390). -/
def applyRed (k : Card) : List RedItem → State → Nat × State
  | [], s => (0, s)
  | i :: r, s =>
    let n := redSize k.typ
    let ps := (List.range n).map (fun b => (i.sp, i.place + b))
    let (nv, fl) := redApply k.rop k.typ (leNat (ps.map (placeByte s))) i.val
    let (fr, s) := applyRed k r (putPlaces (outsOf ps (natLe n nv)) s)
    (fl ||| fr, s)

/-- The parts of a job's effects in the scratchpad, or elsewhere. -/
def inPad (sp : Nat) : Bool := sp % 4 == 2

/-- The job leaves the sequencer: stores and handles that waited for it go on (R97, R127). -/
def dropJob (j : Job) (s : State) : State :=
  sweepHandles (flushBuf (modGv s (fun g => { g with jobs := g.jobs.filter (fun i => i.seq != j.seq) })))

/-- The JOB_FAIL record (R385, R446). -/
def failRecord (s : State) (j : Job) (reason : Nat) : Rec :=
  { code := fcode .jobFail, strm := j.strm, grove := s.gv.id, info := reason, jobseq := j.seq }

/-- The job's end at home: its writes, its flags, its counter, the record of its failure (R143, R144, R385). Until then the
write footprint reads as it stood: of the mixtures of old and new bytes that R142 and R145 leave open to an observer, the old
bytes (DESIGN CHOICE, notes/assumptions/69.md). -/
def closeJob (j : Job) (s : State) : State :=
  if j.fail = 0 then
    let s := putPlaces j.out s
    let (fl, s) := applyRed (jobCard j) j.red s
    let s := jobFlags j.task j.launch (j.flags ||| w64 fl) s
    dropJob j (jobCounter j false s)
  else
    -- an XRED whose index lies outside its table has applied the elements before it (R390)
    let s := if j.op = 0x103 && j.fail = 3 then (applyRed (jobCard j) j.red s).2 else s
    sendLaunchFault j.launch (failRecord s j j.fail) (dropJob j (jobCounter j true s))

/-- A job has finished, or failed for good for a reason: a provisional task's effects outside its Grove are held, its
scratchpad writes performed (R191, R401). -/
def endJob (j : Job) (reason : Nat) (s : State) : State :=
  let j := { j with fail := reason }
  if j.prov then
    if reason != 0 then setJob { j with st := .heldWrites } s
    else
      let s := putPlaces (j.out.filter (fun o => inPad o.1)) s
      let (fl, s) := applyRed (jobCard j) (j.red.filter (fun o => inPad o.sp)) s
      setJob { j with st := .heldWrites, out := j.out.filter (fun o => !inPad o.1),
                      red := j.red.filter (fun o => !inPad o.sp), flags := j.flags ||| w64 fl } s
  else closeJob j s

/-- What a replay finds of an attempt: of XRED what it has applied and what it has staged, less the contributions whose own reads
found nothing (R390); of another job nothing (R145, R385). -/
def replayed (j : Job) : Job :=
  if j.op = 0x103 then
    let bad (i : RedItem) : Bool := i.lines.any (fun l => decide (l ∈ j.lostLines))
    { j with red := j.red.filter (fun i => !bad i), wait := j.wait.filter (fun e => !j.red.any (fun i => i.elem == e && bad i)),
             st := .queued, fail := 0, lost := false, lostLines := [] }
  else { j with st := .queued, out := [], red := [], send := [], done := 0, wait := [], asks := [], lost := false, lostLines := [] }

/-- A memory error: the attempt is abandoned, and the third fails for good (R385). -/
def memAttempt (j : Job) (s : State) : State :=
  if j.tries + 1 ≥ 3 then endJob { j with tries := j.tries + 1 } 1 s
  else setJob { replayed j with tries := j.tries + 1 } s

/-- A translation fault: the job is held and JOB_XLATE goes to the partition fault queue (R385, R442, R446). -/
def holdJob (j : Job) (f : FaultInfo) (s : State) : State :=
  sendPartFault (launchOf s j.launch).part
    { code := fcode .jobXlate, strm := j.strm, grove := s.gv.id, launch := j.launch, addr := f.addr,
      info := j.seq % 2 ^ 32, jobseq := j.seq } (setJob { j with st := .xlateHeld } s)

/-- The end of an attempt by what it met, u being the state with the reads that it made; a job that waits has made none. -/
def jobErr (j : Job) (e : JobErr × State) (s : State) : State :=
  match e with
  | (.xlate f, u) => holdJob j f u
  | (.mem, u) => memAttempt j u
  | (.foot, u) => endJob j 3 u
  | (.wait, _) => s

/-! ## Jobs that go on step by step (R393, R395, R396) -/

/-- The bank and row of the next row of an XCANW. -/
def canwPlace (s : State) (j : Job) : Nat × Nat :=
  let h := handleOf s (j.cw1.toNat % 256)
  ordinalPlace h.fbank h.parts (bits j.cw1.toNat 23 8 + j.done)

/-- Rows of an XCANW. -/
def canwCount (j : Job) : Nat := bits j.cw2.toNat 9 0

/-- The requests of a job's attempt have been served, and none of them was lost (R505, R514). -/
def asksDone (s : State) (j : Job) : Bool := !j.lost && j.asks.all (askServed s)

/-- The next row of an XCANW may be written now. -/
def canwReady (s : State) (j : Job) : Bool :=
  asksDone s j && decide (j.done < canwCount j) && j.wait.all (writeOver s) &&
  engineReady s (some j.task) (canwPlace s j).1

/-- The next row of an XCANW (R393). -/
def canwRow (j : Job) (s : State) : State :=
  let l : JLoc := ⟨bit j.cw2.toNat 63, j.cw0.toNat, 8192 * j.done, 8192, false, 1, false⟩
  match readLocs j [l] s with
  | .error e => jobErr { j with done := 0, wait := [] } e s
  | .ok (bs, u) =>
    let p := canwPlace u j
    let (t, u') := engineWrite p.1 p.2 bs u
    setJob { j with done := j.done + 1, wait := [t], st := .running, asks := asksSince s u } u'

/-- The slots that an SPALLOC names (R395). -/
def spallocSlots (bs : List Byte) (n : Nat) : List Nat :=
  ((List.range n).map (numAt 4 bs)).filterMap (fun w => if bit w 31 then some (w % 4096) else none)

/-- SPALLOC's division (R395). -/
def spallocRun (j : Job) (s : State) : State :=
  let k := jobCard j
  match (do
    let (dp, s) ← locsPlaces j k.dsts s
    let (bs, s) ← readLocs j k.srcs s
    return (dp, bs, s) : JobM (List (Nat × Nat) × List Byte × State)) with
  | .error e => jobErr j e s
  | .ok (dp, bs, t) =>
    let j := { j with asks := asksSince s t }
    let s := t
    let slots := spallocSlots bs (bits k.w2 12 0)
    let part := (launchOf s j.launch).part
    if !slots.all (slotShare s part) then endJob j 3 s
    else
      let c := bits k.w2 31 16
      let left (sum : Nat) : Nat := if slots.any (slotEligible s) then c - sum else 0
      let (sum, s) := allocate c slots s
      setJob { j with st := .running, out := outsOf dp (natLe 8 (sum + left sum * 2 ^ 16)) } s

/-- The committed slots of a GCMT's first n rows, the bad and the invalid ones skipped (R396). A row that is skipped itself is no earlier
row that names its slot (DESIGN CHOICE, notes/assumptions/96.md). -/
def gcmtSlots (s : State) (part : Nat) : List (List Lane) → List Nat → List Nat
  | [], seen => seen.reverse
  | r :: rs, seen =>
    if rowValid r && !rowBad s part seen r then gcmtSlots s part rs (rowSlot r :: seen) else gcmtSlots s part rs seen

/-- The start of a GCMT: its descriptor read and checked, its control block located and made part of its footprint; it waits
on for an earlier card that overlaps the control block (R141, R396). -/
def gcmtBegin (j : Job) (s : State) : State :=
  if !descOk j.cw1.toNat then endJob j 1 s
  else
    match readLocs j [⟨false, j.cw1.toNat, 0, 64, false, 1, false⟩] s with
    | .error e => jobErr j e s
    | .ok (d, t) =>
      let j := { j with asks := asksSince s t }
      let s := t
      let ca := leNat ((d.drop 48).take 8)
      if leNat (d.drop 60) != 0 || ca % 64 != 0 || (pathOf ca != 0 && pathOf ca != 2) || qualOf ca != 0 then endJob j 1 s
      else
        let blk : JRegion := { sp := 0, lo := lowOf ca, len := 64, wr := true }
        let j := { j with foot := blk :: j.foot.filter (fun r => !r.wr) }
        match locPlaces j ⟨false, ca, 0, 64, true, 1, false⟩ s with
        | .error e => jobErr j e s
        | .ok (ps, s) =>
          if s.gv.jobs.any (fun i => decide (i.seq < j.seq) && jobDep i j) then setJob j s
          else setJob { j with st := .running, done := 0, send := d, out := outsOf ps (List.replicate 64 0) } s

/-- The next row of a GCMT may be committed: it emits nothing, or the token queue has room. -/
def gcmtReady (s : State) (j : Job) : Bool :=
  asksDone s j && decide (j.done ≤ j.rows.length) &&
  (let r := j.rows.getD j.done []
   let part := (launchOf s j.launch).part
   decide (j.done = j.rows.length) || !rowValid r || !rowEmits s r ||
   ((ringRoom (tokenRing part) s).1 && s.dev.ringWait.all (fun w => w.ring != tokenRing part)))

/-- The next row of a GCMT, or after the last its allocation and control block (R220, R221). -/
def gcmtRow (j : Job) (s : State) : State :=
  let part := (launchOf s j.launch).part
  if j.done < j.rows.length then
    let r := j.rows.getD j.done []
    let seen := gcmtSlots s part (j.rows.take j.done) []
    let s := if !rowValid r then s
      else if rowBad s part seen r then launchCond j.launch .gcmtRow s
      else commitRow part r s
    setJob { j with done := j.done + 1 } s
  else
    let slots := gcmtSlots s part j.rows []
    let (_, s) := allocate (leNat ((j.send.drop 58).take 2)) slots s
    let cb := controlBlock s j.send slots
    setJob { j with done := j.done + 1, out := outsOf (j.out.map (fun o => (o.1, o.2.1))) cb } s

/-! ## JOB_START and JOB_COMPLETE -/

/-- Bytes of the staging buffer that a provisional job's held writes take: those to device, host and peer memory, not those
to tile handles (R191, R390). -/
def heldSize (out : List (Nat × Nat × Byte)) : Nat := (out.filter (fun o => !inPad o.1)).length

/-- Bytes of the staging buffer that a job takes: the held writes of a provisional one, 8 bytes for each staged contribution of
XRED, 128 bytes for each row of a GCMT that runs (R390; DESIGN CHOICE, notes/assumptions/84.md). -/
def jobStaged (j : Job) : Nat :=
  8 * j.red.length + (if j.prov then heldSize j.out else 0) + (if j.op = 0x112 && j.st == .running then 128 * j.rows.length else 0)

/-- Bytes in use of the staging buffer of 1 MiB (R191, R390). -/
def stagedBytes (s : State) : Nat := (s.gv.jobs.map jobStaged).sum

/-- The staging buffer takes n bytes more. -/
def stagingRoom (s : State) (n : Nat) : Bool := decide (stagedBytes s + n ≤ 2 ^ 20)

/-! ## XRED (R390) -/

/-- The elements of the chunk that an XRED stages next: at most 4,096 (R390). -/
def redChunk (j : Job) : List Nat := (List.range (min 4096 ((jobCard j).count - j.done))).map (fun i => j.done + i)

/-- What the reading of one element comes to: it is skipped, a contribution, or its index lies outside the table. -/
inductive RedRead where
  | skip
  | item (i : RedItem)
  | foot
  deriving DecidableEq, Repr

/-- The number of an element of n bytes of a location, and the device lines that it lies in. -/
def redNum (j : Job) (ls : List JLoc) (n e : Nat) (s : State) : JobM (Nat × List Nat × State) := do
  let (ps, s) ← locsPlaces j (ls.map (fun l => elemLoc l n e)) s
  let bs ← readPlaces s ps
  return (leNat bs, placeLines ps, s)

/-- Element e of an XRED read: its index, its contribution, and the element that it is for (R390). -/
def redElem (j : Job) (e : Nat) (s : State) : JobM (RedRead × State) := do
  let k := jobCard j
  let n := redSize k.typ
  let (x, xl, s) ← if k.ix then (do let (v, ls, s) ← redNum j k.idxs 4 e s; pure (sextI v 32, ls, s)) else pure ((e : Int), [], s)
  if x < 0 then return (.skip, s)
  else if k.ix && decide (x ≥ (k.tlen : Int)) then return (.foot, s)
  else
    let (v, vl, s) ← redNum j k.srcs n e s
    let (ps, s) ← locsPlaces j (k.dsts.map (fun l => elemLoc l n x.toNat)) s
    let _ ← readPlaces s ps
    let p := ps.headD (0, 0)
    return (.item { elem := e, sp := p.1, place := p.2, val := v, lines := (xl ++ vl ++ placeLines ps).eraseDups }, s)

/-- A staged contribution put in its place among those that are staged. -/
def stageRed (i : RedItem) : List RedItem → List RedItem
  | [] => [i]
  | h :: r => if i.elem < h.elem then i :: h :: r else h :: stageRed i r

/-- The elements of a chunk read in ascending order into the staging buffer: an element that meets a memory error is not staged and
counts as one lost, an index outside the table ends the reading (R390). Answers the job, and the translation fault or the wait that
ended it. -/
def redStage : List Nat → Job → State → Job × Option JobErr × State
  | [], j, s => (j, none, s)
  | e :: r, j, s =>
    match redElem j e s with
    | .ok (.skip, s) => redStage r { j with wait := e :: j.wait } s
    | .ok (.item i, s) => redStage r { j with wait := e :: j.wait, red := stageRed i j.red } s
    | .ok (.foot, s) => ({ j with fail := 3 }, none, s)
    | .error (.mem, s) => redStage r { j with lost := true } s
    | .error (er, s) => (j, some er, s)

/-- The chunk of an XRED read into staging; what is staged already is not read again (R390). A provisional task's contributions stay
staged from chunk to chunk until resolution (R191). -/
def redRead (j : Job) (s : State) : State :=
  let es := (redChunk j).filter (fun e => decide (e ∉ j.wait))
  if !stagingRoom s (8 * es.length) then s
  else
    match redStage es { j with lost := false } s with
    | (_, some .wait, _) => s
    | (k, er, u) =>
      let k := { k with st := .running, asks := j.asks.filter (fun id => !askServed s id) ++ asksSince s u }
      match er with
      | some (.xlate f) => holdJob k f u
      | _ => setJob k u

/-- A staged chunk applied, its reads having come: in ascending element; in a provisional task what is for the scratchpad alone
(R191, R390). The index outside the table fails the job once what comes before it is applied. -/
def redApplied (j : Job) (s : State) : State :=
  let now (i : RedItem) : Bool := !j.prov || inPad i.sp
  let (fl, s) := applyRed (jobCard j) (j.red.filter now) s
  let k := { j with red := j.red.filter (fun i => !now i), wait := [], done := j.done + (redChunk j).length,
                    flags := j.flags ||| w64 fl, asks := [] }
  if j.fail = 3 then endJob k 3 s else setJob k s

/-- An XRED goes on: its chunk has been read, or the next one is (R390). -/
def redGoes (j : Job) (s : State) : State :=
  if j.wait.length = (redChunk j).length || j.fail = 3 then redApplied j s else redRead j s

/-- An XRED has elements left, and its reads have come. -/
def redReady (s : State) (j : Job) : Bool :=
  j.op == 0x103 && asksDone s j && decide (j.done < (jobCard j).count)

/-- A peer put whose source bytes are there and which has not been sent. -/
def putReady (s : State) (j : Job) : Bool := j.op == 0x107 && j.done == 0 && asksDone s j

/-- The RMA write of an XPEER (R392, R528, R529). -/
def sendPut (j : Job) (s : State) : State :=
  setJob { j with done := 1 } (modDev s (fun d => { d with
    peerOut := d.peerOut ++ [{ dest := j.dest, off := j.cw1.toNat % 2 ^ 47, data := j.send }] }))

/-- A started job that JOB_START moves on: one whose attempt met a memory error after its start, a GCMT or XCANW with rows left, a
peer put that is sent. -/
def jobGoesOn (s : State) (j : Job) : Bool :=
  j.st == .running && (j.lost || redReady s j || (j.op == 0x112 && gcmtReady s j) || (j.op == 0x108 && canwReady s j) || putReady s j)

/-- JOB_START may act on the job now. -/
def jobStarts (s : State) (j : Job) : Bool :=
  (jobAdmitted s j && (j.op != 0x108 || canwReady s j)) || jobGoesOn s j

/-- The start of a job that is admitted. -/
def startJob (j : Job) (s : State) : State :=
  if j.op = 0x103 then redRead j s
  else if j.op = 0x108 then canwRow j s
  else if j.op = 0x111 then spallocRun j s
  else if j.op = 0x112 then (if stagingRoom s (128 * j.rows.length) then gcmtBegin j s else s)
  else
    match jobRun j s with
    | .error e => jobErr j e s
    | .ok (r, t) =>
      if j.prov && !stagingRoom s (heldSize r.out) then s
      else setJob { j with st := .running, out := r.out, send := r.send, flags := w64 r.flags, asks := asksSince s t } t

/-- JOB_START: the sequencer admits the job and the engine runs it; memErr is a memory error that the attempt meets
(R385). -/
def execJobStart (job : Nat) (memErr : Bool) (s : State) : Host.Outcome State Fault Refusal :=
  .next (match jobOf s job with
    | none => s
    | some j =>
      if !jobStarts s j then s
      else if j.st = .queued then (if memErr then memAttempt j s else startJob j s)
      else if j.lost then memAttempt j s
      else if j.op = 0x103 then redGoes j s
      else if j.op = 0x112 then gcmtRow j s
      else if j.op = 0x108 then canwRow j s
      else sendPut j s)

/-- The contributions of a collective by rank: the package's own, and those that arrived (R391). -/
def collData (j : Job) (peers : List (Nat × List Byte)) (q : Nat) : Option (List Byte) :=
  if q = bits j.peer.toNat 13 8 then some j.send
  else match peers.find? (fun p => p.1 == q) with
    | some p => if p.2.length = j.send.length then some p.2 else none
    | none => none

/-- The chain of an ALLREDUCE over ranks 0 to M − 1, from SRC of rank 0 (R391). -/
def reduceRanks (t : Nat) (srcs : List (List Byte)) (n : Nat) : List Byte × Nat :=
  let rs := (List.range (n / 4)).map (fun e =>
    match srcs with
    | [] => (0, 0)
    | a :: r => r.foldl (fun p b => let v := redApply 0 t p.1 (numAt 4 b e); (v.1, p.2 ||| v.2)) (numAt 4 a e, 0))
  (rs.flatMap (fun v => natLe 4 v.1), rs.foldl (fun a v => a ||| v.2) 0)

/-- What a collective writes, once the data of every rank are there. -/
def collResult (j : Job) (peers : List (Nat × List Byte)) : Option (List Byte × Nat) :=
  let k := jobCard j
  let all := (List.range k.members).map (collData j peers)
  if all.any (fun d => d.isNone) then none
  else
    let ds := all.map (fun d => d.getD [])
    let cop := bits k.w2 61 60
    some (if cop = 0 then (ds.getD (bits k.w3 47 40) [], 0)
      else if cop = 1 then (ds.flatMap (fun d => d), 0)
      else reduceRanks k.typ ds k.len)

/-- A running job needs nothing more before it completes: a fabric job needs what comes from outside. -/
def jobFinishes (s : State) (j : Job) : Bool :=
  j.st == .running && asksDone s j &&
  (if j.op = 0x103 then decide (j.done = (jobCard j).count)
   else if j.op = 0x112 then decide (j.done > j.rows.length)
   else if j.op = 0x108 then decide (j.done = canwCount j) && j.wait.all (writeOver s)
   else if j.op = 0x107 then decide (j.done = 1)
   else if j.op = 0x110 then decide (j.done = 1) && j.wait.all (fun h => (whOf s h).st != whEvicting)
   else true)

/-- JOB_COMPLETE. For XCOLL peers are the other ranks' data; for XPEER the event is the peer's acknowledgement of every
byte (R391, R392). -/
def execJobComplete (job : Nat) (peers : List (Nat × List Byte)) (s : State) : Host.Outcome State Fault Refusal :=
  .next (match jobOf s job with
    | none => s
    | some j =>
      if !jobFinishes s j then s
      else if j.op = 0x106 then
        (match collResult j peers with
         | none => s
         | some (bs, fl) =>
           match locsPlaces j (jobCard j).dsts s with
           | .error e => jobErr j e s
           | .ok (dp, s) => endJob { j with out := outsOf dp bs, flags := w64 fl } 0 s)
      else endJob j 0 s)

/-- The job is a running collective or peer put. -/
def fabricJob (j : Job) : Bool := j.st == .running && (j.op == 0x106 || j.op == 0x107)

/-- FABRIC_TIMEOUT (R385). -/
def execFabricTimeout (job : Nat) (s : State) : Host.Outcome State Fault Refusal :=
  .next (match jobOf s job with
    | some j => if fabricJob j then endJob j 5 s else s
    | none => s)

/-- PEER_REJECT (R385, R531). -/
def execPeerReject (job : Nat) (s : State) : Host.Outcome State Fault Refusal :=
  .next (match jobOf s job with
    | some j => if fabricJob j then endJob j 6 s else s
    | none => s)

/-- COLL_MISMATCH (R385, R391). -/
def execCollMismatch (job : Nat) (s : State) : Host.Outcome State Fault Refusal :=
  .next (match jobOf s job with
    | some j => if j.st == .running && j.op == 0x106 then endJob j 4 s else s
    | none => s)

/-! ## At a shape's resolution (R194, R401) -/

/-- The jobs of a launch's kept provisional tiles: held effects performed in job order; surplus ones cancelled. -/
def resolveJobs (launch : Nat) (keep : Nat → Bool) (s : State) : State :=
  (s.gv.jobs.filter (fun j => j.launch == launch && j.prov)).foldl (fun s j =>
    if !keep j.tile then dropJob j s
    else if j.st == .heldWrites then closeJob { j with prov := false } s
    else setJob { j with prov := false } s) s

end Sys2Proof.Machine
end

