-- ==== Sys2Proof/Machine/Privileged.lean ====
section
/-!
DEFINITION. The supervisor's ops in position c: TLBI and L1INV (R435, R436), CTXSV (R455) and CTXLD (R456).
-/

namespace Sys2Proof.Machine

/-! ## Invalidation (R435, R436) -/

/-- A translation of page size sz that covers a covers b too. -/
def samePage (sz a b : Nat) : Bool := lowOf a / max 1 sz == lowOf b / max 1 sz

/-- The ASIDs that an invalidation names: all of the issuer's partition, or the one in G[A]. -/
def invAsids (x : OpCtx) (kind : BitVec 3) (a : Reg) : Except (Stop State) (Nat → Bool) := do
  let part := partOf x.rd (cur x.rd)
  if kind = 0 then return asidShare x.rd part
  else
    need (decide (grN x a < 4096) && asidShare x.rd part (grN x a)) .asidBad
    return fun n => n == grN x a

/-- The n bytes at a may lie in a page that a dropped entry mapped: with KIND 2, in the largest page at the address v. -/
def inDropped (kind : BitVec 3) (v a n : Nat) : Bool :=
  kind != 2 || (decide (lowOf a / 2 ^ 30 ≤ lowOf v / 2 ^ 30) && decide (lowOf v / 2 ^ 30 ≤ (lowOf a + n) / 2 ^ 30))

/-- No access and no running job that was translated for a selected ASID, in a page that q selects, is in flight; of a request for
which no result waits the page is not kept, and every one is waited for. A job's counter was translated when the job was issued, an
SHRES word when its bundle committed (R436). -/
def xlateQuiet (p : Nat → Bool) (q : Nat → Nat → Bool) (s : State) : Bool :=
  ([s.st0, s.st1] ++ s.gv.heldTasks).all (fun c =>
    !p c.asid || (c.pend.all (fun e => e.accs.all (fun a => !q a 128)) && c.loose.all (fun r => r.all (askServed s)))) &&
  s.gv.jobs.all (fun j => !(p j.asid) || (!(j.counts && q j.caddr.toNat 8) && ((j.st != .running && j.st != .heldWrites) ||
    j.foot.all (fun r => decide (2 ≤ r.sp) || !q r.lo r.len)))) &&
  s.gv.shres.all (fun w => !(p w.asid) || !q w.va 8)

/-- The entries and lines that a TLBI names are dropped, and the clean path 0x0 lines: it is an acquire (R435, R436). -/
def dropXlate (p : Nat → Bool) (kind : BitVec 3) (v : Nat) (s : State) : State :=
  let s := modDev s (fun q => { q with tlb := q.tlb.filter (fun e => !(p e.asid && (kind != 2 || samePage e.size (65536 * e.page) v))) })
  let s := modGv s (fun g => { g with l1 := g.l1.filter (fun l => !(p l.asid && (kind != 2 || samePage l.size (128 * l.tag) v))) })
  dropPath0 s

/-- TLBI (R435, R436): the release, the drops, and the wait for what was translated before; a wait keeps what is done. -/
def opTlbi (d a : Reg) (kind : BitVec 3) : OpM := fun x s => do
  needPriv x
  need ((kind == 0 && d == 0 && a == 0) || (kind == 1 && d == 0) || kind == 2) .illegalEnc
  let p ← invAsids x kind a
  notProv x
  let v := grN x d
  let s ← release s
  if xlateQuiet p (inDropped kind v) s then return dropXlate p kind v s
  else stallWith (fun t => dropXlate p kind v (publish (ofStream t.sel) t))
def execTlbi (q : Guard) (d a : Reg) (kind : BitVec 3) (s : State) : Host.Outcome State Fault Refusal :=
  issueOne .c q (opTlbi d a kind) s

/-- L1INV (R435, R436). The other Groves that KIND 2 reaches are outside the model. -/
def opL1inv (a : Reg) (kind : BitVec 3) : OpM := fun x s => do
  needPriv x
  need ((kind == 0 && a == 0) || kind == 1 || kind == 2) .illegalEnc
  let p ← invAsids x kind a
  return modGv s (fun g => { g with l1 := g.l1.filter (fun l => !(kind == 0 || p l.asid)) })
def execL1inv (q : Guard) (a : Reg) (kind : BitVec 3) (s : State) : Host.Outcome State Fault Refusal :=
  issueOne .c q (opL1inv a kind) s

/-! ## Saving a stream's task (R455) -/

/-- A stream cannot be saved for the issuer: idle, another partition's task, a supervisor's task, or the issuer's own. -/
def unsaveable (x : OpCtx) (b : Bool) : Bool :=
  let t := strm x.rd b
  !hasTask t || partOf x.rd t != partOf x.rd (cur x.rd) || t.level != 0 || b == x.rd.sel

/-- The slot of a task saved since CTXSV asked for it. -/
def savedSlot (s : State) (task : Nat) : Option Nat := (s.dev.ctxlive.find? (fun y => y.task == task)).map (fun y => y.slot)

/-- The task is still in a stream of the Grove, or held there with its fault. -/
def taskHere (s : State) (task : Nat) : Bool :=
  (hasTask s.st0 && s.st0.task == task) || (hasTask s.st1 && s.st1.task == task) || s.gv.heldTasks.any (fun c => c.task == task)

/-- The wait of CTXSV's first attempt: the save is asked and its task remembered. -/
def askSave (b : Bool) (s : State) : State :=
  let t := strm s b
  let s := modCur s (fun c => { c with svTask := some t.task })
  if t.saveWant.isNone then setStrm s b { strm s b with saveWant := some 2 } else s

/-- The answer of CTXSV about a stream of another Grove, whose tasks are outside the model: all ones where its Glade is not the
partition's, which can run no task of it; else a free choice of what R455 allows: not saved yet, all ones, or a slot of the partition's
context area that holds no image of this Grove (DESIGN CHOICE, notes/assumptions/1.md). -/
def awaySave (part grove : Nat) (s : State) : Except (Stop State) (Word × State) :=
  if !gladeShare s part (gladeOf grove) then .ok (allOnes, s)
  else
    let (w, t) := takeFree s
    let slots := freeSlots s part
    let n := w.toNat / 4
    if w.toNat % 4 = 0 then .error (.stall (fun s => (takeFree s).2))
    else if w.toNat % 4 = 1 then .ok (allOnes, t)
    else .ok ((slots[n % slots.length]?).elim allOnes w64, t)

/-- CTXSV (R455): the slot number, or all ones. -/
def opCtxsv (d a : Reg) : OpM := fun x s => do
  needPriv x
  need (decide (grN x a < 2 ^ 9)) .illegalEnc
  notProv x
  if grN x a % 256 != x.rd.gv.id then
    let (w, s) ← awaySave (partOf x.rd (cur x.rd)) (grN x a % 256) s
    return setG s d w
  else
    let done (v : Word) : State := modCur (setG s d v) (fun c => { c with svTask := none })
    match (cur x.rd).svTask with
    | none => if unsaveable x (bit (grN x a) 8) then return done allOnes else stallWith (askSave (bit (grN x a) 8))
    | some t =>
      match savedSlot x.rd t with
      | some k => return done (w64 k)
      | none => if taskHere x.rd t then stallNow else return done allOnes
def execCtxsv (q : Guard) (d a : Reg) (s : State) : Host.Outcome State Fault Refusal := issueOne .c q (opCtxsv d a) s

/-! ## Accepting an image or a held job (R456) -/

/-- A saved task ends without running: its slot is freed, and what it kept is given back (R280, R456). -/
def endSaved (y : SavedCtx) (s : State) : State :=
  let s := modDev s (fun d => { d with ctxlive := d.ctxlive.erase y })
  dropRefs y.r2 (releaseBanks y.task (freeHandles (isTaskHandle y.task) s))

/-- The resume entry of a saved task queued (R452). -/
def queueResume (y : SavedCtx) (bs : List Byte) (s : State) : State :=
  let e : QEntry := { w0 := imgWord bs 32, w1 := imgWord bs 40, w2 := imgWord bs 48, w3 := imgWord bs 56 &&& recMask, resume := some y.slot }
  let s := modDev s (fun d => { d with ctxlive := d.ctxlive.replace y { y with entry := true } })
  modQueue s y.queue (fun k => { k with entries := k.entries ++ [e] })

/-- CTXLD of an image: the code, and the image queued or dropped (R456). -/
def loadImage (part id : Nat) (drop : Bool) (s : State) : Nat × State :=
  if id ≥ bits (rget 0 s.dev.ctxarea part).toNat 11 0 then (1, s)
  else
    match savedAt s part id with
    | none => (2, s)
    | some y =>
      if drop then (if y.entry then (2, s) else (0, endSaved y s))
      else
        match imageCode s part id, readImage part id s with
        | 0, (some bs, s) => (0, queueResume y bs s)
        | 0, (none, s) => (2, s)
        | n + 1, (_, s) => (n + 1, s)

/-- The job held by JOB_XLATE that an id names: the one of lower JOBSEQ (R456). -/
def heldJob (s : State) (part id : Nat) : Option Job :=
  (s.gv.jobs.filter (fun j => j.st == .xlateHeld && (launchOf s j.launch).part == part && j.seq % 2 ^ 32 == id)).foldl (fun r j =>
    match r with
    | none => some j
    | some i => if j.seq < i.seq then some j else some i) none

/-- CTXLD of a held job: replayed whole, or failed for good (R385, R456). -/
def loadJob (part id : Nat) (drop : Bool) (s : State) : Nat × State :=
  match heldJob s part id with
  | none => (1, s)
  | some j => (0, if drop then endJob j 2 s else setJob (replayed j) s)

/-- CTXLD (R456), a release. -/
def opCtxld (d a : Reg) : OpM := fun x s => do
  needPriv x
  let v := grN x a
  need (bits v 61 32 == 0) .illegalEnc
  notProv x
  let s ← release s
  let part := partOf x.rd (cur x.rd)
  waitFor (bit v 63 || bit v 62 || !imageWaits s part (bits v 31 0))
  let (r, s) := (if bit v 63 then loadJob else loadImage) part (bits v 31 0) (bit v 62) s
  return setG s d (w64 r)
def execCtxld (q : Guard) (d a : Reg) (s : State) : Host.Outcome State Fault Refusal := issueOne .c q (opCtxld d a) s

end Sys2Proof.Machine
end

