-- ==== Sys2Proof/Machine/Scalar.lean ====
section
/-!
DEFINITION. The scalar ops of positions s0 and s1 (R254 to R270): arithmetic, shifts, bit counts, compares, bit fields,
addresses, and the moves to and from control registers.
-/

namespace Sys2Proof.Machine

/-! ## Values (R257 to R264) -/

/-- The sign-extended 28-bit immediate (R257). -/
def imm28 (i : BitVec 28) : Word := i.signExtend 64

/-- MULH: the upper half of the signed product (R257). -/
def vMulh (a b : Word) : Word := BitVec.ofInt 64 (a.toInt * b.toInt / 2 ^ 64)

/-- MULHN: the upper half of the unsigned product (R257). -/
def vMulhn (a b : Word) : Word := w64 (a.toNat * b.toNat / 2 ^ 64)

/-- DIV (R258). -/
def vDiv (a b : Word) : Word := if b = 0 then -1 else BitVec.ofInt 64 (a.toInt.tdiv b.toInt)

/-- DIVN (R258). -/
def vDivn (a b : Word) : Word := if b = 0 then -1 else w64 (a.toNat / b.toNat)

/-- REM (R258). -/
def vRem (a b : Word) : Word := if b = 0 then a else BitVec.ofInt 64 (a.toInt - b.toInt * a.toInt.tdiv b.toInt)

/-- REMN (R258). -/
def vRemn (a b : Word) : Word := if b = 0 then a else w64 (a.toNat % b.toNat)

/-- SHL, SHR, SRA and ROT by n below 64 (R259). -/
def vShl (a : Word) (n : Nat) : Word := w64 (a.toNat * 2 ^ n)
def vShr (a : Word) (n : Nat) : Word := w64 (a.toNat / 2 ^ n)
def vSra (a : Word) (n : Nat) : Word := BitVec.ofInt 64 (a.toInt / 2 ^ n)
def vRot (a : Word) (n : Nat) : Word := vShl a n + w64 (a.toNat / 2 ^ (64 - n))

/-- BREV (R260): bit i of the result is bit 63 − i. -/
def vBrev (a : Word) : Word := w64 ((List.range 64).foldl (fun r i => 2 * r + a.toNat / 2 ^ i % 2) 0)

/-- Zero bits below bit k downwards: the leading zeros of the low k bits (R260). -/
def leadZeros (x : Nat) : Nat → Nat
  | 0 => 0
  | k + 1 => if bit x k then 0 else 1 + leadZeros x k

/-- Trailing zeros counted from bit i up over k bits (R260). -/
def trailZeros (x i : Nat) : Nat → Nat
  | 0 => 0
  | k + 1 => if bit x i then 0 else 1 + trailZeros x (i + 1) k

/-- One bits of the low k bits (R260). -/
def oneBits (x : Nat) : Nat → Nat
  | 0 => 0
  | k + 1 => (bit x k).toNat + oneBits x k

def vClz (a : Word) : Word := w64 (leadZeros a.toNat 64)
def vCtz (a : Word) : Word := w64 (trailZeros a.toNat 0 64)
def vPopc (a : Word) : Word := w64 (oneBits a.toNat 64)

/-- The smaller and larger, signed and unsigned (R257). -/
def vMin (a b : Word) : Word := if a.toInt ≤ b.toInt then a else b
def vMax (a b : Word) : Word := if a.toInt ≤ b.toInt then b else a
def vMinn (a b : Word) : Word := if a.toNat ≤ b.toNat then a else b
def vMaxn (a b : Word) : Word := if a.toNat ≤ b.toNat then b else a

/-- A compare of R261; the codes above 11 are illegal encodings and do not reach here. -/
def condHolds (code : Nat) (a b : Word) : Bool :=
  match code with
  | 0 => a == b
  | 1 => a != b
  | 2 => decide (a.toInt < b.toInt)
  | 3 => decide (a.toInt ≥ b.toInt)
  | 4 => decide (a.toInt ≤ b.toInt)
  | 5 => decide (a.toInt > b.toInt)
  | 6 => decide (a.toNat < b.toNat)
  | 7 => decide (a.toNat ≥ b.toNat)
  | 8 => decide (a.toNat ≤ b.toNat)
  | 9 => decide (a.toNat > b.toNat)
  | 10 => a &&& b != 0
  | _ => a &&& b == 0

/-- A word with bit n set to v. -/
def putBit (a : Word) (n : Nat) (v : Bool) : Word := withField a n 1 v.toNat

/-- EXTR (R264): the field of width w at lo, cut at bit 63. -/
def vExtr (a : Word) (lo w : Nat) : Word := w64 (bits a.toNat (min 63 (lo + w - 1)) lo)

/-- DEPO (R264). -/
def vDepo (d a : Word) (lo w : Nat) : Word :=
  let n := min 63 (lo + w - 1) + 1 - lo
  withField d lo n a.toNat

/-- The address checks that ACHK answers (R267). -/
def vAchk (a n : Nat) : Nat :=
  if n = 0 then 0
  else if pathOf a ≥ 7 then 1
  else if qualOf a != 0 && pathOf a != 3 then 2
  else if pathOf a = 4 then 3
  else if lowOf a + n > 2 ^ 57 then 4
  else if pathOf a = 3 && decide (a % 2048 + n > 2048) then 5
  else 0

/-! ## Shapes of op -/

/-- G[D] := f of two sources. -/
def opAlu (f : Word → Word → Word) (d a b : Reg) : OpM := fun x s => .ok (setG s d (f (gr x a) (gr x b)))

/-- G[D] := f of one source. -/
def opUn (f : Word → Word) (d a : Reg) : OpM := fun x s => .ok (setG s d (f (gr x a)))

/-- G[D] := f of the old G[D] and two sources. -/
def opRmw (f : Word → Word → Word → Word) (d a b : Reg) : OpM :=
  fun x s => .ok (setG s d (f (gr x d) (gr x a) (gr x b)))

/-- ADD (R257). -/
def opAdd (d : Reg) (a : Reg) (b : Reg) : OpM := opAlu (fun a b => a + b) d a b
def execAdd (q : Guard) (d : Reg) (a : Reg) (b : Reg) (s : State) : Host.Outcome State Fault Refusal := issueOne .s0 q (opAdd d a b) s

/-- SUB (R257). -/
def opSub (d : Reg) (a : Reg) (b : Reg) : OpM := opAlu (fun a b => a - b) d a b
def execSub (q : Guard) (d : Reg) (a : Reg) (b : Reg) (s : State) : Host.Outcome State Fault Refusal := issueOne .s0 q (opSub d a b) s

/-- MUL (R257). -/
def opMul (d : Reg) (a : Reg) (b : Reg) : OpM := opAlu (fun a b => a * b) d a b
def execMul (q : Guard) (d : Reg) (a : Reg) (b : Reg) (s : State) : Host.Outcome State Fault Refusal := issueOne .s0 q (opMul d a b) s

/-- MULH (R257). -/
def opMulh (d : Reg) (a : Reg) (b : Reg) : OpM := opAlu vMulh d a b
def execMulh (q : Guard) (d : Reg) (a : Reg) (b : Reg) (s : State) : Host.Outcome State Fault Refusal := issueOne .s0 q (opMulh d a b) s

/-- MULHN (R257). -/
def opMulhn (d : Reg) (a : Reg) (b : Reg) : OpM := opAlu vMulhn d a b
def execMulhn (q : Guard) (d : Reg) (a : Reg) (b : Reg) (s : State) : Host.Outcome State Fault Refusal := issueOne .s0 q (opMulhn d a b) s

/-- DIV (R258). -/
def opDiv (d : Reg) (a : Reg) (b : Reg) : OpM := opAlu vDiv d a b
def execDiv (q : Guard) (d : Reg) (a : Reg) (b : Reg) (s : State) : Host.Outcome State Fault Refusal := issueOne .s0 q (opDiv d a b) s

/-- DIVN (R258). -/
def opDivn (d : Reg) (a : Reg) (b : Reg) : OpM := opAlu vDivn d a b
def execDivn (q : Guard) (d : Reg) (a : Reg) (b : Reg) (s : State) : Host.Outcome State Fault Refusal := issueOne .s0 q (opDivn d a b) s

/-- REM (R258). -/
def opRem (d : Reg) (a : Reg) (b : Reg) : OpM := opAlu vRem d a b
def execRem (q : Guard) (d : Reg) (a : Reg) (b : Reg) (s : State) : Host.Outcome State Fault Refusal := issueOne .s0 q (opRem d a b) s

/-- REMN (R258). -/
def opRemn (d : Reg) (a : Reg) (b : Reg) : OpM := opAlu vRemn d a b
def execRemn (q : Guard) (d : Reg) (a : Reg) (b : Reg) (s : State) : Host.Outcome State Fault Refusal := issueOne .s0 q (opRemn d a b) s

/-- AND (R257). -/
def opAnd (d : Reg) (a : Reg) (b : Reg) : OpM := opAlu (fun a b => a &&& b) d a b
def execAnd (q : Guard) (d : Reg) (a : Reg) (b : Reg) (s : State) : Host.Outcome State Fault Refusal := issueOne .s0 q (opAnd d a b) s

/-- ANDN (R257). -/
def opAndn (d : Reg) (a : Reg) (b : Reg) : OpM := opAlu (fun a b => a &&& ~~~b) d a b
def execAndn (q : Guard) (d : Reg) (a : Reg) (b : Reg) (s : State) : Host.Outcome State Fault Refusal := issueOne .s0 q (opAndn d a b) s

/-- OR (R257). -/
def opOr (d : Reg) (a : Reg) (b : Reg) : OpM := opAlu (fun a b => a ||| b) d a b
def execOr (q : Guard) (d : Reg) (a : Reg) (b : Reg) (s : State) : Host.Outcome State Fault Refusal := issueOne .s0 q (opOr d a b) s

/-- XOR (R257). -/
def opXor (d : Reg) (a : Reg) (b : Reg) : OpM := opAlu (fun a b => a ^^^ b) d a b
def execXor (q : Guard) (d : Reg) (a : Reg) (b : Reg) (s : State) : Host.Outcome State Fault Refusal := issueOne .s0 q (opXor d a b) s

/-- NOR (R257). -/
def opNor (d : Reg) (a : Reg) (b : Reg) : OpM := opAlu (fun a b => ~~~(a ||| b)) d a b
def execNor (q : Guard) (d : Reg) (a : Reg) (b : Reg) (s : State) : Host.Outcome State Fault Refusal := issueOne .s0 q (opNor d a b) s

/-- MIN (R257). -/
def opMin (d : Reg) (a : Reg) (b : Reg) : OpM := opAlu vMin d a b
def execMin (q : Guard) (d : Reg) (a : Reg) (b : Reg) (s : State) : Host.Outcome State Fault Refusal := issueOne .s0 q (opMin d a b) s

/-- MAX (R257). -/
def opMax (d : Reg) (a : Reg) (b : Reg) : OpM := opAlu vMax d a b
def execMax (q : Guard) (d : Reg) (a : Reg) (b : Reg) (s : State) : Host.Outcome State Fault Refusal := issueOne .s0 q (opMax d a b) s

/-- MINN (R257). -/
def opMinn (d : Reg) (a : Reg) (b : Reg) : OpM := opAlu vMinn d a b
def execMinn (q : Guard) (d : Reg) (a : Reg) (b : Reg) (s : State) : Host.Outcome State Fault Refusal := issueOne .s0 q (opMinn d a b) s

/-- MAXN (R257). -/
def opMaxn (d : Reg) (a : Reg) (b : Reg) : OpM := opAlu vMaxn d a b
def execMaxn (q : Guard) (d : Reg) (a : Reg) (b : Reg) (s : State) : Host.Outcome State Fault Refusal := issueOne .s0 q (opMaxn d a b) s

/-- SHL by G[B] mod 64 (R259). -/
def opShl (d : Reg) (a : Reg) (b : Reg) : OpM := opAlu (fun a b => vShl a (b.toNat % 64)) d a b
def execShl (q : Guard) (d : Reg) (a : Reg) (b : Reg) (s : State) : Host.Outcome State Fault Refusal := issueOne .s0 q (opShl d a b) s

/-- SHR by G[B] mod 64 (R259). -/
def opShr (d : Reg) (a : Reg) (b : Reg) : OpM := opAlu (fun a b => vShr a (b.toNat % 64)) d a b
def execShr (q : Guard) (d : Reg) (a : Reg) (b : Reg) (s : State) : Host.Outcome State Fault Refusal := issueOne .s0 q (opShr d a b) s

/-- SRA by G[B] mod 64 (R259). -/
def opSra (d : Reg) (a : Reg) (b : Reg) : OpM := opAlu (fun a b => vSra a (b.toNat % 64)) d a b
def execSra (q : Guard) (d : Reg) (a : Reg) (b : Reg) (s : State) : Host.Outcome State Fault Refusal := issueOne .s0 q (opSra d a b) s

/-- ROT by G[B] mod 64 (R259). -/
def opRot (d : Reg) (a : Reg) (b : Reg) : OpM := opAlu (fun a b => vRot a (b.toNat % 64)) d a b
def execRot (q : Guard) (d : Reg) (a : Reg) (b : Reg) (s : State) : Host.Outcome State Fault Refusal := issueOne .s0 q (opRot d a b) s

/-- BREV (R260). -/
def opBrev (d : Reg) (a : Reg) : OpM := opUn vBrev d a
def execBrev (q : Guard) (d : Reg) (a : Reg) (s : State) : Host.Outcome State Fault Refusal := issueOne .s0 q (opBrev d a) s

/-- CLZ (R260). -/
def opClz (d : Reg) (a : Reg) : OpM := opUn vClz d a
def execClz (q : Guard) (d : Reg) (a : Reg) (s : State) : Host.Outcome State Fault Refusal := issueOne .s0 q (opClz d a) s

/-- CTZ (R260). -/
def opCtz (d : Reg) (a : Reg) : OpM := opUn vCtz d a
def execCtz (q : Guard) (d : Reg) (a : Reg) (s : State) : Host.Outcome State Fault Refusal := issueOne .s0 q (opCtz d a) s

/-- POPC (R260). -/
def opPopc (d : Reg) (a : Reg) : OpM := opUn vPopc d a
def execPopc (q : Guard) (d : Reg) (a : Reg) (s : State) : Host.Outcome State Fault Refusal := issueOne .s0 q (opPopc d a) s

/-- SEL: bit F1 of G[F2] chooses (R262). -/
def opSel (d : Reg) (a : Reg) (b : Reg) (f1 : BitVec 6) (f2 : BitVec 6) : OpM := fun x s =>
  .ok (setG s d (if bit (grN x f2) f1.toNat then gr x a else gr x b))
def execSel (q : Guard) (d : Reg) (a : Reg) (b : Reg) (f1 : BitVec 6) (f2 : BitVec 6) (s : State) : Host.Outcome State Fault Refusal := issueOne .s0 q (opSel d a b f1 f2) s

/-- CMP writes one bit of G[D] (R261). -/
def opCmp (d : Reg) (a : Reg) (b : Reg) (bit : BitVec 6) (cond : BitVec 6) : OpM := opRmw (fun o a b => putBit o bit.toNat (condHolds cond.toNat a b)) d a b
def execCmp (q : Guard) (d : Reg) (a : Reg) (b : Reg) (bit : BitVec 6) (cond : BitVec 6) (s : State) : Host.Outcome State Fault Refusal := issueOne .s0 q (opCmp d a b bit cond) s

/-- BSET (R263). -/
def opBset (d : Reg) (a : Reg) (b : Reg) : OpM := opAlu (fun a b => putBit a (b.toNat % 64) true) d a b
def execBset (q : Guard) (d : Reg) (a : Reg) (b : Reg) (s : State) : Host.Outcome State Fault Refusal := issueOne .s0 q (opBset d a b) s

/-- BCLR (R263). -/
def opBclr (d : Reg) (a : Reg) (b : Reg) : OpM := opAlu (fun a b => putBit a (b.toNat % 64) false) d a b
def execBclr (q : Guard) (d : Reg) (a : Reg) (b : Reg) (s : State) : Host.Outcome State Fault Refusal := issueOne .s0 q (opBclr d a b) s

/-- BINS (R263). -/
def opBins (d : Reg) (a : Reg) (b : Reg) (f1 : BitVec 6) (f2 : BitVec 6) : OpM := opAlu (fun a b => putBit a f1.toNat (bit b.toNat f2.toNat)) d a b
def execBins (q : Guard) (d : Reg) (a : Reg) (b : Reg) (f1 : BitVec 6) (f2 : BitVec 6) (s : State) : Host.Outcome State Fault Refusal := issueOne .s0 q (opBins d a b f1 f2) s

/-- EXTR (R264). -/
def opExtr (d : Reg) (a : Reg) (b : Reg) (w : BitVec 6) : OpM := opAlu (fun a b => vExtr a (b.toNat % 64) (w.toNat + 1)) d a b
def execExtr (q : Guard) (d : Reg) (a : Reg) (b : Reg) (w : BitVec 6) (s : State) : Host.Outcome State Fault Refusal := issueOne .s0 q (opExtr d a b w) s

/-- DEPO keeps the other bits of G[D] (R264). -/
def opDepo (d : Reg) (a : Reg) (b : Reg) (w : BitVec 6) : OpM := opRmw (fun o a b => vDepo o a (b.toNat % 64) (w.toNat + 1)) d a b
def execDepo (q : Guard) (d : Reg) (a : Reg) (b : Reg) (w : BitVec 6) (s : State) : Host.Outcome State Fault Refusal := issueOne .s0 q (opDepo d a b w) s

/-- AADD: PATH_FAULT on a carry into the path bits (R265). -/
def opAadd (d : Reg) (a : Reg) (b : Reg) : OpM := fun x s => do
  let e ← effAddr (gr x a) (gr x b).toInt
  return setG s d (w64 e)
def execAadd (q : Guard) (d : Reg) (a : Reg) (b : Reg) (s : State) : Host.Outcome State Fault Refusal := issueOne .s0 q (opAadd d a b) s

/-- ADIFF (R266). -/
def opAdiff (d : Reg) (a : Reg) (b : Reg) : OpM := fun x s => do
  need (grN x a / 2 ^ 57 == grN x b / 2 ^ 57) .pathFault 0 (gr x a)
  return setG s d (BitVec.ofInt 64 ((lowOf (grN x a) : Int) - lowOf (grN x b)))
def execAdiff (q : Guard) (d : Reg) (a : Reg) (b : Reg) (s : State) : Host.Outcome State Fault Refusal := issueOne .s0 q (opAdiff d a b) s

/-- ACHK never faults (R267). -/
def opAchk (d : Reg) (a : Reg) (b : Reg) : OpM := opAlu (fun a b => w64 (vAchk a.toNat b.toNat)) d a b
def execAchk (q : Guard) (d : Reg) (a : Reg) (b : Reg) (s : State) : Host.Outcome State Fault Refusal := issueOne .s0 q (opAchk d a b) s

/-- ADD with an immediate (R254, R257). -/
def opAddImm (d : Reg) (a : Reg) (imm : BitVec 28) : OpM := opUn (fun a => (fun a b => a + b) a (imm28 imm)) d a
def execAddImm (q : Guard) (d : Reg) (a : Reg) (imm : BitVec 28) (s : State) : Host.Outcome State Fault Refusal := issueOne .s0 q (opAddImm d a imm) s

/-- SUB with an immediate (R254, R257). -/
def opSubImm (d : Reg) (a : Reg) (imm : BitVec 28) : OpM := opUn (fun a => (fun a b => a - b) a (imm28 imm)) d a
def execSubImm (q : Guard) (d : Reg) (a : Reg) (imm : BitVec 28) (s : State) : Host.Outcome State Fault Refusal := issueOne .s0 q (opSubImm d a imm) s

/-- MUL with an immediate (R254, R257). -/
def opMulImm (d : Reg) (a : Reg) (imm : BitVec 28) : OpM := opUn (fun a => (fun a b => a * b) a (imm28 imm)) d a
def execMulImm (q : Guard) (d : Reg) (a : Reg) (imm : BitVec 28) (s : State) : Host.Outcome State Fault Refusal := issueOne .s0 q (opMulImm d a imm) s

/-- AND with an immediate (R254, R257). -/
def opAndImm (d : Reg) (a : Reg) (imm : BitVec 28) : OpM := opUn (fun a => (fun a b => a &&& b) a (imm28 imm)) d a
def execAndImm (q : Guard) (d : Reg) (a : Reg) (imm : BitVec 28) (s : State) : Host.Outcome State Fault Refusal := issueOne .s0 q (opAndImm d a imm) s

/-- ANDN with an immediate (R254, R257). -/
def opAndnImm (d : Reg) (a : Reg) (imm : BitVec 28) : OpM := opUn (fun a => (fun a b => a &&& ~~~b) a (imm28 imm)) d a
def execAndnImm (q : Guard) (d : Reg) (a : Reg) (imm : BitVec 28) (s : State) : Host.Outcome State Fault Refusal := issueOne .s0 q (opAndnImm d a imm) s

/-- OR with an immediate (R254, R257). -/
def opOrImm (d : Reg) (a : Reg) (imm : BitVec 28) : OpM := opUn (fun a => (fun a b => a ||| b) a (imm28 imm)) d a
def execOrImm (q : Guard) (d : Reg) (a : Reg) (imm : BitVec 28) (s : State) : Host.Outcome State Fault Refusal := issueOne .s0 q (opOrImm d a imm) s

/-- XOR with an immediate (R254, R257). -/
def opXorImm (d : Reg) (a : Reg) (imm : BitVec 28) : OpM := opUn (fun a => (fun a b => a ^^^ b) a (imm28 imm)) d a
def execXorImm (q : Guard) (d : Reg) (a : Reg) (imm : BitVec 28) (s : State) : Host.Outcome State Fault Refusal := issueOne .s0 q (opXorImm d a imm) s

/-- MIN with an immediate (R254, R257). -/
def opMinImm (d : Reg) (a : Reg) (imm : BitVec 28) : OpM := opUn (fun a => vMin a (imm28 imm)) d a
def execMinImm (q : Guard) (d : Reg) (a : Reg) (imm : BitVec 28) (s : State) : Host.Outcome State Fault Refusal := issueOne .s0 q (opMinImm d a imm) s

/-- MAX with an immediate (R254, R257). -/
def opMaxImm (d : Reg) (a : Reg) (imm : BitVec 28) : OpM := opUn (fun a => vMax a (imm28 imm)) d a
def execMaxImm (q : Guard) (d : Reg) (a : Reg) (imm : BitVec 28) (s : State) : Host.Outcome State Fault Refusal := issueOne .s0 q (opMaxImm d a imm) s

/-- MINN with an immediate (R254, R257). -/
def opMinnImm (d : Reg) (a : Reg) (imm : BitVec 28) : OpM := opUn (fun a => vMinn a (imm28 imm)) d a
def execMinnImm (q : Guard) (d : Reg) (a : Reg) (imm : BitVec 28) (s : State) : Host.Outcome State Fault Refusal := issueOne .s0 q (opMinnImm d a imm) s

/-- MAXN with an immediate (R254, R257). -/
def opMaxnImm (d : Reg) (a : Reg) (imm : BitVec 28) : OpM := opUn (fun a => vMaxn a (imm28 imm)) d a
def execMaxnImm (q : Guard) (d : Reg) (a : Reg) (imm : BitVec 28) (s : State) : Host.Outcome State Fault Refusal := issueOne .s0 q (opMaxnImm d a imm) s

/-- SHL by an immediate (R259). -/
def opShlImm (d : Reg) (a : Reg) (n : BitVec 6) : OpM := opUn (fun a => vShl a n.toNat) d a
def execShlImm (q : Guard) (d : Reg) (a : Reg) (n : BitVec 6) (s : State) : Host.Outcome State Fault Refusal := issueOne .s0 q (opShlImm d a n) s

/-- SHR by an immediate (R259). -/
def opShrImm (d : Reg) (a : Reg) (n : BitVec 6) : OpM := opUn (fun a => vShr a n.toNat) d a
def execShrImm (q : Guard) (d : Reg) (a : Reg) (n : BitVec 6) (s : State) : Host.Outcome State Fault Refusal := issueOne .s0 q (opShrImm d a n) s

/-- SRA by an immediate (R259). -/
def opSraImm (d : Reg) (a : Reg) (n : BitVec 6) : OpM := opUn (fun a => vSra a n.toNat) d a
def execSraImm (q : Guard) (d : Reg) (a : Reg) (n : BitVec 6) (s : State) : Host.Outcome State Fault Refusal := issueOne .s0 q (opSraImm d a n) s

/-- ROT by an immediate (R259). -/
def opRotImm (d : Reg) (a : Reg) (n : BitVec 6) : OpM := opUn (fun a => vRot a n.toNat) d a
def execRotImm (q : Guard) (d : Reg) (a : Reg) (n : BitVec 6) (s : State) : Host.Outcome State Fault Refusal := issueOne .s0 q (opRotImm d a n) s

/-- CMP with a 16-bit immediate (R261). -/
def opCmpImm (d : Reg) (a : Reg) (imm : BitVec 16) (bit : BitVec 6) (cond : BitVec 6) : OpM := opRmw (fun o a _ => putBit o bit.toNat (condHolds cond.toNat a (imm.signExtend 64))) d a a
def execCmpImm (q : Guard) (d : Reg) (a : Reg) (imm : BitVec 16) (bit : BitVec 6) (cond : BitVec 6) (s : State) : Host.Outcome State Fault Refusal := issueOne .s0 q (opCmpImm d a imm bit cond) s

/-- BSET of an immediate bit (R263). -/
def opBsetImm (d : Reg) (a : Reg) (n : BitVec 6) : OpM := opUn (fun a => putBit a n.toNat true) d a
def execBsetImm (q : Guard) (d : Reg) (a : Reg) (n : BitVec 6) (s : State) : Host.Outcome State Fault Refusal := issueOne .s0 q (opBsetImm d a n) s

/-- BCLR of an immediate bit (R263). -/
def opBclrImm (d : Reg) (a : Reg) (n : BitVec 6) : OpM := opUn (fun a => putBit a n.toNat false) d a
def execBclrImm (q : Guard) (d : Reg) (a : Reg) (n : BitVec 6) (s : State) : Host.Outcome State Fault Refusal := issueOne .s0 q (opBclrImm d a n) s

/-- EXTR of an immediate field (R264). -/
def opExtrImm (d : Reg) (a : Reg) (lo : BitVec 6) (w : BitVec 6) : OpM := opUn (fun a => vExtr a lo.toNat (w.toNat + 1)) d a
def execExtrImm (q : Guard) (d : Reg) (a : Reg) (lo : BitVec 6) (w : BitVec 6) (s : State) : Host.Outcome State Fault Refusal := issueOne .s0 q (opExtrImm d a lo w) s

/-- DEPO of an immediate field (R264). -/
def opDepoImm (d : Reg) (a : Reg) (lo : BitVec 6) (w : BitVec 6) : OpM := opRmw (fun o a _ => vDepo o a lo.toNat (w.toNat + 1)) d a a
def execDepoImm (q : Guard) (d : Reg) (a : Reg) (lo : BitVec 6) (w : BitVec 6) (s : State) : Host.Outcome State Fault Refusal := issueOne .s0 q (opDepoImm d a lo w) s

/-- AADD of an immediate (R265). -/
def opAaddImm (d : Reg) (a : Reg) (imm : BitVec 28) : OpM := fun x s => do
  let e ← effAddr (gr x a) imm.toInt
  return setG s d (w64 e)
def execAaddImm (q : Guard) (d : Reg) (a : Reg) (imm : BitVec 28) (s : State) : Host.Outcome State Fault Refusal := issueOne .s0 q (opAaddImm d a imm) s

/-- ACHK of an immediate length (R267). -/
def opAchkImm (d : Reg) (a : Reg) (imm : BitVec 28) : OpM := opUn (fun a => w64 (vAchk a.toNat imm.toNat)) d a
def execAchkImm (q : Guard) (d : Reg) (a : Reg) (imm : BitVec 28) (s : State) : Host.Outcome State Fault Refusal := issueOne .s0 q (opAchkImm d a imm) s

/-- MOVI (R268). -/
def opMovi (d : Reg) (imm : BitVec 34) : OpM := fun _ s => .ok (setG s d (imm.signExtend 64))
def execMovi (q : Guard) (d : Reg) (imm : BitVec 34) (s : State) : Host.Outcome State Fault Refusal := issueOne .s0 q (opMovi d imm) s

/-- MOVHI keeps the low 34 bits (R268). -/
def opMovhi (d : Reg) (imm : BitVec 30) : OpM := opUn (fun o => w64 (imm.toNat * 2 ^ 34 + o.toNat % 2 ^ 34)) d d
def execMovhi (q : Guard) (d : Reg) (imm : BitVec 30) (s : State) : Host.Outcome State Fault Refusal := issueOne .s0 q (opMovhi d imm) s

/-- The system registers numbered from 0x800 that exist (R422, R451, R510, R511). -/
def ctlKnown (n : Nat) : Bool := (ctlRead {} false n).isSome

/-- MOVC reads the register as committed by earlier bundles (R86, R269, R421). -/
def opMovc (d : Reg) (num : BitVec 12) : OpM := fun x s => do
  need (ctlKnown num.toNat) .illegalEnc
  need (ctlMayRead (cur x.rd).level num.toNat) .priv
  return setG s d ((ctlRead x.rd x.rd.sel num.toNat).getD 0)
def execMovc (q : Guard) (d : Reg) (num : BitVec 12) (s : State) : Host.Outcome State Fault Refusal := issueOne .s0 q (opMovc d num) s

/-- MOVS writes the register at commit, before the hardware updates of the same issue (R86, R269, R270, R421). -/
def opMovs (a : Reg) (num : BitVec 12) : OpM := fun x s => do
  need (ctlKnown num.toNat) .illegalEnc
  need (ctlMayWrite (cur x.rd).level num.toNat) .priv
  return ctlWrite s s.sel num.toNat (gr x a)
def execMovs (q : Guard) (a : Reg) (num : BitVec 12) (s : State) : Host.Outcome State Fault Refusal := issueOne .s0 q (opMovs a num) s

end Sys2Proof.Machine
end

