-- ==== Sys2Proof/Machine/Sync.lean ====
section
/-!
DEFINITION. Atomics, fences, barriers and tree reductions, counters, work queues and join counters (R132 to R139, R293 to
R311).
-/

namespace Sys2Proof.Machine

/-! ## Atomics (R293 to R296) -/

/-- The value an atomic of n bytes writes, from the old value and b (R293). -/
abbrev AmoFn := Nat → Nat → Nat → Nat

/-- The smaller and larger at n bytes, signed. -/
def amoMinS : AmoFn := fun n o b => if sextI o (8 * n) ≤ sextI b (8 * n) then o else b
def amoMaxS : AmoFn := fun n o b => if sextI o (8 * n) ≤ sextI b (8 * n) then b else o

/-- An atomic: G[D] := the old value (R294). -/
def opAmo (n : Nat) (zext hostOk : Bool) (f : AmoFn) (d a b : Reg) (off : BitVec 14) : OpM := fun x s0 => do
  waitFor (!(cur s0).prov)
  let ea ← effAddr (gr x a) off.toInt
  let v := grN x b % 2 ^ (8 * n)
  let (old, lost, s) ← atomicAt n hostOk ea (fun o => some (f n o v % 2 ^ (8 * n))) s0
  pendG s0 s d (if zext then w64 old else BitVec.ofInt 64 (sextI old (8 * n))) lost ea

/-- AMOCAS: b is written where the old value equals G[D] (R294). -/
def opCas (n : Nat) (d a b : Reg) (off : BitVec 14) : OpM := fun x s0 => do
  waitFor (!(cur s0).prov)
  let ea ← effAddr (gr x a) off.toInt
  let v := grN x b % 2 ^ (8 * n)
  let (old, lost, s) ← atomicAt n true ea (fun o => if o = grN x d % 2 ^ (8 * n) then some v else none) s0
  pendG s0 s d (BitVec.ofInt 64 (sextI old (8 * n))) lost ea

/-- AMO.ADD (R293). -/
def opAmoAdd (d a b : Reg) (off : BitVec 14) : OpM := opAmo 8 false true (fun _ o b => o + b) d a b off
def execAmoAdd (q : Guard) (d a b : Reg) (off : BitVec 14) (s : State) : Host.Outcome State Fault Refusal :=
  issueOne .c q (opAmoAdd d a b off) s

/-- AMO.MIN (R293). -/
def opAmoMin (d a b : Reg) (off : BitVec 14) : OpM := opAmo 8 false false amoMinS d a b off
def execAmoMin (q : Guard) (d a b : Reg) (off : BitVec 14) (s : State) : Host.Outcome State Fault Refusal :=
  issueOne .c q (opAmoMin d a b off) s

/-- AMO.MAX (R293). -/
def opAmoMax (d a b : Reg) (off : BitVec 14) : OpM := opAmo 8 false false amoMaxS d a b off
def execAmoMax (q : Guard) (d a b : Reg) (off : BitVec 14) (s : State) : Host.Outcome State Fault Refusal :=
  issueOne .c q (opAmoMax d a b off) s

/-- AMO.MINN (R293). -/
def opAmoMinn (d a b : Reg) (off : BitVec 14) : OpM := opAmo 8 true false (fun _ o b => min o b) d a b off
def execAmoMinn (q : Guard) (d a b : Reg) (off : BitVec 14) (s : State) : Host.Outcome State Fault Refusal :=
  issueOne .c q (opAmoMinn d a b off) s

/-- AMO.MAXN (R293). -/
def opAmoMaxn (d a b : Reg) (off : BitVec 14) : OpM := opAmo 8 true false (fun _ o b => max o b) d a b off
def execAmoMaxn (q : Guard) (d a b : Reg) (off : BitVec 14) (s : State) : Host.Outcome State Fault Refusal :=
  issueOne .c q (opAmoMaxn d a b off) s

/-- AMO.AND (R293). -/
def opAmoAnd (d a b : Reg) (off : BitVec 14) : OpM := opAmo 8 false false (fun _ o b => o &&& b) d a b off
def execAmoAnd (q : Guard) (d a b : Reg) (off : BitVec 14) (s : State) : Host.Outcome State Fault Refusal :=
  issueOne .c q (opAmoAnd d a b off) s

/-- AMO.OR (R293). -/
def opAmoOr (d a b : Reg) (off : BitVec 14) : OpM := opAmo 8 false false (fun _ o b => o ||| b) d a b off
def execAmoOr (q : Guard) (d a b : Reg) (off : BitVec 14) (s : State) : Host.Outcome State Fault Refusal :=
  issueOne .c q (opAmoOr d a b off) s

/-- AMO.XOR (R293). -/
def opAmoXor (d a b : Reg) (off : BitVec 14) : OpM := opAmo 8 false false (fun _ o b => o ^^^ b) d a b off
def execAmoXor (q : Guard) (d a b : Reg) (off : BitVec 14) (s : State) : Host.Outcome State Fault Refusal :=
  issueOne .c q (opAmoXor d a b off) s

/-- AMO.SWAP (R293). -/
def opAmoSwap (d a b : Reg) (off : BitVec 14) : OpM := opAmo 8 false true (fun _ _ b => b) d a b off
def execAmoSwap (q : Guard) (d a b : Reg) (off : BitVec 14) (s : State) : Host.Outcome State Fault Refusal :=
  issueOne .c q (opAmoSwap d a b off) s

/-- AMOCAS (R293). -/
def opAmocas (d a b : Reg) (off : BitVec 14) : OpM := opCas 8 d a b off
def execAmocas (q : Guard) (d a b : Reg) (off : BitVec 14) (s : State) : Host.Outcome State Fault Refusal :=
  issueOne .c q (opAmocas d a b off) s

/-- AMO.ADD.W (R293). -/
def opAmoAddW (d a b : Reg) (off : BitVec 14) : OpM := opAmo 4 false true (fun _ o b => o + b) d a b off
def execAmoAddW (q : Guard) (d a b : Reg) (off : BitVec 14) (s : State) : Host.Outcome State Fault Refusal :=
  issueOne .c q (opAmoAddW d a b off) s

/-- AMO.MIN.W (R293). -/
def opAmoMinW (d a b : Reg) (off : BitVec 14) : OpM := opAmo 4 false false amoMinS d a b off
def execAmoMinW (q : Guard) (d a b : Reg) (off : BitVec 14) (s : State) : Host.Outcome State Fault Refusal :=
  issueOne .c q (opAmoMinW d a b off) s

/-- AMO.MAX.W (R293). -/
def opAmoMaxW (d a b : Reg) (off : BitVec 14) : OpM := opAmo 4 false false amoMaxS d a b off
def execAmoMaxW (q : Guard) (d a b : Reg) (off : BitVec 14) (s : State) : Host.Outcome State Fault Refusal :=
  issueOne .c q (opAmoMaxW d a b off) s

/-- AMO.MINN.W (R293). -/
def opAmoMinnW (d a b : Reg) (off : BitVec 14) : OpM := opAmo 4 true false (fun _ o b => min o b) d a b off
def execAmoMinnW (q : Guard) (d a b : Reg) (off : BitVec 14) (s : State) : Host.Outcome State Fault Refusal :=
  issueOne .c q (opAmoMinnW d a b off) s

/-- AMO.MAXN.W (R293). -/
def opAmoMaxnW (d a b : Reg) (off : BitVec 14) : OpM := opAmo 4 true false (fun _ o b => max o b) d a b off
def execAmoMaxnW (q : Guard) (d a b : Reg) (off : BitVec 14) (s : State) : Host.Outcome State Fault Refusal :=
  issueOne .c q (opAmoMaxnW d a b off) s

/-- AMO.AND.W (R293). -/
def opAmoAndW (d a b : Reg) (off : BitVec 14) : OpM := opAmo 4 false false (fun _ o b => o &&& b) d a b off
def execAmoAndW (q : Guard) (d a b : Reg) (off : BitVec 14) (s : State) : Host.Outcome State Fault Refusal :=
  issueOne .c q (opAmoAndW d a b off) s

/-- AMO.OR.W (R293). -/
def opAmoOrW (d a b : Reg) (off : BitVec 14) : OpM := opAmo 4 false false (fun _ o b => o ||| b) d a b off
def execAmoOrW (q : Guard) (d a b : Reg) (off : BitVec 14) (s : State) : Host.Outcome State Fault Refusal :=
  issueOne .c q (opAmoOrW d a b off) s

/-- AMO.XOR.W (R293). -/
def opAmoXorW (d a b : Reg) (off : BitVec 14) : OpM := opAmo 4 false false (fun _ o b => o ^^^ b) d a b off
def execAmoXorW (q : Guard) (d a b : Reg) (off : BitVec 14) (s : State) : Host.Outcome State Fault Refusal :=
  issueOne .c q (opAmoXorW d a b off) s

/-- AMO.SWAP.W (R293). -/
def opAmoSwapW (d a b : Reg) (off : BitVec 14) : OpM := opAmo 4 false true (fun _ _ b => b) d a b off
def execAmoSwapW (q : Guard) (d a b : Reg) (off : BitVec 14) (s : State) : Host.Outcome State Fault Refusal :=
  issueOne .c q (opAmoSwapW d a b off) s

/-- AMOCAS.W (R293). -/
def opAmocasW (d a b : Reg) (off : BitVec 14) : OpM := opCas 4 d a b off
def execAmocasW (q : Guard) (d a b : Reg) (off : BitVec 14) (s : State) : Host.Outcome State Fault Refusal :=
  issueOne .c q (opAmocasW d a b off) s

/-- AMOFADD: the flags of the sum reach FLAGS when G[D] is written (R295). -/
def opAmofadd (d a b : Reg) (off : BitVec 14) : OpM := fun x s0 => do
  waitFor (!(cur s0).prov)
  let ea ← effAddr (gr x a) off.toInt
  let v := grN x b % 2 ^ 32
  let (old, lost, s) ← atomicAt 4 false ea (fun o => some (fAdd fFP32 o v).1) s0
  pendG s0 s d (w64 old) lost ea (if lost then 0 else w64 (fAdd fFP32 old v).2)
def execAmofadd (q : Guard) (d a b : Reg) (off : BitVec 14) (s : State) : Host.Outcome State Fault Refusal :=
  issueOne .c q (opAmofadd d a b off) s

/-! ## FENCE (R132 to R135, R297) -/

/-- Every canopy command of the acting stream's task is performed: deliveries made, rows written, planes complete (R123). -/
def canopyDone (s : State) (c : Stream) : Bool :=
  s.gv.clds.all (fun m => m.task != c.task) &&
  s.gv.banks.all (fun b => b.2.holder != some c.task || decide (after b.2.tCst 16 ≤ s.now)) &&
  !(s.gv.owner == some c.task && s.gv.idle.st == 1)

/-- What a FENCE waits for before it issues (R133). -/
def fenceClear (s : State) (pred scope : Nat) : Bool :=
  (!(bit pred 0 || bit pred 2) || (cur s).pend.all (fun p => p.asks.isEmpty)) &&
  (!bit pred 3 || s.gv.jobs.all (fun j => j.strm != s.sel)) && (!bit pred 4 || canopyDone s (cur s)) &&
  (!bit pred 2 || !shresWaits s s.sel) && (scope != 4 || s.gv.jobs.all (fun j => !(j.strm == s.sel && (j.op == 0x106 || j.op == 0x107))))

/-- FENCE (R133). -/
def opFence (pred succ : BitVec 5) (scope : BitVec 3) : OpM := fun x s => do
  let wide := decide (scope.toNat > 0)
  let pub := bit pred.toNat 1 && wide
  waitFor (!(pub && (cur x.rd).prov))
  let s ← if pub then release s else pure s
  waitFor (fenceClear s pred.toNat scope.toNat)
  return if bit succ.toNat 0 && wide then dropPath0 s else s
def execFence (q : Guard) (pred succ : BitVec 5) (scope : BitVec 3) (s : State) : Host.Outcome State Fault Refusal :=
  issueOne .c q (opFence pred succ scope) s

/-! ## Barriers (R299 to R304) -/

/-- The key of a shape: its logarithms, or the launch's covering node. -/
def shapeKey (h : BarShape) : Nat := if h.lnch then 64 else 8 * h.lw.toNat + h.lh.toNat

/-- A node of the barrier tree: its origin and the logarithms of its sides (R23). -/
structure Node where
  x : Nat
  y : Nat
  a : Nat
  b : Nat
  deriving DecidableEq, Repr

/-- The Grove lies in the node. -/
def Node.has (n : Node) (g : Nat) : Bool :=
  decide (n.x ≤ g % 16) && decide (g % 16 < n.x + 2 ^ n.a) && decide (n.y ≤ g / 16) && decide (g / 16 < n.y + 2 ^ n.b)

/-- The legal node of sides 2^a × 2^b that contains a Grove (R22, R299). -/
def nodeOf (g a b : Nat) : Node := ⟨g % 16 / 2 ^ a * 2 ^ a, g / 16 / 2 ^ b * 2 ^ b, a, b⟩

/-- The shapes of legal nodes in ascending area (R22). -/
def legalShapes : List (Nat × Nat) := [(0, 0), (1, 0), (0, 1), (1, 1), (2, 1), (1, 2), (2, 2), (3, 2), (2, 3), (3, 3), (4, 3), (3, 4), (4, 4)]

/-- The covering node of a launch (R23). -/
def coverNode (l : Launch) : Node :=
  let o := opX0 l + 16 * opY0 l
  let ns := legalShapes.map (fun p => nodeOf o p.1 p.2)
  (ns.find? (fun n => (rectGroves l).all n.has)).getD ⟨0, 0, 4, 4⟩

/-- The node that a shape names for the Grove. -/
def shapeNode (s : State) (l : Launch) (key : Nat) : Node :=
  if key = 64 then coverNode l else nodeOf s.gv.id (key / 8) (key % 8)

/-- The subgroup lies wholly inside the launch's rectangle (R304). -/
def groupOk (s : State) (l : Launch) (h : BarShape) : Bool :=
  h.lnch || (List.range 256).all (fun g => !(nodeOf s.gv.id h.lw.toNat h.lh.toNat).has g || inRect l g)

/-- The generations of a shape at this Grove. -/
def barOf (l : Launch) (key : Nat) : Bar := rget {} l.bars key

/-- An arrival of this Grove with its contribution (R300, R302). -/
def arrive (n key : Nat) (rop : Option Nat) (v : Word) (s : State) : State :=
  modLaunch s n (fun l => { l with bars := rmod {} l.bars key (fun b => { b with ag := b.ag + 1, rop := rop, val := v }) })

/-- BAR.ARRIVE (R300). -/
def opBarArrive (h : BarShape) : OpM := fun x s => do
  let c := cur x.rd
  let l := launchOf s c.launch
  need (groupOk s l h) .barGroup
  let b := barOf l (shapeKey h)
  waitFor (b.ag == b.dg)
  return arrive c.launch (shapeKey h) none 0 s
def execBarArrive (q : Guard) (h : BarShape) (s : State) : Host.Outcome State Fault Refusal := issueOne .c q (opBarArrive h) s

/-- The acting stream waits for a generation of a shape. -/
def setGen (g : Option (Nat × Nat)) (s : State) : State := modCur s (fun c => { c with barGen := g, barRes := none })

/-- BAR.WAIT: the generation is fixed when the op first waits (R300, R304). -/
def opBarWait (h : BarShape) : OpM := fun x s => do
  let c := cur x.rd
  let l := launchOf s c.launch
  need (groupOk s l h) .barGroup
  let b := barOf (launchOf (seen s) c.launch) (shapeKey h)
  match c.barGen with
  | none => if b.dg ≥ b.ag then return s else stallWith (setGen (some (shapeKey h, b.ag)))
  | some (_, g) => if b.dg ≥ g then return setGen none s else stallNow
def execBarWait (q : Guard) (h : BarShape) (s : State) : Host.Outcome State Fault Refusal := issueOne .c q (opBarWait h) s

/-- The Grove has arrived for its launch's phase (R51). -/
def hasArrived (s : State) (l : Launch) : Bool := opExplicit l && decide (s.gv.id ∈ l.arrived)

/-- BAR.PHASE marks the Grove arrived in EXPLICIT mode; a second one adds nothing; in IMPLICIT mode it has no effect
(R51, R301). -/
def opBarPhase : OpM := fun x s =>
  let n := (cur x.rd).launch
  let l := launchOf s n
  .ok (if opExplicit l && !decide (s.gv.id ∈ l.arrived) then modLaunch s n (fun l => { l with arrived := s.gv.id :: l.arrived }) else s)
def execBarPhase (q : Guard) (s : State) : Host.Outcome State Fault Refusal := issueOne .c q opBarPhase s

/-- The identity of a reduction (R302). -/
def ropIdent (rop : Nat) : Word :=
  match rop with
  | 1 => 0x7FFFFFFFFFFFFFFF | 2 => 0x8000000000000000 | 3 => 0xFFFFFFFFFFFFFFFF | 5 => 0xFFFFFFFFFFFFFFFF | 7 => 0x80000000
  | _ => 0

/-- A reduction of two values with its flags (R302, R303). -/
def ropCombine (rop : Nat) (a b : Word) : Word × Word :=
  match rop with
  | 0 => (a + b, 0)
  | 1 => (if a.toInt ≤ b.toInt then a else b, 0)
  | 2 => (if a.toInt ≤ b.toInt then b else a, 0)
  | 3 => (if a.toNat ≤ b.toNat then a else b, 0)
  | 4 => (if a.toNat ≤ b.toNat then b else a, 0)
  | 5 => (a &&& b, 0)
  | 6 => (a ||| b, 0)
  | _ => let r := fAdd fFP32 (a.toNat % 2 ^ 32) (b.toNat % 2 ^ 32); (w64 r.1, w64 r.2)

/-- The reduction over a node: halves split in x where a > b, else in y, the lower origin first (R303); fuel a + b. -/
def treeReduce (rop : Nat) (leaf : Nat → Word) : Nat → Node → Word × Word
  | 0, n => (leaf (n.x + 16 * n.y), 0)
  | fuel + 1, n =>
    if n.a = 0 ∧ n.b = 0 then (leaf (n.x + 16 * n.y), 0)
    else
      let (p, q) : Node × Node :=
        if n.a > n.b then (⟨n.x, n.y, n.a - 1, n.b⟩, ⟨n.x + 2 ^ (n.a - 1), n.y, n.a - 1, n.b⟩)
        else (⟨n.x, n.y, n.a, n.b - 1⟩, ⟨n.x, n.y + 2 ^ (n.b - 1), n.a, n.b - 1⟩)
      let r := treeReduce rop leaf fuel p
      let t := treeReduce rop leaf fuel q
      let u := ropCombine rop r.1 t.1
      (u.1, r.2 ||| t.2 ||| u.2)

/-- The contribution of BARR (R302). -/
def barrValue (rop : Nat) (v : Word) : Word := if rop = 7 then w64 (v.toNat % 2 ^ 32) else v

/-- The Grove's phase value for a ROP with a value folded in (R302, R303). -/
def phaseFold (rop : Nat) (v : Word) (l : Launch) : Launch :=
  if rop ∈ l.phSet then
    let r := ropCombine rop (rget 0 l.phVal rop) v
    { l with phVal := rset 0 l.phVal rop r.1, phLoc := l.phLoc ||| r.2 }
  else { l with phVal := rset 0 l.phVal rop v, phSet := rop :: l.phSet }

/-- BARR (R302): in phase mode it folds its value and answers the previous phase's; otherwise it arrives with its value
and waits for the generation's result. -/
def opBarr (d a : Reg) (h : BarShape) (rop : BitVec 3) (phm : Bool) : OpM := fun x s => do
  let c := cur x.rd
  let n := c.launch
  let l := launchOf s n
  let v := barrValue rop.toNat (gr x a)
  notProv x
  if phm then
    need (!hasArrived s (launchOf (seen s) n)) .barLate
    let s := modLaunch s n (phaseFold rop.toNat v)
    let set := decide (rop.toNat ∈ l.phResSet)
    pendG s s d (if set then rget 0 l.phRes rop.toNat else ropIdent rop.toNat) false 0
      (if set && rop == 7 then l.phFlags else 0)
  else
    need (groupOk s l h) .barGroup
    let key := shapeKey h
    let b := barOf l key
    match c.barGen, c.barRes with
    | some _, some (r, fl) => pendG s (setGen none s) d r false 0 fl
    | some _, none => stallNow
    | none, _ =>
      if b.ag = b.dg then stallWith (fun s => setGen (some (key, b.ag + 1)) (arrive n key (some rop.toNat) v s))
      else stallNow
def execBarr (q : Guard) (d a : Reg) (h : BarShape) (rop : BitVec 3) (phm : Bool) (s : State) :
    Host.Outcome State Fault Refusal := issueOne .c q (opBarr d a h rop phm) s

/-- A stream waiting for this generation of the launch's shape receives its result. -/
def deliverGen (n key g : Nat) (r : Word × Word) (c : Stream) : Stream :=
  if c.launch == n && c.barGen == some (key, g) then { c with barRes := some r } else c

/-- The node of a shape completes the Grove's open generation once every Grove of it inside the rectangle has arrived
(R300); `others` are the other Groves with the ROP and value of their BARR. Different ROPs are a BAR_MISMATCH and every
waiter receives 0 (R304). -/
def nodeComplete (n key : Nat) (others : List (Nat × Option Nat × Word)) (s : State) : State :=
  let l := launchOf s n
  let b := barOf l key
  let node := shapeNode s l key
  let all := (s.gv.id, b.rop, b.val) :: others
  let here := (List.range 256).all (fun g => !node.has g || !inRect l g || all.any (fun o => o.1 == g))
  if b.ag = b.dg || !here || !liveLaunch l then s
  else
    let rops := (all.filterMap (fun o => o.2.1)).eraseDups
    let leaf (rop g : Nat) : Word :=
      match all.find? (fun o => o.1 == g && o.2.1.isSome && inRect l g) with
      | some o => o.2.2
      | none => ropIdent rop
    let r : Word × Word := match rops with
      | [rop] => treeReduce rop (leaf rop) (node.a + node.b) node
      | _ => (0, 0)
    let s := if rops.length > 1 then launchCond n .barMismatch s else s
    let s := modLaunch s n (fun l => { l with
      bars := rmod {} l.bars key (fun b => { b with dg := b.ag, res := r.1, resFlags := r.2 }) })
    let s := { s with st0 := deliverGen n key b.ag r s.st0, st1 := deliverGen n key b.ag r s.st1 }
    modDev s (fun d => { d with ctxlive := d.ctxlive.map (fun x =>
      if x.launch == n && x.barGen == some (key, b.ag) then { x with barRes := some r } else x) })

/-- BARRIER_NODE_COMPLETE (R300, R303). -/
def execBarrierNodeComplete (launch shape : Nat) (others : List (Nat × Option Nat × Word)) (s : State) :
    Host.Outcome State Fault Refusal := .next (nodeComplete launch shape others s)

/-! ## Counters (R305, R306) -/

/-- CWAIT: it waits until the counter, read at home, reaches G[B]; then it is an acquire (R305, R306). Its first read has to be at
hand; one that finds the counter uncorrectable ends the wait (R444). -/
def opCwait (d a b : Reg) (off : BitVec 14) : OpM := fun x s0 => do
  let ea ← effAddr (gr x a) off.toInt
  let (pa, s) ← counterHome .ld ea s0
  let v := homeWord (seen s) .dev pa
  let (lost, s) ← inHand false s (askHome .dev pa s)
  let clear (s : State) : State := modCur s (fun c => { c with cw := none })
  if lost || lineUe s .dev pa 8 then pendG s0 (clear s) d 0 true ea
  else if v.toNat ≥ grN x b then pendG s0 (dropPath0 (clear s)) d v false ea
  else stallWith (fun s => modCur s (fun c => { c with cw := some (pa, gr x b) }))
def execCwait (q : Guard) (d a b : Reg) (off : BitVec 14) (s : State) : Host.Outcome State Fault Refusal :=
  issueOne .c q (opCwait d a b off) s

/-- The CWAIT that a stream waits in is satisfied. -/
def cwaitMet (s : State) (c : Stream) : Bool :=
  match c.cw with
  | none => false
  | some (pa, t) => lineUe s .dev pa 8 || decide ((homeWord s .dev pa).toNat ≥ t.toNat)

/-- CWAIT_SATISFIED: the waiting stream goes on, and the clean path 0x0 lines are dropped, as an acquire does (R130,
R139). -/
def execCwaitSatisfied (b : Bool) (s : State) : Host.Outcome State Fault Refusal :=
  .next (if cwaitMet s (strm s b) then
    dropPath0 (setStrm s b { strm s b with status := if (strm s b).status == .stalled then .running else (strm s b).status })
  else s)

/-- CREAD (R305). -/
def opCread (d a : Reg) (off : BitVec 14) : OpM := fun x s0 => do
  let ea ← effAddr (gr x a) off.toInt
  let (pa, s) ← counterHome .ld ea s0
  pendG s0 (askHome .dev pa (dropLine (pa / 128) s)) d (homeWord (seen s) .dev pa) (lineUe s .dev pa 8) ea
def execCread (q : Guard) (d a : Reg) (off : BitVec 14) (s : State) : Host.Outcome State Fault Refusal :=
  issueOne .c q (opCread d a off) s

/-- CADD (R144, R305, R306): performed when the counter's line is at hand, and not where it is uncorrectable (R444). -/
def opCadd (d a b : Reg) (off : BitVec 14) : OpM := fun x s0 => do
  notProv x
  let ea ← effAddr (gr x a) off.toInt
  let (pa, s) ← counterHome .amo ea s0
  let s ← release s
  let (lost, s) ← inHand false s (askHome .dev pa (dropLine (pa / 128) s))
  if lost || lineUe s .dev pa 8 then pendG s0 s d 0 true ea
  else
    let n := grN x b
    let v := homeWord s .dev pa
    pendG s0 (putWord (if pathOf ea = 0 then overtakeBuf pa 8 s else s) .dev pa (counterAdd v (n % 2 ^ 63) (bit n 63))) d v false ea
def execCadd (q : Guard) (d a b : Reg) (off : BitVec 14) (s : State) : Host.Outcome State Fault Refusal :=
  issueOne .c q (opCadd d a b off) s

/-! ## Work queues and join counters (R307 to R311) -/

/-- The queue that G[A] names, of the issuer's partition (R311). -/
def queueArg (x : OpCtx) (a : Reg) : Except (Stop State) Nat := do
  let q := grN x a
  need (decide (q ≤ 255) && queueShare x.rd (partOf x.rd (cur x.rd)) q) .queueBad
  return q

/-- The row that a queue op names, in the task's window. -/
def rowArg (x : OpCtx) (m : Mrf) : Except (Stop State) Nat := do
  idxCheck (cur x.rd) (mrfIdx m)
  return mrfIdx m

/-- Word k of the record that a row holds (R308). -/
def rowWord (s : State) (row k : Nat) : Word := w64 (laneN s row (2 * k) + laneN s row (2 * k + 1) * 2 ^ 32)

/-- WQENQ (R308, R311). -/
def opWqenq (m : Mrf) (d a : Reg) : OpM := fun x s => do
  notProv x
  let q ← queueArg x a
  let row ← rowArg x m
  let w (k : Nat) : Word := rowWord x.rd row k
  let n := recLaunch (w 3)
  let l := launchOf s n
  need (liveLaunch l && l.part == partOf x.rd (cur x.rd)) .badRecord
  need ((queueOf s q).mailbox || (queueOf s q).bound == some n) .badRecord
  waitFor (!queueFull (queueOf s q))
  let s ← release s
  pendG s (enqueue q (w 0) (w 1) (w 2) (w 3) true s) d (nextRef s q) false 0
def execWqenq (q : Guard) (m : Mrf) (d a : Reg) (s : State) : Host.Outcome State Fault Refusal :=
  issueOne .c q (opWqenq m d a) s

/-- The record that WQDEQ or WQPEEK answers: the first of the first 128 whose JOIN is 0 (R309). -/
def mailHead (k : Queue) : Option QEntry := ((queueRecs k).take 128).find? (fun e => recJoin e.w0 == 0)

/-- The lanes of a record as a row holds it, zeros above lane 7 (R309). -/
def recLanes (e : QEntry) : List Lane :=
  [e.w0, e.w1, e.w2, e.w3].flatMap (fun (w : Word) => [w.setWidth 32, (w >>> 32).setWidth 32]) ++ List.replicate 24 0

/-- The answer of WQDEQ and WQPEEK on its way (R309). -/
def mailAnswer (q row : Nat) (d : Reg) (e : QEntry) (s : State) : Except (Stop State) State :=
  addPend s s { gdst := if d = 0 then [] else [(d.toNat, w64 (e.serial * 256 + q))],
                mdst := pendLanes 0 row ((List.range 32).zip (recLanes e)) }

/-- The record that WQDEQ or WQPEEK finds in the machine as the stream reads it, where no other has taken it in this cycle (R234,
R309). -/
def mailFind (s : State) (q : Nat) : Option QEntry :=
  match s.late with
  | none => mailHead (queueOf s q)
  | some _ => ((queueRecs (queueOf s q)).take 128).find? (fun e => recJoin e.w0 == 0 && (queueOf (seen s) q).entries.contains e)

/-- WQDEQ (R309). -/
def opWqdeq (m : Mrf) (d a : Reg) : OpM := fun x s => do
  notProv x
  let q ← queueArg x a
  let row ← rowArg x m
  need (queueOf s q).mailbox .queueBad
  match mailFind s q with
  | none => pendG s s d (-1) false 0
  | some e =>
    let s := modQueue s q (fun k => { k with entries := k.entries.erase e })
    mailAnswer q row d e (dropPath0 s)
def execWqdeq (q : Guard) (m : Mrf) (d a : Reg) (s : State) : Host.Outcome State Fault Refusal :=
  issueOne .c q (opWqdeq m d a) s

/-- WQPEEK (R309). -/
def opWqpeek (m : Mrf) (d a : Reg) : OpM := fun x s => do
  let q ← queueArg x a
  let row ← rowArg x m
  need (queueOf s q).mailbox .queueBad
  match mailFind s q with
  | none => pendG s s d (-1) false 0
  | some e => mailAnswer q row d e s
def execWqpeek (q : Guard) (m : Mrf) (d a : Reg) (s : State) : Host.Outcome State Fault Refusal :=
  issueOne .c q (opWqpeek m d a) s

/-- The record of a tile of a launch with JOIN above 0, the oldest of a queue. -/
def tileRec (n tile : Nat) (k : Queue) : Option QEntry :=
  (queueRecs k).find? (fun e => recLaunch e.w3 == n && tile48 e.w1 e.w2 == tile && recJoin e.w0 != 0)

/-- The older of two records by the order of their enqueues. -/
def olderRec (a b : Option (Nat × QEntry)) : Option (Nat × QEntry) :=
  match a, b with
  | some x, some y => if y.2.order < x.2.order then b else a
  | none, b => b
  | a, none => a

/-- The record that a reference names, with its queue (R307): form 0 the newest of a queue with that serial, form 1 the
oldest of a tile of the issuer's launch with JOIN above 0, in whichever queue it waits. -/
def refRec (s : State) (c : Stream) (v : Nat) : Option (Nat × QEntry) :=
  if bit v 63 then
    if bits v 62 48 != 0 then none
    else
      s.dev.queues.foldl (fun r x => olderRec r ((tileRec c.launch (bits v 47 0) x.2).map (fun e => (x.1, e)))) none
  else if bits v 62 32 != 0 then none
  else ((queueRecs (queueOf s (v % 256))).reverse.find? (fun e => e.serial == bits v 31 8)).map (fun e => (v % 256, e))

/-- The reference names a record outside the task's launch, or one of another tile (R190, R307). -/
def jdecAway (s : State) (c : Stream) (v : Nat) : Bool :=
  if bit v 63 then bits v 62 48 == 0 && bits v 47 0 != tile48 c.r1 c.r2
  else match refRec s c v with
    | some (_, e) => !(recLaunch e.w3 == c.launch && tile48 e.w1 e.w2 == tile48 c.r1 c.r2)
    | none => false

/-- The record that JDEC finds, as it is now: what the machine as the stream reads it has there, where it is still there (R234,
R236). -/
def jdecFind (s : State) (c : Stream) (v : Nat) : Option (Nat × QEntry) :=
  match s.late with
  | none => refRec s c v
  | some _ => (refRec (seen s) c v).bind (fun r => ((queueOf s r.1).entries.find? (fun e => e.order == r.2.order)).map (fun e => (r.1, e)))

/-- JDEC (R49, R190, R310, R311): a provisional task decrements only records of its own tile and publishes nothing. -/
def opJdec (d a : Reg) : OpM := fun x s => do
  let c := cur x.rd
  let v := grN x a
  waitFor (!(c.prov && jdecAway (seen s) c v))
  if !bit v 63 && bits v 62 32 == 0 then need (queueShare x.rd (partOf x.rd c) (v % 256)) .queueBad
  match jdecFind s c v with
  | none => faultWith .joinUnderflow
  | some (q, e) =>
    need (recJoin e.w0 != 0) .joinUnderflow
    let s ← if c.prov then pure s else release s
    let e' : QEntry := { e with w0 := e.w0 - 1, released := true }
    let s := modQueue s q (fun k => { k with entries := k.entries.replace e e' })
    pendG s s d (w64 (recJoin e'.w0)) false 0
def execJdec (q : Guard) (d a : Reg) (s : State) : Host.Outcome State Fault Refusal := issueOne .c q (opJdec d a) s

end Sys2Proof.Machine
end

