-- ==== Sys2Proof/Machine/Tap.lean ====
section
/-!
DEFINITION. Tap points and shapes (R173 to R199, R397 to R400): TAPX, TAPQ, SHRES, SHPRD, the comparison at a phase
boundary, shape resolution and settlement.
-/

namespace Sys2Proof.Machine

/-! ## The tap table (R173) -/

/-- A table of a partition in one of its two live versions (R467): the number of the version v of partition p's table. -/
def tableNo (part ver : Nat) : Nat := part + 16 * ver

/-- The versions of the tap, steering and SPT tables that a launch started with. -/
def tapTab (l : Launch) : Nat := tableNo l.part l.tapVer
def steerTab (l : Launch) : Nat := tableNo l.part l.steerVer
def sptTab (l : Launch) : Nat := tableNo l.part l.sptVer

/-- Word w of a point of a tap table. -/
def tapWord (s : State) (tab p w : Nat) : Nat := (rget 0 s.dev.tap ((64 * tab + p) * 20 + w)).toNat

/-- Word w of an entry of a steering table. -/
def steerWord (s : State) (tab e w : Nat) : Nat := (rget 0 s.dev.steer ((64 * tab + e) * 2 + w)).toNat

def tapEn (s : State) (tab p : Nat) : Bool := bit (tapWord s tab p 0) 63
def tapStage (s : State) (tab p : Nat) : Bool := bit (tapWord s tab p 0) 62
def tapAct (s : State) (tab p : Nat) : Nat := bits (tapWord s tab p 0) 61 60
def tapNprb (s : State) (tab p : Nat) : Nat := bits (tapWord s tab p 0) 59 56
def tapHid (s : State) (tab p : Nat) : Nat := bits (tapWord s tab p 0) 55 36

/-- The launch's operator record declares the point (R176, R469). -/
def tapDeclared (l : Launch) (p : Nat) : Bool := bit (opWord l 9) p

/-- The key of a probe in a launch's partial buffer, and in the arm states of a partition (R178, R182). -/
def tapKey (n point slot k : Nat) : Nat := 2 ^ 21 * n + 2 ^ 15 * point + 8 * slot + k

/-! ## TAPX (R176 to R180, R397) -/

/-- The card fields of TAPX. -/
structure TapCard where
  map : Nat
  count : Nat
  first : Nat
  bf : Bool
  stage : Bool
  point : Nat
  len : Nat
  off : Nat
  deriving DecidableEq, Repr

/-- The fields of CW0 and CW1. -/
def tapCard (w0 w1 : Nat) : TapCard :=
  ⟨bits w0 35 25, bits w0 24 19, bits w0 18 8, bit w0 7, bit w0 6, bits w0 5 0, bits w1 26 20, bits w1 19 0⟩

/-- The ranges of R397. -/
def tapFieldsOk (w0 w1 : Nat) : Bool :=
  let t := tapCard w0 w1
  bits w0 63 36 == 0 && bits w1 63 27 == 0 && decide (t.map ≤ 1535) && decide (1 ≤ t.count) && decide (t.count ≤ 32) &&
  decide (t.first + t.count ≤ 1536) && decide (1 ≤ t.len) && decide (t.len ≤ if t.bf then 64 else 32) && decide (t.off ≤ 2 ^ 20 - 2)

/-- The slot of a row of the slot map, where the row is valid (R176). -/
def tapSlot (s : State) (t : TapCard) (i : Nat) : Option Nat :=
  let v := laneN s t.map i
  if bit v 31 then some (v % 4096) else none

/-- The keys that a TAPX adds to. -/
def tapKeys (s : State) (n nprb : Nat) (t : TapCard) : List Nat :=
  (List.range t.count).flatMap (fun i => match tapSlot s t i with
    | some q => (List.range nprb).map (fun k => tapKey n t.point q k)
    | none => [])

/-- Keys of a launch in the partial buffer. -/
def launchKeys (s : State) (n : Nat) : List Nat := (s.gv.tapbuf.map (fun e => e.1)).filter (fun k => k / 2 ^ 21 == n)

/-- The points that a launch has presented in this phase, on this Grove or another. -/
def presented (l : Launch) : List Nat := (l.nowPres ++ l.farPres).eraseDups

/-- The launch may present the point in this phase: at most four distinct points (R180). -/
def mayPresent (l : Launch) (p : Nat) : Bool := decide (p ∈ presented l) || decide ((presented l).length < 4)

/-- The partial buffer cannot take the presentation, or it is that of a fifth point (R180). -/
def tapFullFor (s : State) (n : Nat) (l : Launch) (ks : List Nat) (p : Nat) : Bool :=
  let new := (ks.filter (fun k => decide (k ∉ launchKeys s n))).eraseDups
  decide ((launchKeys s n).length + new.length > 1024) || !mayPresent l p

/-- Segments of a vector read with the authority of the tap table (R174, R431), at home, and the address of the first that is
uncorrectable. -/
def tapSegs : List (Nat × Nat) → State → Except (Stop State) (List Byte × Option Nat × State)
  | [], s => .ok ([], none, s)
  | (a, n) :: r, s => do
    let ((sp, pa, _), s) ← xlateOp .tap a s
    let here := homeBytes (seen s) sp pa n
    let t := askHome sp pa s
    let (bs, ue, u) ← tapSegs r t
    return (here ++ bs, if lineUe s sp pa n || metLost s t then some a else ue, u)

/-- n FP32 elements of a probe or steering vector from element o. -/
def tapVector (base o n : Nat) (s : State) : Except (Stop State) (List Nat × State) := do
  let a := base + 4 * o
  addrCheck .ld a (4 * n)
  let (bs, ue, t) ← tapSegs (segsOf a (4 * n)) s
  let (_, t) ← inHand false s t
  match ue with
  | some a => faultWith .memUe 0 (w64 a)
  | none => pure ()
  let s ← keepAsks s t
  return ((List.range n).map (numAt 4 bs), s)

/-- The probe and steering vectors that a TAPX needs. -/
def tapVectors (base : Nat → Nat) (o n : Nat) : List Nat → State → Except (Stop State) (List (List Nat) × State)
  | [], s => .ok ([], s)
  | k :: r, s => do
    let (v, s) ← tapVector (base k) o n s
    let (vs, s) ← tapVectors base o n r s
    return (v :: vs, s)

/-- The residual elements of a row: BF16 or FP32 codes (R176). -/
def residual (bf : Bool) (ls : List Lane) : List Nat := if bf then unpack 16 ls else ls.map (fun l => l.toNat)

/-- The format of a residual. -/
def resFmt (bf : Bool) : Fmt := if bf then fBF16 else fFP32

/-- The first NaN among values with their payload widths, as a code of a format, its top mantissa bit set (R154). -/
def nanInto (f : Fmt) : List (Nat × XV) → Option Nat
  | [] => none
  | (m, .nan s p) :: _ => some (quietCode f (cvtTo m (.flt f) (.nan s p)).1)
  | _ :: r => nanInto f r

/-- One partial: RNE_E8M31 of the exact sum of products, and NANIN (R178). -/
def tapPartial (bf : Bool) (row pv : List Nat) : Nat × Nat :=
  let f := resFmt bf
  let prs := (row.map (decF f)).zip (pv.map f32)
  match nanInto fE8M31 (prs.flatMap (fun p => [(f.M, p.1), (23, p.2)])) with
  | some c => (c, fNANIN)
  | none =>
    let ps := prs.map (fun p => xmul p.1 p.2)
    if ps.any (fun p => p.isNone) then (canonNan fE8M31, 0)
    else ((rneX fE8M31 (xsumAll (ps.map (fun p => p.getD (.fin false 0 0))))).1, 0)
where
  /-- An exact sum; none for ∞ − ∞. -/
  xsumAll : List XV → Option XV
    | [] => some (.fin false 0 0)
    | v :: r => r.foldl (fun a t => match a with | none => none | some u => xadd u t) (some v)

/-- A partial added into the buffer under its key (R178). -/
def addPartial (key part : Nat) (s : State) : State :=
  let old := match s.gv.tapbuf.find? (fun e => e.1 == key) with | some e => e.2.toNat | none => 0
  let v := (fAdd fE8M31 old part).1
  modGv s (fun g => { g with tapbuf := rins (rdel g.tapbuf key) key (BitVec.ofNat 40 v) })

/-- One steered element: RNE into T of row + α × S, exact inside (R178). -/
def steerElem (bf : Bool) (r alpha sv : Nat) : Nat × Nat :=
  let f := resFmt bf
  match nanInto f [(f.M, decF f r), (23, f32 alpha), (23, f32 sv)] with
  | some c => (c, fNANIN)
  | none => rneX f (match xmul (f32 alpha) (f32 sv) with | none => none | some p => xadd (decF f r) p)

/-- The probes of one valid row. -/
def probeRow (n : Nat) (t : TapCard) (slot : Nat) (row : List Nat) : List (Nat × List Nat) → State → State
  | [], s => s
  | (k, pv) :: r, s =>
    let p := tapPartial t.bf (row.take t.len) pv
    probeRow n t slot row r (raise (w64 p.2) (addPartial (tapKey n t.point slot k) p.1 s))

/-- The steering entry of a slot (R175). -/
def slotEntry (s : State) (q : Nat) : Option Nat := match rget 0 s.dev.slotSteer q with | 0 => none | e + 1 => some e

/-- One valid row steered, or its refusal counted (R175, R178). A selection that STEERMASK does not allow is counted for a
HELD slot too, whose steering would be skipped in any case: DESIGN CHOICE, notes/assumptions/66.md. -/
def steerRow (x : OpCtx) (tab : Nat) (t : TapCard) (vecs : List (Nat × List Nat)) (i slot : Nat) (s : State) : State :=
  match slotEntry s slot with
  | none => s
  | some e =>
    if !bit (tapWord s tab t.point 1) e then
      modDev s (fun d => { d with refuse := rmod 0 d.refuse (64 * (tab % 16) + t.point) (fun c => satAdd (2 ^ 32 - 1) c 1) })
    else if bit (slotWord s slot 0).toNat 29 then s
    else
      match vecs.find? (fun v => v.1 == e) with
      | none => s
      | some v =>
        let old := residual t.bf (mrfRow x.rd (t.first + i))
        let alpha := (rget 0 s.dev.slotAlpha slot).toNat
        let new := ((old.take t.len).zip v.2).map (fun p => steerElem t.bf p.1 alpha p.2)
        let s := setRow s (t.first + i) (pack (if t.bf then 16 else 32) (new.map (fun e => e.1) ++ old.drop t.len))
        raise (w64 (new.foldl (fun a e => a ||| e.2) 0)) s

/-- An acting TAPX whose vectors have arrived (R178). -/
def tapAct1 (x : OpCtx) (n tab : Nat) (t : TapCard) (probes steers : List (Nat × List Nat)) (s : State) : State :=
  let rows := (List.range t.count).filterMap (fun i => (tapSlot x.rd t i).map (fun q => (i, q)))
  let s := rows.foldl (fun s r => probeRow n t r.2 (residual t.bf (mrfRow x.rd (t.first + r.1))) probes s) s
  let s := rows.foldl (fun s r => steerRow x tab t steers r.1 r.2 s) s
  modLaunch s n (fun l => { l with
    nowPres := if t.point ∈ l.nowPres then l.nowPres else t.point :: l.nowPres
    everPres := if t.point ∈ l.everPres then l.everPres else t.point :: l.everPres })

/-- TAPX: the checks of R177 in their order, then R178. -/
def opTapx (gb : Reg) : OpM := fun x s => do
  notProv x
  let c := cur x.rd
  let w0 := (gRead c gb.toNat).toNat
  let w1 := (gRead c (gb.toNat + 1)).toNat
  let t := tapCard w0 w1
  let n := c.launch
  let l := launchOf s n
  let tab := tapTab l
  need (tapFieldsOk w0 w1) .tapRange
  need (tapDeclared l t.point) .tapUndeclared
  if !tapEn s tab t.point || tapStage s tab t.point != t.stage then return s
  else
    let hid := tapHid s tab t.point
    need (decide (t.off + t.len ≤ hid)) .tapRange
    idxCheck c t.map
    idxCheck c t.first
    idxCheck c (t.first + t.count - 1)
    need (!hasArrived s l) .tapLate
    let np := tapNprb s tab t.point
    need (!tapFullFor s n l (tapKeys x.rd n np t) t.point) .tapFull
    let (pv, s) ← tapVectors (fun k => tapWord s tab t.point (4 + 2 * k)) t.off t.len (List.range np) s
    let es := ((List.range t.count).filterMap (fun i => (tapSlot x.rd t i).bind (fun q =>
      if bit (slotWord s q 0).toNat 29 then none else (slotEntry s q).filter (bit (tapWord s tab t.point 1))))).eraseDups
    let (sv, s) ← tapVectors (fun e => steerWord s (steerTab l) e 0) t.off t.len es s
    return tapAct1 x n tab t ((List.range np).zip pv) (es.zip sv) s
def execTapx (q : Guard) (gb : Reg) (s : State) : Host.Outcome State Fault Refusal := issueOne .c q (opTapx gb) s

/-- TAPQ (R398). -/
def opTapq (d a : Reg) : OpM := fun x s => do
  let v := grN x a
  need (decide (v < 64)) .illegalEnc
  let c := cur x.rd
  let l := launchOf x.rd c.launch
  let p := tapTab l
  return setG s d (w64 ((tapEn x.rd p v).toNat * 2 ^ 63 + (tapDeclared l v).toNat * 2 ^ 62 + (tapStage x.rd p v).toNat * 2 ^ 61 +
    (decide (v ∈ l.nowPres)).toNat * 2 ^ 60 + tapNprb x.rd p v * 2 ^ 56 + rget 0 x.rd.dev.refuse (64 * (p % 16) + v)))
def execTapq (q : Guard) (d a : Reg) (s : State) : Host.Outcome State Fault Refusal := issueOne .c q (opTapq d a) s

/-! ## Shape words (R185, R186, R399, R400) -/

/-- Stores of a stream that have been published but wait for a job (R127). -/
def storesWait (s : State) (b : Bool) : Bool := s.gv.wbuf.any (fun e => e.pub && ofStream b e)

/-- The oldest SHRES write whose stream's stores are all at home. -/
def shresReady (s : State) : Option ShapeWrite := s.gv.shres.find? (fun w => !storesWait s w.strm)

/-- That write performed at home (R186, R399); what the Grove's L1 holds of the line is dropped, as by an atomic. -/
def shresPerform (s : State) : State :=
  match shresReady s with
  | some w => putWord (dropLine (w.pa / 128) (modGv s (fun g => { g with shres := g.shres.erase w }))) .dev w.pa w.val
  | none => s

/-- SHRES (R186, R399): the bundle commits without waiting; the word is written as a release, once the stream's stores
are at home. The writes are performed one by one, and after each the launches are tested against it. -/
def opShres (gb : Reg) : OpM := fun x s => do
  notProv x
  let c := cur x.rd
  let a := (gRead c gb.toNat).toNat
  let v := gRead c (gb.toNat + 1)
  let (pa, s) ← counterHome .st a s
  need (bits v.toNat 31 25 == 0) .shapeWord
  let s := publish (ofStream s.sel) s
  let s := if pathOf a = 0 then overtakeBuf pa 8 s else s
  return modGv s (fun g => { g with shres := g.shres ++ [{ strm := s.sel, pa := pa, val := v, asid := c.asid, va := lowOf a }] })
def execShres (q : Guard) (gb : Reg) (s : State) : Host.Outcome State Fault Refusal := issueOne .c q (opShres gb) s

/-- The word of SHPRD (R186, R400). -/
def shprdWord (l : Launch) : Word :=
  if !l.shaped then w64 (2 ^ 63 + gridTiles l % 2 ^ 25 * 2 ^ 32 + gridTiles l % 2 ^ 25)
  else if l.resolved then w64 (2 ^ 63 + l.ext % 2 ^ 25 * 2 ^ 32 + l.pred % 2 ^ 25)
  else w64 (l.pred % 2 ^ 25)

/-- SHPRD (R400). -/
def opShprd (d : Reg) : OpM := fun x s => .ok (setG s d (shprdWord (launchOf x.rd (cur x.rd).launch)))
def execShprd (q : Guard) (d : Reg) (s : State) : Host.Outcome State Fault Refusal := issueOne .c q (opShprd d) s

/-! ## Comparison (R181 to R183) -/

/-- The tree's sum of a key over a node (R181); fuel a + b. -/
def tapTree (leaf : Nat → Nat) : Nat → Node → Nat
  | 0, n => leaf (n.x + 16 * n.y)
  | fuel + 1, n =>
    if n.a = 0 ∧ n.b = 0 then leaf (n.x + 16 * n.y)
    else
      let (p, q) : Node × Node :=
        if n.a > n.b then (⟨n.x, n.y, n.a - 1, n.b⟩, ⟨n.x + 2 ^ (n.a - 1), n.y, n.a - 1, n.b⟩)
        else (⟨n.x, n.y, n.a, n.b - 1⟩, ⟨n.x, n.y + 2 ^ (n.b - 1), n.a, n.b - 1⟩)
      (fAdd fE8M31 (tapTree leaf fuel p) (tapTree leaf fuel q)).1

/-- A probe value against THR and HYST: crossing, and the arm state FIRED afterwards (R182). -/
def tapArm (fired : Bool) (v w5 : Nat) : Bool × Bool :=
  let x := decF fE8M31 v
  let thr := f32 (bits w5 63 32)
  let hy := f32 (bits w5 30 0)
  let down := bit w5 31
  let above (a b : XV) : Bool := xcmp a b == (if down then Ordering.lt else Ordering.gt)
  if !fired then
    let cross := x.isNan || above x thr
    (cross, cross)
  else if x.isNan then (false, true)
  else
    let back := (xadd thr (if down then hy else xneg hy)).getD thr
    (false, !(xcmp x back == (if down then Ordering.gt else Ordering.lt)))

/-- The words of a TAP event record after SEQ (R480). -/
def tapRecord (s : State) (n tab point slot k v : Nat) : List Word :=
  let act := tapAct s tab point
  [w64 (0x90 * 2 ^ 48 + (decide (act = 1)).toNat * 2 ^ 47 + act * 2 ^ 45 + k * 2 ^ 42 + point * 2 ^ 36 + slot * 2 ^ 24 +
      n * 2 ^ 12 + tab % 16 * 2 ^ 8),
   w64 v,
   w64 (bits (tapWord s tab point 0) 15 0 * 2 ^ 48 + curPhase (launchOf s n) * 2 ^ 32 + bits (slotWord s slot 0).toNat 63 32),
   0, 0, 0, 0]

/-- The keys of one boundary compared in ascending (point, slot, probe) (R182, R183). -/
def compareKeys (n tab : Nat) (val : Nat → Nat) : List Nat → State → State
  | [], s => s
  | key :: r, s =>
    let point := key / 2 ^ 15
    let slot := key / 8 % 4096
    let k := key % 8
    let v := val key
    let arm := 2 ^ 21 * (tab % 16) + key
    let (cross, fired) := tapArm (decide (arm ∈ s.dev.fired)) v (tapWord s tab point (5 + 2 * k))
    let s := modDev s (fun d => { d with
      fired := (if fired then [arm] else []) ++ d.fired.filter (fun a => a != arm) })
    let s := if cross then
        let act := tapAct s tab point
        let s := ringSend (ringKey (tab % 16) 0 0) (tapRecord s n tab point slot k v) s
        if act = 1 || act = 2 then modDev s (fun d => { d with tapActs := d.tapActs ++ [(n, 4096 * act + slot)] }) else s
      else s
    compareKeys n tab val r s

/-- TAP_COMPARE: step 5 of the boundary, with the partials of the other Groves and the points that they presented (R52,
R179, R181). -/
def execTapCompare (launch : Nat) (others : TapTold) (s : State) : Host.Outcome State Fault Refusal :=
  .next (let l := launchOf s launch
    if l.st != .compare then s
    else
      let own := (s.gv.tapbuf.filter (fun e => e.1 / 2 ^ 21 == launch)).map (fun e => (s.gv.id, e.1 % 2 ^ 21, e.2))
      let far := others.partials.filter (fun o => inRect l o.1 && o.1 != s.gv.id && decide (o.2.1 < 2 ^ 21))
      let all := own ++ far
      let keys := all.foldl (fun (m : RMap Nat) o => rins (rdel m o.2.1) o.2.1 0) []
      let node := coverNode l
      let val (key : Nat) : Nat :=
        tapTree (fun g => match all.find? (fun o => o.1 == g && o.2.1 == key) with | some o => o.2.2.toNat | none => 0)
          (node.a + node.b) node
      let s := compareKeys launch (tapTab l) val (keys.map (fun e => e.1)) s
      let s := modGv s (fun g => { g with tapbuf := g.tapbuf.filter (fun e => e.1 / 2 ^ 21 != launch) })
      modLaunch s launch (fun l => { l with
        st := .flip, everPres := (others.shown ++ far.map (fun (o : Nat × Nat × Acc) => o.2.1 / 2 ^ 15) ++ l.everPres).eraseDups }))

/-! ## Resolution (R185, R194, R197) -/

/-- A shape word resolves the launch: SEQ − X is 0 or more as a 32-bit signed difference (R185). -/
def resolves (l : Launch) (w : Word) : Bool :=
  decide ((bits w.toNat 63 32 + 2 ^ 32 - bits (opWord l 8) 31 0) % 2 ^ 32 < 2 ^ 31)

/-- The queued records of a launch trimmed or cleared of PROV (R194). -/
def trimRecs (n : Nat) (l : Launch) (ext : Nat) (es : List QEntry) : List QEntry :=
  (es.filter (fun e => !(recLaunch e.w3 == n && recProv e.w2 && decide (ext ≤ recTile l e.w1 e.w2)))).map (fun e =>
    if recLaunch e.w3 == n then { e with w2 := withField e.w2 3 1 0 } else e)

/-- A kept task is no longer provisional. -/
def unprov (c : Stream) : Stream := { c with prov := false, r2 := withField c.r2 3 1 0 }

/-- A provisional task in a stream at resolution: stopped if surplus, released if kept (R194). -/
def resolveStream (n ext : Nat) (b : Bool) (s : State) : State :=
  let c := strm s b
  if hasTask c && c.launch == n && c.prov then
    (if ext ≤ tileOf s c then endTask b s else setStrm s b (unprov c))
  else s

/-- Held tasks at resolution: a surplus one's fault is discarded and counted, a kept one waits for its save (R192). -/
def resolveHeld (n ext : Nat) (s : State) : State :=
  let gone := s.gv.heldTasks.filter (fun c => c.launch == n && c.prov && decide (ext ≤ tileOf s c))
  let s' := gone.foldl (fun s c => giveBack c s) s
  let s' := modLaunch s' n (fun l => { l with squashed := l.squashed + gone.length })
  let kept := (s'.gv.heldTasks.filter (fun c => !(c.launch == n && c.prov && decide (ext ≤ tileOf s c)))).map
    (fun c => if c.launch == n then unprov c else c)
  modGv s' (fun g => { g with heldTasks := kept })

/-- Saved provisional tasks at resolution. -/
def resolveSaved (n ext : Nat) (s : State) : State :=
  let gone (x : SavedCtx) : Bool := x.launch == n && x.prov && decide (ext ≤ x.tile)
  let s' := (s.dev.ctxlive.filter gone).foldl (fun s x =>
    dropRefs x.r2 (releaseBanks x.task (freeHandles (isTaskHandle x.task) s))) s
  modDev s' (fun d => { d with
    queues := d.queues.map (fun q => (q.1, { q.2 with entries := q.2.entries.filter (fun e =>
      !(match entryCtx s e with | some x => gone x | none => false)) }))
    ctxlive := (d.ctxlive.filter (fun x => !gone x)).map (fun x =>
      if x.launch == n then { x with prov := false, r2 := withField x.r2 3 1 0 } else x) })

/-- Provisional tasks on other Groves at resolution (R194). -/
def resolveAway (n ext : Nat) (s : State) : State :=
  modDev (endAway (fun a => a.launch == n && a.prov && decide (ext ≤ a.tile)) s) (fun d => { d with
    away := d.away.map (fun a => if a.launch == n then { a with prov := false } else a) })

/-- Buffered stores of kept tiles become visible, and are published at settlement (R126, R127). -/
def resolveStores (n ext : Nat) (s : State) : State :=
  modGv s (fun g => { g with wbuf := g.wbuf.map (fun e =>
    if e.launch == n && e.prov && decide (e.tile < ext) then { e with prov := false, late := true } else e) })

/-- The handles that provisional tasks of a launch allocated: a surplus tile's are freed, whatever their lifetime (R98). -/
def resolveHandles (n ext : Nat) (s : State) : State :=
  let s := freeHandles (fun h => h.prov && h.launch == n && decide (ext ≤ h.tile)) s
  modGv s (fun g => { g with handles := g.handles.map (fun x => (x.1, if x.2.launch == n then { x.2 with prov := false } else x.2)) })

/-- The resolution of a launch with an extent (R194): SHAPE_BAD and a clamp above the grid (R197). The records that the
trim lets into a window meet its checks (R27, R34). -/
def resolveLaunch (n extent : Nat) (s : State) : State :=
  let l := launchOf s n
  let ext := min extent (gridTiles l)
  let s := if extent > gridTiles l then launchCond n .shapeBad s else s
  let s := modDev s (fun d => { d with queues := d.queues.map (fun q => (q.1, { q.2 with entries := trimRecs n l ext q.2.entries })) })
  let s := resolveStream n ext true (resolveStream n ext false s)
  let s := resolveAway n ext (resolveSaved n ext (resolveHeld n ext s))
  let s := resolveHandles n ext (resolveStores n ext (resolveJobs n (fun t => decide (t < ext)) s))
  let s := modLaunch s n (fun l => { l with resolved := true, settled := false, ext := ext, tileEnd := ext, tileProv := false })
  fillLaunch n (settleAll s)

/-- The launch waits for a shape word that resolves it. -/
def shapeArrived (s : State) (n : Nat) : Bool :=
  let l := launchOf s n
  liveLaunch l && pendingShape l && resolves l (homeWord s .dev l.shapePa)

/-- SHAPE_RESOLUTION: the resolving value has reached home (R185, R194). -/
def execShapeResolution (launch : Nat) (s : State) : Host.Outcome State Fault Refusal :=
  .next (if shapeArrived s launch then resolveLaunch launch (bits (homeWord s .dev (launchOf s launch).shapePa).toNat 24 0) s else s)

/-! ## Settlement (R195, R196) -/

/-- Surplus allocations processed from the highest address down (R195): the top, the holes, their bytes, the rest. -/
def settleArena (ext : Nat) : List (Nat × Nat × Nat) → Nat × Nat × Nat × List (Nat × Nat × Nat) →
    Nat × Nat × Nat × List (Nat × Nat × Nat)
  | [], a => a
  | (st, len, tile) :: r, (top, h, hb, kept) =>
    if tile < ext then settleArena ext r (top, h, hb, (st, len, tile) :: kept)
    else if st + len = top then settleArena ext r (st, h, hb, kept)
    else settleArena ext r (top, h + 1, hb + len, kept)

/-- Word w of an SPT entry (R187). -/
def sptKey (tab e w : Nat) : Nat := (256 * tab + e) * 4 + w
def sptWord (s : State) (tab e w : Nat) : Nat := (rget 0 s.dev.spt (sptKey tab e w)).toNat
def putSpt (tab e w v : Nat) (s : State) : State := modDev s (fun d => { d with spt := rset 0 d.spt (sptKey tab e w) (w64 v) })

/-- The history of an SPT entry moved on by an extent (R196). -/
def sptHistory (tab e ext : Nat) (s : State) : State :=
  let w0 := sptWord s tab e 0
  let w1 := sptWord s tab e 1
  let w2 := sptWord s tab e 2
  let s := putSpt tab e 0 (w0 - w0 % 8 + min 4 (w0 % 8 + 1)) s
  let s := putSpt tab e 2 (bits w2 24 0 * 2 ^ 25 + bits w1 49 25) s
  putSpt tab e 1 (bits w1 24 0 * 2 ^ 25 + ext % 2 ^ 25) s

/-- HIT, OVER or UNDER counted (R187, R196). -/
def sptCount (tab e p ext : Nat) (s : State) : State :=
  let lo := if p = ext then 48 else if p > ext then 32 else 16
  let w := sptWord s tab e 3
  putSpt tab e 3 (withField (w64 w) lo 16 (satAdd 0xFFFF (bits w (lo + 15) lo) 1)).toNat s

/-- The SPT entry of a launch (R469). -/
def opSpt (l : Launch) : Nat := bits (opWord l 8) 39 32

/-- Stores of kept tiles, which settlement publishes. -/
def lateStores (n : Nat) (e : BufByte) : Bool := e.launch == n && e.late

/-- SETTLEMENT: step 4 of the boundary (R52, R195, R196). The SPT entry that is updated is that of the version with which
the operator started, and no other: DESIGN CHOICE, notes/assumptions/67.md. -/
def execSettlement (launch : Nat) (s : State) : Host.Outcome State Fault Refusal :=
  .next (let l := launchOf s launch
    if l.st != .resolve then s
    else if l.settled then modLaunch s launch (fun l => { l with st := .compare })
    else
      let s := publish (lateStores launch) s
      if !published (lateStores launch) s then s
      else
        let s := modGv s (fun g => { g with wbuf := g.wbuf.filter (fun e => !(e.launch == launch && e.prov)) })
        let (top, h, hb, kept) := settleArena l.ext l.allocs.reverse (l.arenaTop, l.holes, l.holeBytes, [])
        let s := sptCount (sptTab l) (opSpt l) l.pred l.ext (sptHistory (sptTab l) (opSpt l) l.ext s)
        modLaunch s launch (fun l => { l with
          arenaTop := top, holes := h, holeBytes := hb, allocs := kept, settled := true, st := .compare }))

end Sys2Proof.Machine
end

