-- ==== Sys2Proof/Machine/Trans.lean ====
section
/-!
DEFINITION. The transcendental references VRCP, VRSQ, VEXP2 and VLOG2 (R168 to R170): coefficient tables in units of
2^-30 computed from the formulas of R169, polynomials evaluated exactly, one rounding at the end.
-/

namespace Sys2Proof.Machine

/-- Table CR of R169, rows 0 to 31. -/
def tabCRPartA : List (Int × Int × Int × Int) := [
  (1065418244, -1057159188, 1048964155, -1040832650),
  (1049152317, -1025125928, 1001649761, -978711217),
  (1033375590, -994526884, 957138655, -921155999),
  (1018066322, -965277698, 915226262, -867770085),
  (1003204040, -937300125, 875725664, -818196241),
  (988769449, -910521507, 838465849, -772112436),
  (974744351, -884874304, 803290149, -729227936),
  (961111563, -860295665, 770054861, -689279875),
  (947854852, -836727041, 738628009, -652030242),
  (934958867, -814113844, 708888245, -617263233),
  (922409084, -792405119, 680723861, -584782914),
  (910191745, -771553267, 654031909, -554411154),
  (898293814, -751513779, 628717410, -525985807),
  (886702926, -732244997, 604692642, -499359085),
  (875407347, -713707901, 581876505, -474396131),
  (864395934, -695865909, 560193939, -450973737),
  (853658096, -678684698, 539575412, -428979209),
  (843183764, -662132035, 519956445, -408309355),
  (832963354, -646177632, 501277194, -388869581),
  (822987745, -630793002, 483482062, -370573077),
  (813248245, -615951334, 466519353, -353340102),
  (803736570, -601627374, 450340958, -337097326),
  (794444818, -587797322, 434902065, -321777250),
  (785365448, -574438728, 420160898, -307317686),
  (776491263, -561530405, 406078485, -293661277),
  (767815383, -549052341, 392618433, -280755081),
  (759331235, -536985625, 379746740, -268550181),
  (751032533, -525312373, 367431605, -257001341),
  (742913262, -514015662, 355643269, -246066694),
  (734967666, -503079472, 344353863, -235707457),
  (727190230, -492488621, 333537267, -225887673),
  (719575673, -482228723, 323168987, -216573981)]

/-- Table CR of R169, rows 32 to 63. -/
def tabCRPartB : List (Int × Int × Int × Int) := [
  (712118930, -472286130, 313226034, -207735401),
  (704815146, -462647891, 303686821, -199343144),
  (697659662, -453301710, 294531060, -191370435),
  (690648007, -444235904, 285739677, -183792355),
  (683775888, -435439371, 277294724, -176585695),
  (677039180, -426901552, 269179304, -169728822),
  (670433919, -418612398, 261377498, -163201559),
  (663956297, -410562348, 253874302, -156985076),
  (657602648, -402742292, 246655566, -151061782),
  (651369448, -395143551, 239707936, -145415241),
  (645253303, -387757853, 233018804, -140030079),
  (639250946, -380577308, 226576258, -134891911),
  (633359233, -373594386, 220369039, -129987267),
  (627575130, -366801902, 214386500, -125303525),
  (621895717, -360192995, 208618567, -120828853),
  (616318177, -353761106, 203055702, -116552152),
  (610839793, -347499971, 197688873, -112463003),
  (605457945, -341403599, 192509518, -108551623),
  (600170102, -335466258, 187509524, -104808817),
  (594973825, -329682466, 182681193, -101225942),
  (589866753, -324046972, 178017220, -97794868),
  (584846611, -318554750, 173510672, -94507941),
  (579911196, -313200984, 169154962, -91357954),
  (575058383, -307981059, 164943831, -88338118),
  (570286114, -302890550, 160871330, -85442034),
  (565592401, -297925215, 156931801, -82663665),
  (560975320, -293080984, 153119861, -79997315),
  (556433010, -288353949, 149430386, -77437609),
  (551963669, -283740360, 145858498, -74979469),
  (547565552, -279236616, 142399549, -72618097),
  (543236970, -274839258, 139049111, -70348957),
  (538976288, -270544960, 135802960, -68167761)]

/-- Table CR of R169. -/
def tabCR : List (Int × Int × Int × Int) :=
  tabCRPartA ++ tabCRPartB

/-- Table CQ of R169, rows 0 to 31. -/
def tabCQPartA : List (Int × Int × Int × Int) := [
  (1069571937, -530640341, 394895137, -326528279),
  (1061375863, -518534773, 379994948, -309410645),
  (1053365364, -506882581, 365870134, -293429681),
  (1045533543, -495660346, 352469580, -278494483),
  (1037873853, -484846180, 339746228, -264522611),
  (1030380081, -474419606, 327656706, -251439199),
  (1023046322, -464361451, 316160988, -239176161),
  (1015866961, -454653745, 305222094, -227671492),
  (1008836655, -445279627, 294805822, -216868651),
  (1001950318, -436223268, 284880501, -206716010),
  (995203101, -427469788, 275416776, -197166372),
  (988590382, -419005195, 266387409, -188176536),
  (982107753, -410816315, 257767100, -179706910),
  (975751001, -402890736, 249532327, -171721171),
  (969516107, -395216757, 241661202, -164185954),
  (963399225, -387783336, 234133335, -157070581),
  (957396679, -380580046, 226929717, -150346810),
  (951504951, -373597036, 220032610, -143988620),
  (945720673, -366824988, 213425448, -137972007),
  (940040618, -360255087, 207092745, -132274807),
  (934461692, -353878984, 201020015, -126876538),
  (928980931, -347688770, 195193695, -121758250),
  (923595489, -341676944, 189601079, -116902399),
  (918302635, -335836392, 184230249, -112292723),
  (913099745, -330160360, 179070026, -107914140),
  (907984300, -324642431, 174109907, -103752645),
  (902953878, -319276509, 169340027, -99795228),
  (898006148, -314056795, 164751105, -96029788),
  (893138870, -308977771, 160334411, -92445066),
  (888349887, -304034186, 156081721, -89030572),
  (883637122, -299221036, 151985288, -85776529),
  (878998575, -294533554, 148037807, -82673819)]

/-- Table CQ of R169, rows 32 to 63. -/
def tabCQPartB : List (Int × Int × Int × Int) := [
  (874432318, -289967194, 144232386, -79713927),
  (869936492, -285517618, 140562520, -76888900),
  (865509306, -281180688, 137022061, -74191302),
  (861149030, -276952452, 133605203, -71614179),
  (856853995, -272829133, 130306451, -69151019),
  (852622592, -268807122, 127120610, -66795723),
  (848453263, -264882970, 124042757, -64542573),
  (844344506, -261053374, 121068231, -62386206),
  (840294869, -257315175, 118192616, -60321590),
  (836302947, -253665349, 115411723, -58343999),
  (832367382, -250100997, 112721576, -56448990),
  (828486860, -246619344, 110118405, -54632387),
  (824660110, -243217728, 107598626, -52890262),
  (820885902, -239893597, 105158837, -51218916),
  (817163045, -236644502, 102795802, -49614867),
  (813490383, -233468092, 100506443, -48074831),
  (809866800, -230362112, 98287834, -46595714),
  (806291212, -227324394, 96137189, -45174597),
  (802762568, -224352857, 94051853, -43808723),
  (799279851, -221445500, 92029299, -42495491),
  (795842072, -218600397, 90067117, -41232442),
  (792448274, -215815700, 88163009, -40017252),
  (789097526, -213089627, 86314786, -38847724),
  (785788926, -210420466, 84520354, -37721776),
  (782521599, -207806566, 82777719, -36637441),
  (779294692, -205246339, 81084973, -35592855),
  (776107379, -202738254, 79440295, -34586251),
  (772958857, -200280838, 77841945, -33615955),
  (769848346, -197872667, 76288257, -32680378),
  (766775087, -195512373, 74777641, -31778015),
  (763738342, -193198632, 73308572, -30907435),
  (760737394, -190930169, 71879593, -30067281)]

/-- Table CQ of R169, rows 64 to 95. -/
def tabCQPartC : List (Int × Int × Int × Int) := [
  (756301570, -187609692, 69808257, -28861295),
  (750506070, -183329727, 67174251, -27348296),
  (744841792, -179210055, 64677313, -25935765),
  (739303858, -175242396, 62308407, -24615667),
  (733887640, -171419011, 60059215, -23380716),
  (728588743, -167732660, 57922070, -22224295),
  (723402992, -164176566, 55889895, -21140386),
  (718326417, -160744373, 53956153, -20123507),
  (713355240, -157430122, 52114799, -19168662),
  (708485864, -154228215, 50360234, -18271287),
  (703714861, -151133393, 48687268, -17427210),
  (699038963, -148140707, 47091086, -16632613),
  (694455052, -145245501, 45567216, -15883997),
  (689960150, -142443386, 44111500, -15178151),
  (685551414, -139730224, 42720069, -14512125),
  (681226125, -137102113, 41389317, -13883209),
  (676981684, -134555366, 40115885, -13288906),
  (672815603, -132086499, 38896638, -12726916),
  (668725501, -129692218, 37728645, -12195118),
  (664709095, -127369407, 36609171, -11691552),
  (660764199, -125115115, 35535654, -11214408),
  (656888716, -122926543, 34505696, -10762011),
  (653080633, -120801042, 33517052, -10332810),
  (649338020, -118736095, 32567615, -9925368),
  (645659022, -116729315, 31655407, -9538353),
  (642041856, -114778432, 30778574, -9170525),
  (638484810, -112881292, 29935370, -8820735),
  (634986237, -111035845, 29124156, -8487914),
  (631544551, -109240139, 28343387, -8171067),
  (628158229, -107492317, 27591611, -7869265),
  (624825801, -105790612, 26867457, -7581646),
  (621545853, -104133337, 26169634, -7307402)]

/-- Table CQ of R169, rows 96 to 127. -/
def tabCQPartD : List (Int × Int × Int × Int) := [
  (618317022, -102518884, 25496925, -7045782),
  (615137993, -100945722, 24848178, -6796083),
  (612007499, -99412386, 24222307, -6557647),
  (608924318, -97917478, 23618286, -6329859),
  (605887270, -96459665, 23035144, -6112144),
  (602895216, -95037670, 22471961, -5903964),
  (599947056, -93650272, 21927869, -5704811),
  (597041726, -92296305, 21402042, -5514214),
  (594178200, -90974653, 20893700, -5331726),
  (591355485, -89684244, 20402103, -5156930),
  (588572620, -88424056, 19926548, -4989433),
  (585828677, -87193105, 19466368, -4828866),
  (583122756, -85990453, 19020930, -4674883),
  (580453988, -84815195, 18589632, -4527155),
  (577821530, -83666466, 18171902, -4385376),
  (575224566, -82543436, 17767197, -4249255),
  (572662306, -81445306, 17374999, -4118518),
  (570133983, -80371310, 16994815, -3992908),
  (567638856, -79320713, 16626176, -3872181),
  (565176202, -78292807, 16268635, -3756106),
  (562745326, -77286912, 15921767, -3644467),
  (560345548, -76302372, 15585165, -3537059),
  (557976212, -75338560, 15258443, -3433686),
  (555636678, -74394869, 14941229, -3334165),
  (553326329, -73470716, 14633172, -3238323),
  (551044561, -72565539, 14333934, -3145994),
  (548790791, -71678797, 14043193, -3057022),
  (546564450, -70809969, 13760642, -2971259),
  (544364986, -69958552, 13485986, -2888565),
  (542191864, -69124062, 13218944, -2808806),
  (540044561, -68306031, 12959247, -2731857),
  (537922570, -67504009, 12706637, -2657597)]

/-- Table CQ of R169. -/
def tabCQ : List (Int × Int × Int × Int) :=
  tabCQPartA ++ tabCQPartB ++ tabCQPartC ++ tabCQPartD

/-- Table CE of R169, rows 0 to 31. -/
def tabCEPartA : List (Int × Int × Int × Int) := [
  (1079572136, 748302382, 259341843, 59920689),
  (1091327906, 756450861, 262165891, 60573183),
  (1103211687, 764688071, 265020690, 61232781),
  (1115224875, 773014978, 267906576, 61899563),
  (1127368878, 781432559, 270823888, 62573605),
  (1139645120, 789941802, 273772966, 63254987),
  (1152055042, 798543704, 276754158, 63943788),
  (1164600099, 807239275, 279767814, 64640090),
  (1177281762, 816029534, 282814285, 65343975),
  (1190101520, 824915513, 285893931, 66055524),
  (1203060876, 833898254, 289007112, 66774822),
  (1216161350, 842978811, 292154193, 67501952),
  (1229404479, 852158248, 295335544, 68237000),
  (1242791816, 861437643, 298551537, 68980052),
  (1256324931, 870818084, 301802550, 69731196),
  (1270005413, 880300671, 305088964, 70490518),
  (1283834865, 889886517, 308411165, 71258110),
  (1297814910, 899576746, 311769543, 72034060),
  (1311947188, 909372494, 315164490, 72818459),
  (1326233356, 919274912, 318596407, 73611400),
  (1340675091, 929285159, 322065694, 74412976),
  (1355274085, 939404411, 325572759, 75223280),
  (1370032052, 949633854, 329118014, 76042408),
  (1384950723, 959974689, 332701875, 76870455),
  (1400031848, 970428128, 336324760, 77707520),
  (1415277195, 980995398, 339987097, 78553699),
  (1430688553, 991677737, 343689314, 79409093),
  (1446267730, 1002476400, 347431845, 80273801),
  (1462016553, 1013392652, 351215130, 81147926),
  (1477936870, 1024427774, 355039612, 82031569),
  (1494030547, 1035583061, 358905740, 82924834),
  (1510299473, 1046859822, 362813967, 83827826)]

/-- Table CE of R169, rows 32 to 63. -/
def tabCEPartB : List (Int × Int × Int × Int) := [
  (1526745556, 1058259378, 366764752, 84740651),
  (1543370725, 1069783067, 370758558, 85663416),
  (1560176931, 1081432241, 374795854, 86596230),
  (1577166143, 1093208266, 378877114, 87539201),
  (1594340357, 1105112523, 383002815, 88492440),
  (1611701585, 1117146410, 387173442, 89456060),
  (1629251865, 1129311336, 391389484, 90430173),
  (1646993254, 1141608731, 395651436, 91414893),
  (1664927835, 1154040035, 399959798, 92410335),
  (1683057710, 1166606707, 404315075, 93416618),
  (1701385007, 1179310221, 408717777, 94433858),
  (1719911875, 1192152067, 413168422, 95462176),
  (1738640488, 1205133752, 417667531, 96501691),
  (1757573041, 1218256798, 422215632, 97552525),
  (1776711757, 1231522745, 426813259, 98614802),
  (1796058879, 1244933148, 431460951, 99688647),
  (1815616678, 1258489581, 436159253, 100774185),
  (1835387448, 1272193635, 440908715, 101871544),
  (1855373507, 1286046915, 445709897, 102980853),
  (1875577199, 1300051048, 450563359, 104102241),
  (1896000896, 1314207675, 455469672, 105235840),
  (1916646992, 1328518459, 460429412, 106381783),
  (1937517909, 1342985076, 465443160, 107540205),
  (1958616096, 1357609225, 470511503, 108711241),
  (1979944027, 1372392620, 475635038, 109895028),
  (2001504204, 1387336996, 480814364, 111091707),
  (2023299156, 1402444105, 486050089, 112301416),
  (2045331439, 1417715720, 491342827, 113524298),
  (2067603638, 1433153632, 496693200, 114760497),
  (2090118366, 1448759652, 502101834, 116010157),
  (2112878262, 1464535610, 507569365, 117273425),
  (2135885998, 1480483358, 513096433, 118550449)]

/-- Table CE of R169. -/
def tabCE : List (Int × Int × Int × Int) :=
  tabCEPartA ++ tabCEPartB

/-- Table CL of R169, rows 0 to 31. -/
def tabCLPartA : List (Int × Int × Int × Int) := [
  (12055174, 1537073617, -762579159, 504445128),
  (35887675, 1513606844, -739472046, 481691714),
  (59359063, 1490845839, -717399502, 460286397),
  (82480119, 1468759234, -696300674, 440130796),
  (105261148, 1447317493, -676119121, 421135024),
  (127712004, 1426492781, -656802432, 403216841),
  (149842124, 1406258841, -638301885, 386300905),
  (171660541, 1386590885, -620572144, 370318110),
  (193175914, 1367465494, -603570977, 355204989),
  (214396548, 1348860521, -587259002, 340903185),
  (235330407, 1330755011, -571599468, 327358979),
  (255985140, 1313129117, -556558036, 314522864),
  (276368092, 1295964030, -542102601, 302349163),
  (296486323, 1279241914, -528203113, 290795692),
  (316346620, 1262945838, -514831424, 279823449),
  (335955515, 1247059727, -501961148, 269396339),
  (355319292, 1231568302, -489567524, 259480924),
  (374444004, 1216457034, -477627302, 250046195),
  (393335482, 1201712101, -466118633, 241063374),
  (411999347, 1187320339, -455020968, 232505724),
  (430441017, 1173269211, -444314967, 224348386),
  (448665721, 1159546764, -433982414, 216568222),
  (466678506, 1146141599, -424006141, 209143684),
  (484484242, 1133042838, -414369952, 202054681),
  (502087636, 1120240094, -405058565, 195282472),
  (519493235, 1107723445, -396057544, 188809556),
  (536705435, 1095483407, -387353249, 182619580),
  (553728485, 1083510910, -378932777, 176697251),
  (570566499, 1071797279, -370783924, 171028260),
  (587223455, 1060334206, -362895129, 165599203),
  (603703206, 1049113739, -355255446, 160397521),
  (620009483, 1038128254, -347854494, 155411432)]

/-- Table CL of R169, rows 32 to 63. -/
def tabCLPartB : List (Int × Int × Int × Int) := [
  (636145900, 1027370449, -340682429, 150629882),
  (652115959, 1016833316, -333729909, 146042490),
  (667923055, 1006510135, -326988064, 141639500),
  (683570481, 996394455, -320448468, 137411738),
  (699061430, 986480083, -314103111, 133350574),
  (714399001, 976761067, -307944376, 129447882),
  (729586201, 967231691, -301965016, 125696007),
  (744625951, 957886457, -296158132, 122087732),
  (759521085, 948720079, -290517154, 118616254),
  (774274358, 939727472, -285035821, 115275150),
  (788888448, 930903740, -279708166, 112058358),
  (803365955, 922244170, -274528497, 108960148),
  (817709409, 913744224, -269491384, 105975106),
  (831921271, 905399528, -264591643, 103098113),
  (846003931, 897205867, -259824323, 100324324),
  (859959719, 889159178, -255184697, 97649152),
  (873790901, 881255540, -250668243, 95068252),
  (887499680, 873491174, -246270639, 92577509),
  (901088206, 865862431, -241987754, 90173020),
  (914558569, 858365786, -237815629, 87851084),
  (927912807, 850997839, -233750480, 85608187),
  (941152905, 843755305, -229788679, 83440995),
  (954280797, 836635007, -225926753, 81346341),
  (967298370, 829633877, -222161373, 79321215),
  (980207461, 822748949, -218489347, 77362756),
  (993009864, 815977352, -214907615, 75468244),
  (1005707329, 809316313, -211413241, 73635088),
  (1018301561, 802763144, -208003406, 71860826),
  (1030794226, 796315247, -204675405, 70143111),
  (1043186948, 789970106, -201426641, 68479708),
  (1055481314, 783725283, -198254617, 66868487),
  (1067678873, 777578418, -195156936, 65307419)]

/-- Table CL of R169. -/
def tabCL : List (Int × Int × Int × Int) :=
  tabCLPartA ++ tabCLPartB

/-- c0 + c1 h + c2 h² + c3 h³ for h = n × 2^-k, as an exact integer in units of 2^-(30 + 3k). -/
def polyAt (c : Int × Int × Int × Int) (n : Int) (k : Nat) : Int :=
  c.1 * 2 ^ (3 * k) + c.2.1 * n * 2 ^ (2 * k) + c.2.2.1 * n ^ 2 * 2 ^ k + c.2.2.2 * n ^ 3

/-- A table row. -/
def tabRow (t : List (Int × Int × Int × Int)) (j : Nat) : Int × Int × Int × Int := t.getD j (0, 0, 0, 0)

/-- v × 2^e as an exact value; a zero is +0. -/
def dyX (v : Int) (e : Int) : XV := .fin (decide (v < 0)) v.natAbs e

/-- A finite non-zero value with its magnitude normalised: m = n × 2^-52 in [1, 2) scaled to n, and e (R168). -/
def decompose (m : Nat) (e : Int) : Nat × Int :=
  let l := m.log2
  (m * 2 ^ (52 - l), e + l)

/-- VRCP (R168, R170): code and flags. -/
def fRcp (c : Nat) : Nat × Nat :=
  match decF fFP32 c with
  | .nan _ _ => (quietCode fFP32 c, fNANIN)
  | .inf s => (signCode fFP32 s, 0)
  | .fin s m e =>
    if m = 0 then (infCode fFP32 s, fDZ)
    else
      let (n, x) := decompose m e
      if n = 2 ^ 52 then rne32 (.fin s 1 (-x))
      else
        let j := (n - 2 ^ 52) / 2 ^ 46
        let h : Int := (n : Int) - (2 ^ 52 + (2 * j + 1) * 2 ^ 45 : Nat)
        rne32 (.fin s (polyAt (tabRow tabCR j) h 52).natAbs (-x - 30 - 156))

/-- VRSQ (R168, R170). -/
def fRsq (c : Nat) : Nat × Nat :=
  match decF fFP32 c with
  | .nan _ _ => (quietCode fFP32 c, fNANIN)
  | .inf s => if s then (canonNan fFP32, fIV) else (0, 0)
  | .fin s m e =>
    if m = 0 then (infCode fFP32 s, fDZ)
    else if s then (canonNan fFP32, fIV)
    else
      let (n0, x) := decompose m e
      let odd := x % 2 == 1
      let n := if odd then 2 * n0 else n0
      let q : Int := if odd then (x - 1) / 2 else x / 2
      if n = 2 ^ 52 then rne32 (.fin false 1 (-q))
      else
        let lowHalf := decide (n < 2 ^ 53)
        let i := if lowHalf then (n - 2 ^ 52) / 2 ^ 46 else 64 + (n - 2 ^ 53) / 2 ^ 47
        let a := if lowHalf then 2 ^ 52 + (2 * i + 1) * 2 ^ 45 else 2 ^ 53 + (2 * (i - 64) + 1) * 2 ^ 46
        rne32 (dyX (polyAt (tabRow tabCQ i) ((n : Int) - (a : Nat)) 52) (-q - 30 - 156))

/-- VEXP2 (R168, R170). Above 2^10 in magnitude the result overflows or vanishes and the exact power is cut there. -/
def fExp2 (c : Nat) : Nat × Nat :=
  match decF fFP32 c with
  | .nan _ _ => (quietCode fFP32 c, fNANIN)
  | .inf s => (if s then 0 else infCode fFP32 false, 0)
  | .fin s m e =>
    if m = 0 then (0x3F800000, 0)
    else
      -- x = v × 2^-e' with e' at least 7, so that the segment midpoint is a multiple of the unit
      let k := max (-e).toNat 7
      let v := scaleTo s m e (-(k : Int))
      let n := v / (2 ^ k : Nat)
      let t := v % (2 ^ k : Nat)
      if n > 200 then (infCode fFP32 false, fOF ||| fNX)
      else if n < -400 then (0, fUF ||| fNX)
      else if t = 0 then rne32 (.fin false 1 n)
      else
        let j := (t * 64 / (2 ^ k : Nat)).toNat
        let h : Int := t - ((2 * j + 1) * 2 ^ (k - 7) : Nat)
        rne32 (dyX (polyAt (tabRow tabCE j) h k) (n - 30 - 3 * k))

/-- VLOG2 (R168, R170). -/
def fLog2 (c : Nat) : Nat × Nat :=
  match decF fFP32 c with
  | .nan _ _ => (quietCode fFP32 c, fNANIN)
  | .inf s => if s then (canonNan fFP32, fIV) else (infCode fFP32 false, 0)
  | .fin s m e =>
    if m = 0 then (infCode fFP32 true, fDZ)
    else if s then (canonNan fFP32, fIV)
    else
      let (n, x) := decompose m e
      if n = 2 ^ 52 then rne32 (dyX x 0)
      else
        let j := (n - 2 ^ 52) / 2 ^ 46
        let h : Int := (n : Int) - (2 ^ 52 + (2 * j + 1) * 2 ^ 45 : Nat)
        rne32 (dyX (x * 2 ^ 186 + polyAt (tabRow tabCL j) h 52) (-186))

end Sys2Proof.Machine
end

