-- ==== Sys2Proof/Machine/Vector.lean ====
section
/-!
DEFINITION. The vector ops (R321 to R350): element-wise arithmetic, compares and selects, conversions, permutes,
reductions and scans, lookups, gather and scatter, the stop-string match, the sampling ops and VSTAT.
-/

namespace Sys2Proof.Machine

/-- An element with the FLAGS bits that forming it raised. -/
abbrev Elem := Nat × Nat

/-- FLAGS bits of a list of elements. -/
def elemFlags (es : List Elem) : Nat := es.foldl (fun a e => a ||| e.2) 0

/-- FLAGS bits raised by an op, given as a number. -/
def raiseN (f : Nat) (s : State) : State := raise (w64 f) s

/-- The elements written to all of D with their flags (R323, R326). -/
def vecWrite (w : Nat) (dst : Nat × Nat) (es : List Elem) (s : State) : State :=
  raiseN (elemFlags es) (putAll s dst (pack w (es.map (fun e => e.1))))

/-- The old elements of D, at the storage width w. -/
def vecOld (x : OpCtx) (w : Nat) (dst : Nat × Nat) : List Nat := unpack w (mrfVec x.rd dst.1 dst.2)

/-- The element width that an op's type makes it expect of a narrow port; BITS expects no format (R82; that every typed op
expects its type's width is DEDUCED, notes/assumptions/76.md). What the read itself raises (PORT_EXHAUSTED, TILE_RANGE, MEM_UE) is
reported before FMT_INVALID (DESIGN CHOICE, notes/assumptions/63.md). -/
def readTyped (x : OpCtx) (ty : VTy) (m : Mrf) (step : Bool) (s : State) : Except (Stop State) (List Lane × State) := do
  let r ← readOpnd x m step s
  if ty != .bits then portExpects (cur x.rd) m (tyWidth ty)
  return r

/-- An op of A alone, element by element. -/
def vecUn (f : Nat → Elem) (ty : VTy) (d a : Mrf) (step : Bool) : OpM := fun x s => do
  let dst ← destOpnd x d step
  let (la, s) ← readTyped x ty a step s
  return vecWrite (tyWidth ty) dst ((unpack (tyWidth ty) la).map f) s

/-- An op of A and B, element by element. -/
def vecBin (f : Nat → Nat → Elem) (ty : VTy) (d a b : Mrf) (step : Bool) : OpM := fun x s => do
  let dst ← destOpnd x d step
  let (la, s) ← readTyped x ty a step s
  let (lb, s) ← readTyped x ty b step s
  return vecWrite (tyWidth ty) dst ((unpack (tyWidth ty) la).zipWith f (unpack (tyWidth ty) lb)) s

/-- An op of the old D and A, element by element. -/
def vecDA (f : Nat → Nat → Elem) (ty : VTy) (d a : Mrf) (step : Bool) : OpM := fun x s => do
  let dst ← destOpnd x d step
  let (la, s) ← readTyped x ty a step s
  return vecWrite (tyWidth ty) dst ((vecOld x (tyWidth ty) dst).zipWith f (unpack (tyWidth ty) la)) s

/-- An op of the old D, A and B, element by element. -/
def vecTri (f : Nat → Nat → Nat → Elem) (ty : VTy) (d a b : Mrf) (step : Bool) : OpM := fun x s => do
  let dst ← destOpnd x d step
  let (la, s) ← readTyped x ty a step s
  let (lb, s) ← readTyped x ty b step s
  let es := ((vecOld x (tyWidth ty) dst).zip ((unpack (tyWidth ty) la).zip (unpack (tyWidth ty) lb))).map (fun e => f e.1 e.2.1 e.2.2)
  return vecWrite (tyWidth ty) dst es s

/-! ## Element arithmetic (R327, R328) -/

/-- a + b at a type. -/
def elAdd (ty : VTy) (a b : Nat) : Elem :=
  match tyOfVTy ty with
  | .flt f => fAdd f a b
  | .int w _ => ((a + b) % 2 ^ w, 0)

/-- a − b at a type. -/
def elSub (ty : VTy) (a b : Nat) : Elem :=
  match tyOfVTy ty with
  | .flt f => fSub f a b
  | .int w _ => ((a + (2 ^ w - b)) % 2 ^ w, 0)

/-- a × b at a type. -/
def elMul (ty : VTy) (a b : Nat) : Elem :=
  match tyOfVTy ty with
  | .flt f => fMul f a b
  | .int w _ => (a * b % 2 ^ w, 0)

/-- d + a × b at a floating type. -/
def elFma (ty : VTy) (d a b : Nat) : Elem :=
  match tyOfVTy ty with
  | .flt f => fFma f a b d
  | .int w _ => ((a * b + d) % 2 ^ w, 0)

/-- d − a × b at a floating type. -/
def elFms (ty : VTy) (d a b : Nat) : Elem :=
  match tyOfVTy ty with
  | .flt f => fFms f a b d
  | .int w _ => ((d + (2 ^ w - a * b % 2 ^ w)) % 2 ^ w, 0)

/-- An integer code as its value at a type's signedness (R328). -/
def elInt (w : Nat) (signed : Bool) (a : Nat) : Int := if signed then sextI a w else (a % 2 ^ w : Nat)

/-- Max at a type. -/
def elMax (ty : VTy) (a b : Nat) : Elem :=
  match tyOfVTy ty with
  | .flt f => fMax f a b
  | .int w sg => (if elInt w sg a < elInt w sg b then b else a, 0)

/-- Min at a type. -/
def elMin (ty : VTy) (a b : Nat) : Elem :=
  match tyOfVTy ty with
  | .flt f => fMin f a b
  | .int w sg => (if elInt w sg b < elInt w sg a then b else a, 0)

/-- |a| at a type. -/
def elAbs (ty : VTy) (a : Nat) : Elem :=
  let w := tyWidth ty
  match tyOfVTy ty with
  | .flt _ => (a % 2 ^ (w - 1), 0)
  | .int _ _ => (if a < 2 ^ (w - 1) then a else (2 ^ w - a) % 2 ^ w, 0)

/-- −a at a type. -/
def elNeg (ty : VTy) (a : Nat) : Elem :=
  let w := tyWidth ty
  match tyOfVTy ty with
  | .flt _ => (if a < 2 ^ (w - 1) then a + 2 ^ (w - 1) else a - 2 ^ (w - 1), 0)
  | .int _ _ => ((2 ^ w - a) % 2 ^ w, 0)

/-- Min(Max(d, a), b) (R327, R328). -/
def elClamp (ty : VTy) (d a b : Nat) : Elem :=
  let m := elMax ty d a
  let r := elMin ty m.1 b
  (r.1, m.2 ||| r.2)

/-- VADD (R327). -/
def opVadd (ty : VTy) (d a b : Mrf) (step : Bool) : OpM := vecBin (elAdd ty) ty d a b step
def execVadd (q : Guard) (ty : VTy) (d a b : Mrf) (step : Bool) (s : State) : Host.Outcome State Fault Refusal :=
  issueOne .v0 q (opVadd ty d a b step) s

/-- VSUB (R327). -/
def opVsub (ty : VTy) (d a b : Mrf) (step : Bool) : OpM := vecBin (elSub ty) ty d a b step
def execVsub (q : Guard) (ty : VTy) (d a b : Mrf) (step : Bool) (s : State) : Host.Outcome State Fault Refusal :=
  issueOne .v0 q (opVsub ty d a b step) s

/-- VMUL (R327). -/
def opVmul (ty : VTy) (d a b : Mrf) (step : Bool) : OpM := vecBin (elMul ty) ty d a b step
def execVmul (q : Guard) (ty : VTy) (d a b : Mrf) (step : Bool) (s : State) : Host.Outcome State Fault Refusal :=
  issueOne .v0 q (opVmul ty d a b step) s

/-- VFMA (R327). -/
def opVfma (ty : VTy) (d a b : Mrf) (step : Bool) : OpM := vecTri (elFma ty) ty d a b step
def execVfma (q : Guard) (ty : VTy) (d a b : Mrf) (step : Bool) (s : State) : Host.Outcome State Fault Refusal :=
  issueOne .v0 q (opVfma ty d a b step) s

/-- VFMS (R327). -/
def opVfms (ty : VTy) (d a b : Mrf) (step : Bool) : OpM := vecTri (elFms ty) ty d a b step
def execVfms (q : Guard) (ty : VTy) (d a b : Mrf) (step : Bool) (s : State) : Host.Outcome State Fault Refusal :=
  issueOne .v0 q (opVfms ty d a b step) s

/-- VMAX (R327, R328). -/
def opVmax (ty : VTy) (d a b : Mrf) (step : Bool) : OpM := vecBin (elMax ty) ty d a b step
def execVmax (q : Guard) (ty : VTy) (d a b : Mrf) (step : Bool) (s : State) : Host.Outcome State Fault Refusal :=
  issueOne .v0 q (opVmax ty d a b step) s

/-- VMIN (R327, R328). -/
def opVmin (ty : VTy) (d a b : Mrf) (step : Bool) : OpM := vecBin (elMin ty) ty d a b step
def execVmin (q : Guard) (ty : VTy) (d a b : Mrf) (step : Bool) (s : State) : Host.Outcome State Fault Refusal :=
  issueOne .v0 q (opVmin ty d a b step) s

/-- VABS (R327). -/
def opVabs (ty : VTy) (d a : Mrf) (step : Bool) : OpM := vecUn (elAbs ty) ty d a step
def execVabs (q : Guard) (ty : VTy) (d a : Mrf) (step : Bool) (s : State) : Host.Outcome State Fault Refusal :=
  issueOne .v0 q (opVabs ty d a step) s

/-- VNEG (R327). -/
def opVneg (ty : VTy) (d a : Mrf) (step : Bool) : OpM := vecUn (elNeg ty) ty d a step
def execVneg (q : Guard) (ty : VTy) (d a : Mrf) (step : Bool) (s : State) : Host.Outcome State Fault Refusal :=
  issueOne .v0 q (opVneg ty d a step) s

/-- VRCP (R329). -/
def opVrcp (ty : VTy) (d a : Mrf) (step : Bool) : OpM := vecUn fRcp ty d a step
def execVrcp (q : Guard) (ty : VTy) (d a : Mrf) (step : Bool) (s : State) : Host.Outcome State Fault Refusal :=
  issueOne .v0 q (opVrcp ty d a step) s

/-- VRSQ (R329). -/
def opVrsq (ty : VTy) (d a : Mrf) (step : Bool) : OpM := vecUn fRsq ty d a step
def execVrsq (q : Guard) (ty : VTy) (d a : Mrf) (step : Bool) (s : State) : Host.Outcome State Fault Refusal :=
  issueOne .v0 q (opVrsq ty d a step) s

/-- VEXP2 (R329). -/
def opVexp2 (ty : VTy) (d a : Mrf) (step : Bool) : OpM := vecUn fExp2 ty d a step
def execVexp2 (q : Guard) (ty : VTy) (d a : Mrf) (step : Bool) (s : State) : Host.Outcome State Fault Refusal :=
  issueOne .v0 q (opVexp2 ty d a step) s

/-- VLOG2 (R329). -/
def opVlog2 (ty : VTy) (d a : Mrf) (step : Bool) : OpM := vecUn fLog2 ty d a step
def execVlog2 (q : Guard) (ty : VTy) (d a : Mrf) (step : Bool) (s : State) : Host.Outcome State Fault Refusal :=
  issueOne .v0 q (opVlog2 ty d a step) s

/-- VCLAMP (R327, R328). -/
def opVclamp (ty : VTy) (d a b : Mrf) (step : Bool) : OpM := vecTri (elClamp ty) ty d a b step
def execVclamp (q : Guard) (ty : VTy) (d a b : Mrf) (step : Bool) (s : State) : Host.Outcome State Fault Refusal :=
  issueOne .v0 q (opVclamp ty d a b step) s

/-! ## Compares, selects, logic and shifts (R330 to R332) -/

/-- A condition code over an ordering, none where an operand is NaN (R330). -/
def condOf (cond : Nat) (o : Option Ordering) : Bool :=
  match o with
  | none => cond == 1 || cond == 6
  | some r =>
    if cond = 0 then r == .eq else if cond = 1 then r != .eq else if cond = 2 then r == .lt
    else if cond = 3 then r != .gt else if cond = 4 then r == .gt else if cond = 5 then r != .lt
    else cond == 7

/-- The ordering of two elements at a type; none for a NaN. -/
def elCmp (ty : VTy) (d a : Nat) : Option Ordering :=
  match tyOfVTy ty with
  | .flt f => if (decF f d).isNan || (decF f a).isNan then none else some (xcmp (decF f d) (decF f a))
  | .int w sg => some (compare (elInt w sg d) (elInt w sg a))

/-- One element of VCMP (R330). -/
def elVcmp (ty : VTy) (cond d a : Nat) : Elem :=
  let o := elCmp ty d a
  (if condOf cond o then 2 ^ tyWidth ty - 1 else 0, if o.isNone then fNANIN else 0)

/-- VCMP compares the old D against A (R330). -/
def opVcmp (ty : VTy) (d a : Mrf) (cond : BitVec 4) (step : Bool) : OpM :=
  vecDA (elVcmp ty cond.toNat) ty d a step
def execVcmp (q : Guard) (ty : VTy) (d a : Mrf) (cond : BitVec 4) (step : Bool) (s : State) :
    Host.Outcome State Fault Refusal := issueOne .v0 q (opVcmp ty d a cond step) s

/-- VSEL (R331). -/
def opVsel (ty : VTy) (d a b : Mrf) (step : Bool) : OpM :=
  vecTri (fun d a b => (if d = 0 then b else a, 0)) ty d a b step
def execVsel (q : Guard) (ty : VTy) (d a b : Mrf) (step : Bool) (s : State) : Host.Outcome State Fault Refusal :=
  issueOne .v0 q (opVsel ty d a b step) s

/-- VAND (R331). -/
def opVand (ty : VTy) (d a b : Mrf) (step : Bool) : OpM := vecBin (fun a b => (a &&& b, 0)) ty d a b step
def execVand (q : Guard) (ty : VTy) (d a b : Mrf) (step : Bool) (s : State) : Host.Outcome State Fault Refusal :=
  issueOne .v0 q (opVand ty d a b step) s

/-- VOR (R331). -/
def opVor (ty : VTy) (d a b : Mrf) (step : Bool) : OpM := vecBin (fun a b => (a ||| b, 0)) ty d a b step
def execVor (q : Guard) (ty : VTy) (d a b : Mrf) (step : Bool) (s : State) : Host.Outcome State Fault Refusal :=
  issueOne .v0 q (opVor ty d a b step) s

/-- VXOR (R331). -/
def opVxor (ty : VTy) (d a b : Mrf) (step : Bool) : OpM := vecBin (fun a b => (a ^^^ b, 0)) ty d a b step
def execVxor (q : Guard) (ty : VTy) (d a b : Mrf) (step : Bool) (s : State) : Host.Outcome State Fault Refusal :=
  issueOne .v0 q (opVxor ty d a b step) s

/-- VNOT (R331). -/
def opVnot (ty : VTy) (d a : Mrf) (step : Bool) : OpM :=
  vecUn (fun a => (2 ^ tyWidth ty - 1 - a, 0)) ty d a step
def execVnot (q : Guard) (ty : VTy) (d a : Mrf) (step : Bool) (s : State) : Host.Outcome State Fault Refusal :=
  issueOne .v0 q (opVnot ty d a step) s

/-- VSHL (R332). -/
def opVshl (ty : VTy) (d a : Mrf) (sh : BitVec 6) (step : Bool) : OpM :=
  vecUn (fun a => (a * 2 ^ sh.toNat % 2 ^ tyWidth ty, 0)) ty d a step
def execVshl (q : Guard) (ty : VTy) (d a : Mrf) (sh : BitVec 6) (step : Bool) (s : State) :
    Host.Outcome State Fault Refusal := issueOne .v0 q (opVshl ty d a sh step) s

/-- VSHR (R332). -/
def opVshr (ty : VTy) (d a : Mrf) (sh : BitVec 6) (step : Bool) : OpM :=
  vecUn (fun a => (a / 2 ^ sh.toNat, 0)) ty d a step
def execVshr (q : Guard) (ty : VTy) (d a : Mrf) (sh : BitVec 6) (step : Bool) (s : State) :
    Host.Outcome State Fault Refusal := issueOne .v0 q (opVshr ty d a sh step) s

/-- VSRA: the element as a w-bit signed number, divided and rounded down (R332). -/
def opVsra (ty : VTy) (d a : Mrf) (sh : BitVec 6) (step : Bool) : OpM :=
  vecUn (fun a => (intCode (tyWidth ty) (sextI a (tyWidth ty) / (2 ^ sh.toNat : Nat)), 0)) ty d a step
def execVsra (q : Guard) (ty : VTy) (d a : Mrf) (sh : BitVec 6) (step : Bool) (s : State) :
    Host.Outcome State Fault Refusal := issueOne .v0 q (opVsra ty d a sh step) s

/-! ## Conversion, pack and unpack (R333 to R335) -/

/-- Elements converted part by part (R333): ws and wd the storage widths, old the elements of D. A part out of range
is none. -/
def convertPart (ws wd part : Nat) (src old : List Nat) (f : Nat → Elem) : Option (List Elem) :=
  let ns := 1024 / ws
  let nd := 1024 / wd
  if ns ≥ nd then
    if part < ns / nd then some (((src.drop (part * nd)).take nd).map f) else none
  else if part < nd / ns then
    some ((old.take (part * ns)).map (fun v => (v, 0)) ++ src.map f ++ (old.drop (part * ns + ns)).map (fun v => (v, 0)))
  else none

/-- The source type of VCVT, with its format checks (R334). Where the format is invalid and the port is not enabled, R82
and R334 give no order and FMT_INVALID is reported (DESIGN CHOICE, notes/assumptions/63.md). -/
def cvtSource (x : OpCtx) (ty : VTy) (a : Mrf) (sf : Nat) (step : Bool) : Except (Stop State) NTy := do
  let c := cur x.rd
  if ty = .nar then
    if isPort a then
      fmtCheck c sf
      portLegal c a
      let t := tyOfCode (fmtReg c) sf
      need (portEw c a == t.width) .fmtInvalid
      return t
    else
      idxCheck c (stepIdx a x.j step)
      let t ← tdescType c (stepIdx a x.j step / 32)
      need (decide (t < 16)) .tdescBad
      return tyOfCode (fmtReg c) t
  else return tyOfVTy ty

/-- VCVT (R333, R334). -/
def opVcvt (ty : VTy) (d a : Mrf) (dt : BitVec 5) (sf : BitVec 4) (part : BitVec 3) (step : Bool) : OpM := fun x s => do
  let c := cur x.rd
  let dst ← destOpnd x d step
  let st ← cvtSource x ty a sf.toNat step
  fmtCheck c dt.toNat
  let tt := tyOfCode (fmtReg c) dt.toNat
  let f (v : Nat) : Elem := cvtTo (payWidth st) tt (decT st (v % 2 ^ st.width))
  portFormat c a st.width
  need (decide (part.toNat < partCount st.store tt.store)) .illegalEnc
  let (la, s) ← readOpnd x a step s
  match convertPart st.store tt.store part.toNat (unpack st.store la) (vecOld x tt.store dst) f with
  | some es => return vecWrite tt.store dst es s
  | none => faultWith .illegalEnc
def execVcvt (q : Guard) (ty : VTy) (d a : Mrf) (dt : BitVec 5) (sf : BitVec 4) (part : BitVec 3) (step : Bool) (s : State) :
    Host.Outcome State Fault Refusal := issueOne .v0 q (opVcvt ty d a dt sf part step) s

/-- One element of VPACK (R335). -/
def elPack (ty : VTy) (w : Nat) (sat : Bool) (a : Nat) : Nat :=
  if sat && isInt ty && (match tyOfVTy ty with | .int _ sg => sg | .flt _ => false) then
    intCode w (min (max (sextI a (tyWidth ty)) (-(2 ^ (w - 1) : Nat))) ((2 ^ (w - 1) : Nat) - 1))
  else if sat then min a (2 ^ w - 1)
  else a % 2 ^ w

/-- VPACK (R333, R335): the format of its port before PART. -/
def opVpack (ty : VTy) (d a : Mrf) (w : BitVec 5) (sat : Bool) (part : BitVec 3) (step : Bool) : OpM := fun x s => do
  let wd := storeWidth w.toNat
  if ty != .bits then portFormat (cur x.rd) a (tyWidth ty)
  need (decide (part.toNat < partCount (tyWidth ty) wd)) .illegalEnc
  let dst ← destOpnd x d step
  let (la, s) ← readOpnd x a step s
  match convertPart (tyWidth ty) wd part.toNat (unpack (tyWidth ty) la) (vecOld x wd dst)
      (fun v => (elPack ty w.toNat sat v, 0)) with
  | some es => return vecWrite wd dst es s
  | none => faultWith .illegalEnc
def execVpack (q : Guard) (ty : VTy) (d a : Mrf) (w : BitVec 5) (sat : Bool) (part : BitVec 3) (step : Bool) (s : State) :
    Host.Outcome State Fault Refusal := issueOne .v0 q (opVpack ty d a w sat part step) s

/-- One element of VUNPK (R335). -/
def elUnpk (ty : VTy) (w : Nat) (a : Nat) : Nat :=
  match ty, tyOfVTy ty with
  | .bits, _ => a % 2 ^ w
  | _, .int _ true => intCode (tyWidth ty) (sextI a w)
  | _, _ => a % 2 ^ w

/-- VUNPK (R333, R335): the format of its port before PART. -/
def opVunpk (ty : VTy) (d a : Mrf) (w : BitVec 5) (part : BitVec 3) (step : Bool) : OpM := fun x s => do
  let ws := storeWidth w.toNat
  if ty != .bits then portFormat (cur x.rd) a w.toNat
  need (decide (part.toNat < partCount (tyWidth ty) ws)) .illegalEnc
  let dst ← destOpnd x d step
  let (la, s) ← readOpnd x a step s
  match convertPart ws (tyWidth ty) part.toNat (unpack ws la) (vecOld x (tyWidth ty) dst)
      (fun v => (elUnpk ty w.toNat v, 0)) with
  | some es => return vecWrite (tyWidth ty) dst es s
  | none => faultWith .illegalEnc
def execVunpk (q : Guard) (ty : VTy) (d a : Mrf) (w : BitVec 5) (part : BitVec 3) (step : Bool) (s : State) :
    Host.Outcome State Fault Refusal := issueOne .v0 q (opVunpk ty d a w part step) s

/-! ## Moves, permutes and counts (R336) -/

/-- An op that forms all elements of D from all those of A. -/
def vecAll (f : List Nat → List Elem) (ty : VTy) (d a : Mrf) (step : Bool) : OpM := fun x s => do
  let dst ← destOpnd x d step
  let (la, s) ← readTyped x ty a step s
  return vecWrite (tyWidth ty) dst (f (unpack (tyWidth ty) la)) s

/-- VBCST (R336). -/
def opVbcst (ty : VTy) (d a : Mrf) (idx : BitVec 8) (step : Bool) : OpM :=
  vecAll (fun es => es.map (fun _ => (es.getD idx.toNat 0, 0))) ty d a step
def execVbcst (q : Guard) (ty : VTy) (d a : Mrf) (idx : BitVec 8) (step : Bool) (s : State) :
    Host.Outcome State Fault Refusal := issueOne .v0 q (opVbcst ty d a idx step) s

/-- VMOV (R336). -/
def opVmov (ty : VTy) (d a : Mrf) (step : Bool) : OpM := vecUn (fun a => (a, 0)) ty d a step
def execVmov (q : Guard) (ty : VTy) (d a : Mrf) (step : Bool) (s : State) : Host.Outcome State Fault Refusal :=
  issueOne .v0 q (opVmov ty d a step) s

/-- VPERM (R336). -/
def opVperm (ty : VTy) (d a b : Mrf) (step : Bool) : OpM := fun x s => do
  let dst ← destOpnd x d step
  let (la, s) ← readTyped x ty a step s
  let (lb, s) ← readTyped x ty b step s
  let es := unpack (tyWidth ty) la
  return vecWrite (tyWidth ty) dst ((unpack (tyWidth ty) lb).map (fun i => (es.getD i 0, 0))) s
def execVperm (q : Guard) (ty : VTy) (d a b : Mrf) (step : Bool) (s : State) : Host.Outcome State Fault Refusal :=
  issueOne .v0 q (opVperm ty d a b step) s

/-- VROT (R336). -/
def opVrot (ty : VTy) (d a : Mrf) (sh : BitVec 8) (step : Bool) : OpM :=
  vecAll (fun es => (List.range es.length).map (fun e => (es.getD ((e + es.length - sh.toNat) % es.length) 0, 0)))
    ty d a step
def execVrot (q : Guard) (ty : VTy) (d a : Mrf) (sh : BitVec 8) (step : Bool) (s : State) :
    Host.Outcome State Fault Refusal := issueOne .v0 q (opVrot ty d a sh step) s

/-- The number of one bits below bit n. -/
def popBits (n a : Nat) : Nat := ((List.range n).filter (fun k => bit a k)).length

/-- VCNT (R336). -/
def opVcnt (ty : VTy) (d a : Mrf) (step : Bool) : OpM := vecUn (fun a => (popBits (tyWidth ty) a, 0)) ty d a step
def execVcnt (q : Guard) (ty : VTy) (d a : Mrf) (step : Bool) (s : State) : Host.Outcome State Fault Refusal :=
  issueOne .v0 q (opVcnt ty d a step) s

/-! ## Reductions, scans, the normalization helper (R337 to R339) -/

/-- One level of the reduction tree; an absent operand leaves its partner unchanged (R337). -/
def treeLevel (node : α → α → α) : List (Option α) → List (Option α)
  | a :: b :: r =>
    (match a, b with
     | some u, some v => some (node u v)
     | some u, none => some u
     | none, v => v) :: treeLevel node r
  | r => r

/-- The reduction tree; n levels. -/
def tree (node : α → α → α) : Nat → List (Option α) → Option α
  | 0, xs => xs.headD none
  | n + 1, xs => tree node n (treeLevel node xs)

/-- An element as the FP32 operand of a floating sum: 16-bit elements convert exactly (R337). -/
def toF32 (ty : VTy) (a : Nat) : Nat :=
  match ty, tyOfVTy ty with
  | .fp32, _ => a
  | _, .flt f => (cvtTo f.M (.flt fFP32) (decF f a)).1
  | _, .int _ _ => a

/-- A floating element is a NaN. -/
def elNan (ty : VTy) (a : Nat) : Bool := match tyOfVTy ty with | .flt f => (decF f a).isNan | .int _ _ => false

/-- The better of two candidates of ARGMAX: the larger value, NaN below every number; ties to the lower index, which
is the first operand (R337). -/
def argBetter (ty : VTy) (a b : Nat × Nat) : Nat × Nat :=
  match tyOfVTy ty with
  | .flt f =>
    if elNan ty b.1 then a else if elNan ty a.1 then b else if fBelow f a.1 b.1 then b else a
  | .int w sg => if elInt w sg a.1 < elInt w sg b.1 then b else a

/-- Lanes 0 and 1 of VRED and its flags (R337). -/
def redOf (ty : VTy) (rop len : Nat) (es : List Nat) : Nat × Nat × Nat :=
  let n := if len = 0 then es.length else len
  let live := es.take n
  let pad (α : Type) (xs : List α) : List (Option α) := xs.map some ++ List.replicate (es.length - n) none
  let nan := if live.any (elNan ty) then fNANIN else 0
  let node2 (f : Nat → Nat → Elem) (a b : Elem) : Elem := let r := f a.1 b.1; (r.1, a.2 ||| b.2 ||| r.2)
  let lift (xs : List Nat) : List Elem := xs.map (fun v => (v, 0))
  if rop = 0 then
    match tyOfVTy ty with
    | .flt _ =>
      let xs := lift (live.map (toF32 ty)) ++ List.replicate (es.length - n) (0x80000000, 0)
      let r := (tree (node2 (fAdd fFP32)) 8 (xs.map some)).getD (0, 0)
      (r.1, 0, r.2 ||| nan)
    | .int w sg => (intCode 32 ((live.map (elInt w sg)).sum), 0, 0)
  else if rop = 1 then
    let r := (tree (node2 (elMax ty)) 8 (pad Elem (lift live))).getD (0, 0)
    (r.1, 0, r.2 ||| nan)
  else if rop = 2 then
    let r := (tree (node2 (elMin ty)) 8 (pad Elem (lift live))).getD (0, 0)
    (r.1, 0, r.2 ||| nan)
  else if rop = 3 then
    let r := (tree (argBetter ty) 8 (pad (Nat × Nat) (live.zip (List.range n)))).getD (0, 0)
    (r.1, r.2, nan)
  else
    let nums := live.map (fun v => if elNan ty v then none else some (v, 0)) ++ List.replicate (es.length - n) none
    let f := match tyOfVTy ty with | .flt f => f | .int _ _ => fFP32
    let r := (tree (node2 (if rop = 4 then elMax ty else elMin ty)) 8 nums).getD (infCode f (decide (rop = 4)), 0)
    (r.1, 0, r.2 ||| nan)

/-- VRED (R337). -/
def opVred (ty : VTy) (d a : Mrf) (rop : BitVec 3) (len : BitVec 8) (step : Bool) : OpM := fun x s => do
  let dst ← destOpnd x d step
  let (la, s) ← readTyped x ty a step s
  let (v, i, fl) := redOf ty rop.toNat len.toNat (unpack (tyWidth ty) la)
  return raiseN fl (putAll s dst (BitVec.ofNat 32 v :: BitVec.ofNat 32 i :: List.replicate 30 0))
def execVred (q : Guard) (ty : VTy) (d a : Mrf) (rop : BitVec 3) (len : BitVec 8) (step : Bool) (s : State) :
    Host.Outcome State Fault Refusal := issueOne .v0 q (opVred ty d a rop len step) s

/-- The prefixes of a list under f from an accumulated value, flags beside each. -/
def scanFrom (f : Nat → Nat → Elem) (p : Nat) : List Nat → List Elem
  | [] => []
  | a :: r => let q := f p a; q :: scanFrom f q.1 r

/-- The prefixes P[0], P[1], … of R338. -/
def scanOf (f : Nat → Nat → Elem) : List Nat → List Elem
  | [] => []
  | a :: r => (a, 0) :: scanFrom f a r

/-- The identity of a scan's op at a type (R338). -/
def scanIdent (ty : VTy) (rop : Nat) : Nat :=
  match tyOfVTy ty with
  | .flt f => if rop = 0 then 0 else infCode f (decide (rop = 1))
  | .int w sg => if rop = 0 then 0 else if rop = 1 then intCode w (intMin w sg) else intCode w (intMax w sg)

/-- VSCAN (R338). -/
def opVscan (ty : VTy) (d a : Mrf) (rop : BitVec 2) (excl : Bool) (len : BitVec 8) (step : Bool) : OpM := fun x s => do
  let dst ← destOpnd x d step
  let (la, s) ← readTyped x ty a step s
  let es := unpack 32 la
  let n := if len = 0 then 32 else len.toNat
  let f := if rop = 0 then elAdd ty else if rop = 1 then elMax ty else elMin ty
  let ps := scanOf f (es.take n)
  let fin := (ps.getLastD (0, 0)).1
  let vs := ps.map (fun e => e.1)
  let out := (if excl then scanIdent ty rop.toNat :: vs.dropLast else vs) ++ List.replicate (32 - n) fin
  let nan := if (es.take n).any (elNan ty) then fNANIN else 0
  return raiseN (elemFlags ps ||| nan) (putAll s dst (pack 32 out))
def execVscan (q : Guard) (ty : VTy) (d a : Mrf) (rop : BitVec 2) (excl : Bool) (len : BitVec 8) (step : Bool) (s : State) :
    Host.Outcome State Fault Refusal := issueOne .v0 q (opVscan ty d a rop excl len step) s

/-- An exact sum; none for ∞ − ∞. -/
def xsum (v : XV) : List XV → Option XV
  | [] => some v
  | t :: r => match xadd v t with | none => none | some u => xsum u r

/-- One lane of VNORM: RNE of d and the exact sum of the terms, with the first NaN among d and the elements kept (R339). -/
def normLane (d : Nat) (es : List Nat) (term : XV → XV) : Elem :=
  (firstNan fFP32 (d :: es)).getD (rneX fFP32 (xsum (f32 d) (es.map (fun e => term (f32 e)))))

/-- VNORM (R339). -/
def opVnorm (ty : VTy) (d a : Mrf) (len : BitVec 8) (step : Bool) : OpM := fun x s => do
  let dst ← destOpnd x d step
  let (la, s) ← readTyped x ty a step s
  let all := unpack (tyWidth ty) la
  let es := (if len = 0 then all else all.take len.toNat).map (toF32 ty)
  let old := mrfVec x.rd dst.1 dst.2
  let l0 := normLane (old.getD 0 0).toNat es (fun v => (xmul v v).getD v)
  let l1 := normLane (old.getD 1 0).toNat es (fun v => v)
  return raiseN (l0.2 ||| l1.2) (putVec s dst.1 dst.2 [(0, BitVec.ofNat 32 l0.1), (1, BitVec.ofNat 32 l1.1)])
def execVnorm (q : Guard) (ty : VTy) (d a : Mrf) (len : BitVec 8) (step : Bool) (s : State) :
    Host.Outcome State Fault Refusal := issueOne .v0 q (opVnorm ty d a len step) s

/-! ## Lookup and bitmap test (R340, R341) -/

/-- The row of a table at B, or none past the end of B's tile. -/
def tableRow (b n : Nat) : Option Nat := if b % 32 + n < 32 then some (b + n) else none

/-- VLUT (R340). -/
def opVlut (ty : VTy) (d a b : Mrf) (step : Bool) : OpM := fun x s => do
  let dst ← destOpnd x d step
  let (la, s) ← readTyped x ty a step s
  let rb := stepIdx b x.j step
  idxCheck (cur x.rd) rb
  let w := tyWidth ty
  let n := 1024 / w
  let look (i : Nat) : Nat := match tableRow rb (i / n) with
    | some r => (unpack w (mrfRow x.rd r)).getD (i % n) 0
    | none => 0
  return vecWrite w dst ((unpack w la).map (fun i => (look i, 0))) s
def execVlut (q : Guard) (ty : VTy) (d a b : Mrf) (step : Bool) (s : State) : Host.Outcome State Fault Refusal :=
  issueOne .v0 q (opVlut ty d a b step) s

/-- VBMT (R341). -/
def opVbmt (_ty : VTy) (d a b : Mrf) (step : Bool) : OpM := fun x s => do
  let dst ← destOpnd x d step
  let (la, s) ← readOpnd x a step s
  let rb := stepIdx b x.j step
  idxCheck (cur x.rd) rb
  let test (i : Nat) : Bool := match tableRow rb (i / 1024) with
    | some r => bit (laneN x.rd r (i / 32 % 32)) (i % 32)
    | none => false
  return putAll s dst (la.map (fun i => if test i.toNat then 0xFFFFFFFF else 0))
def execVbmt (q : Guard) (ty : VTy) (d a b : Mrf) (step : Bool) (s : State) : Host.Outcome State Fault Refusal :=
  issueOne .v0 q (opVbmt ty d a b step) s

/-! ## Scratchpad gather and scatter (R342, R343) -/

/-- The handle and base that a row names (R342, R343): lane 0 the handle, lane 1 the signed base. -/
def rowHandle (x : OpCtx) (row w : Nat) (s : State) : Except (Stop State) (Handle × Int) := do
  let v := laneN x.rd row 0
  let h := handleOf (seen s) (v % 256)
  need (decide (v < 256) && usable h (cur x.rd) && !h.canopy && wcodeWidth h.wcode == w) .tileRange
  return (h, sextI (laneN x.rd row 1) 32)

/-- The unit of an active lane, none of an inactive one; every active unit lies in the handle (R343). -/
def laneUnits (h : Handle) (base : Int) (idx : List Lane) : Except (Stop State) (List (Option Nat)) := do
  let us := idx.map (fun i => if sextI i.toNat 32 < 0 then none else some (base + sextI i.toNat 32))
  need (us.all (fun u => match u with | none => true | some v => decide (0 ≤ v) && decide (v < (shapeUnits h.shape : Int)))) .tileRange
  return us.map (fun u => u.map Int.toNat)

/-- VGATHX (R342). -/
def opVgathx (ty : VTy) (d a b : Mrf) (step : Bool) : OpM := fun x s => do
  let dst ← destOpnd x d step
  let (la, s) ← readTyped x .i32 a step s
  let rb := stepIdx b x.j step
  idxCheck (cur x.rd) rb
  let (h, base) ← rowHandle x rb (tyWidth ty) s
  let us ← laneUnits h base la
  return putAll s dst (us.map (fun u => match u with | none => 0 | some e => BitVec.ofNat 32 (handleUnit (seen s) h e)))
def execVgathx (q : Guard) (ty : VTy) (d a b : Mrf) (step : Bool) (s : State) : Host.Outcome State Fault Refusal :=
  issueOne .v0 q (opVgathx ty d a b step) s

/-- Lanes stored to their units in ascending order; the higher lane prevails (R342). -/
def scatterLanes (h : Handle) (w : Nat) : List (Option Nat × Lane) → State → State
  | [], s => s
  | (none, _) :: r, s => scatterLanes h w r s
  | (some e, v) :: r, s => scatterLanes h w r (putHandleUnit s h e (v.toNat % 2 ^ w))

/-- VSCATX (R342, R343). -/
def opVscatx (ty : VTy) (d a b : Mrf) (step : Bool) : OpM := fun x s => do
  let dst ← destOpnd x d step
  let (la, s) ← readTyped x .i32 a step s
  let rb := stepIdx b x.j step
  idxCheck (cur x.rd) rb
  let (h, base) ← rowHandle x rb (tyWidth ty) s
  let us ← laneUnits h base la
  return scatterLanes h (tyWidth ty) (us.zip (mrfVec x.rd dst.1 dst.2)) s
def execVscatx (q : Guard) (ty : VTy) (d a b : Mrf) (step : Bool) (s : State) : Host.Outcome State Fault Refusal :=
  issueOne .v0 q (opVscatx ty d a b step) s

/-! ## Stop-string match (R344) -/

/-- The ends of the matches of a pattern in a window. -/
def matchEnds (a b : List Nat) : List Nat :=
  let n := a.length
  let l := b.getD (n - 1) 0
  if l = 0 || l > n - 1 then []
  else (List.range n).filter (fun e => decide (l ≤ e + 1) && (a.drop (e + 1 - l)).take l == b.take l)

/-- VMATCH (R344). -/
def opVmatch (ty : VTy) (d a b : Mrf) (step : Bool) : OpM := fun x s => do
  let dst ← destOpnd x d step
  let (la, s) ← readTyped x ty a step s
  let (lb, s) ← readTyped x ty b step s
  let es := matchEnds (unpack (tyWidth ty) la) (unpack (tyWidth ty) lb)
  let top := match es.getLast? with | some e => e + 1 | none => 0
  return putAll s dst (BitVec.ofNat 32 top :: BitVec.ofNat 32 es.length :: List.replicate 30 0)
def execVmatch (q : Guard) (ty : VTy) (d a b : Mrf) (step : Bool) (s : State) : Host.Outcome State Fault Refusal :=
  issueOne .v0 q (opVmatch ty d a b step) s

/-! ## Sampling (R207 to R211, R345 to R349) -/

/-- The fate of a level-0 weight: its value, its flags, and whether it is a NaN (R208). -/
def weightFate (c : Nat) : Nat × Nat × Bool :=
  match f32 c with
  | .nan _ _ => (0, 0, true)
  | .inf s => if s then (0, fIV, false) else (maxF32, fOF, false)
  | .fin s m _ => if m = 0 then (0, 0, false) else if s then (0, fIV, false) else (c, 0, false)

/-- One chain sum; one that rounds to +∞ is the largest finite FP32 (R207, R208). -/
def chainAdd (p a : Nat) : Elem :=
  let r := fAdd fFP32 p a
  if r.1 = 0x7F800000 then (maxF32, r.2 ||| fOF) else r

/-- The chain P[0] to P[31] (R207). -/
def chain (ws : List Nat) : List Elem := scanOf chainAdd ws

/-- VPSUM (R345). -/
def opVpsum (ty : VTy) (d a : Mrf) (lane : BitVec 5) (lv : Bool) (step : Bool) : OpM := fun x s => do
  let dst ← destOpnd x d step
  let (la, s) ← readTyped x ty a step s
  let cs := la.map (fun v => v.toNat)
  let fates := cs.map weightFate
  let nans := if lv then 0 else (fates.filter (fun f => f.2.2)).length
  let ws := if lv then cs.map (fun c => c % 2 ^ 31) else fates.map (fun f => f.1)
  let wf := if lv then 0 else fates.foldl (fun a f => a ||| f.2.1) 0
  let mark := if lv then cs.any (fun c => decide (c ≥ 2 ^ 31)) else decide (0 < nans)
  let ps := chain ws
  let entry := (ps.getLastD (0, 0)).1 % 2 ^ 31 + (if mark then 2 ^ 31 else 0)
  let s := if nans = 0 then s else raiseSeq 2 nans s
  return raiseN (wf ||| elemFlags ps) (putVecLane s dst.1 dst.2 lane.toNat (BitVec.ofNat 32 entry))
def execVpsum (q : Guard) (ty : VTy) (d a : Mrf) (lane : BitVec 5) (lv : Bool) (step : Bool) (s : State) :
    Host.Outcome State Fault Refusal := issueOne .v0 q (opVpsum ty d a lane lv step) s

/-- The SEQSTAT bits of a draw result (R211, R91). -/
def resultSeq (r : Nat) : Nat := (bit r 31).toNat + 2 * (bit r 30).toNat + 4 * (bit r 29).toNat

/-- A finished draw: lanes 4 and 5 of the draw row, SEQSTAT (R211, R347). -/
def finishDraw (row r : Nat) (s : State) : State :=
  raiseSeq (w64 (resultSeq r)) 0 (setLane (setLane s row 4 (BitVec.ofNat 32 r)) row 5 1)

/-- RNE_F32 of T times the uniform factor of word w (R209). -/
def drawStart (total w : Nat) : Elem :=
  (firstNan fFP32 [total]).getD
    (rneX fFP32 (match f32 total with | .fin s m e => some (.fin s (m * (2 * (w / 256) + 1)) (e - 25)) | v => some v))

/-- The children of a node of the draw (R347). -/
def drawChildren (x : OpCtx) (hnd : Bool) (ra node : Nat) (s : State) : Except (Stop State) (List Nat) := do
  if hnd then
    let (h, base) ← rowHandle x ra 32 s
    let lo : Int := base + 32 * (node : Int)
    need (decide (0 ≤ lo) && decide (lo + 32 ≤ (shapeUnits h.shape : Int))) .tileRange
    return (List.range 32).map (fun k => handleUnit (seen s) h (lo.toNat + k))
  else
    idxCheck (cur x.rd) (ra + node)
    return (mrfRow x.rd (ra + node)).map (fun v => v.toNat)

/-- A weight above zero: no NaN, no zero; its sign is clear (R210). -/
def weightPos (c : Nat) : Bool := !(f32 c).isNan && !(f32 c).isZero && !(f32 c).sign

/-- The child chosen: the first whose prefix is above t, else the last that is above zero, else the first (R210, R347). -/
def drawChoice (t : Nat) (ws ps : List Nat) : Nat :=
  let above (p : Nat) : Bool := !(f32 t).isNan && !(f32 p).isNan && xcmp (f32 t) (f32 p) == .lt
  match (List.range 32).find? (fun k => above (ps.getD k 0)) with
  | some k => k
  | none => (((List.range 32).filter (fun k => weightPos (ws.getD k 0))).getLast?).getD 0

/-- VDSC (R347). -/
def opVdsc (_ty : VTy) (d a : Mrf) (hnd last first : Bool) (step : Bool) : OpM := fun x s => do
  let row := stepIdx d x.j step
  idxCheck (cur x.rd) row
  let l (k : Nat) : Nat := laneN x.rd row k
  let ra := stepIdx a x.j step
  idxCheck (cur x.rd) ra
  if bit (l 5) 0 then return s
  else
    let mag := l 2 % 2 ^ 31
    let mark := if bit (l 2) 31 then 2 ^ 30 else 0
    if first && bit (l 3) 31 then return finishDraw row (2 ^ 29) s
    else if first && mag == 0 then return finishDraw row (2 ^ 31 + mark + l 3 % 2 ^ 20) s
    else
      let (t, tf) : Elem := if first then drawStart mag (l 0) else (l 0, 0)
      let node := if first then 0 else l 1 % 2 ^ 20
      let cs ← drawChildren x hnd ra node s
      let ws := cs.map (fun c => if last then (weightFate c).1 else c % 2 ^ 31)
      let ps := chain ws
      let pv := ps.map (fun e => e.1)
      let c := drawChoice t ws pv
      let t2 := fSub fFP32 t (if c = 0 then 0 else pv.getD (c - 1) 0)
      let node := (32 * node + c) % 2 ^ 20
      let s := setLane (setLane s row 0 (BitVec.ofNat 32 t2.1)) row 1 (BitVec.ofNat 32 node)
      let s := raiseN (tf ||| elemFlags ps ||| t2.2) s
      return if last then finishDraw row (mark + node) s else s
def execVdsc (q : Guard) (ty : VTy) (d a : Mrf) (hnd last first : Bool) (step : Bool) (s : State) :
    Host.Outcome State Fault Refusal := issueOne .v0 q (opVdsc ty d a hnd last first step) s

/-- Words taken for the valid lanes in ascending order (R348). -/
def takeLanes (dst : Nat × Nat) : List (Nat × Lane) → State → State
  | [], s => s
  | (j, v) :: r, s =>
    if bit v.toNat 31 then
      let t := takeWord (v.toNat % 4096) s
      takeLanes dst r (putVecLane t.2 dst.1 dst.2 j t.1)
    else takeLanes dst r s

/-- VRNG (R348, R349). An issue waits while a ring, as it stood before the issue, holds too few words for the op's takes,
and the ring refills; where both ops of a bundle take from one ring, it refills between their takes (R213). -/
def opVrng (ty : VTy) (d a : Mrf) (step : Bool) : OpM := fun x s => do
  let dst ← destOpnd x d step
  let (la, s) ← readTyped x ty a step s
  let slots := (la.filter (fun v => bit v.toNat 31)).map (fun v => v.toNat % 4096)
  need (slots.all (slotShare x.rd (partOf x.rd (cur x.rd)))) .slotBad
  if slots.all (fun q => decide (min 16 (slots.filter (fun p => p == q)).length ≤ ringHas x.rd q)) then
    return takeLanes dst ((List.range 32).zip la) s
  else stallWith (fun s => slots.foldl (fun s q => refillRing q s) s)
def execVrng (q : Guard) (ty : VTy) (d a : Mrf) (step : Bool) (s : State) : Host.Outcome State Fault Refusal :=
  issueOne .v0 q (opVrng ty d a step) s

/-! ## Flag access (R350) -/

/-- VSTAT (R350). -/
def opVstat (_ty : VTy) (d : Mrf) (clr step : Bool) : OpM := fun x s => do
  let dst ← destOpnd x d step
  let c := cur x.rd
  let lo (w : Word) : Lane := w.setWidth 32
  let hi (w : Word) : Lane := (w >>> 32).setWidth 32
  let s := putAll s dst ([lo c.flags, lo c.seqstat, hi c.seqstat, lo c.mxc, hi c.mxc] ++ List.replicate 27 0)
  return if clr then modCur s (fun c => { c with flags := 0, seqstat := 0 }) else s
def execVstat (q : Guard) (ty : VTy) (d : Mrf) (form : StatForm) (s : State) : Host.Outcome State Fault Refusal :=
  issueOne .v0 q (opVstat ty d form.clr form.step) s

end Sys2Proof.Machine
end

