-- ==== Sys2Proof/Machine/Weights.lean ====
section
/-!
DEFINITION. Weight handles as kernels see them: HTEST, HREQ, HPIN and HREL (R118 to R120, R319, R320), and what becomes
of the handles when a launch ends (R120, R491).
-/

namespace Sys2Proof.Machine

/-- HTEST (R319). Bits of G[A] above the handle are not looked at. -/
def opHtest (d a : Reg) (sel : BitVec 2) : OpM := fun x s => do
  need (decide (sel.toNat ≤ 1)) .illegalEnc
  let w := whSeen x.rd.now (partOf x.rd (cur x.rd)) (whOf x.rd (grN x a % 2 ^ 13))
  return setG s d (if sel = 0 then w.1 else w.2)
def execHtest (q : Guard) (d a : Reg) (sel : BitVec 2) (s : State) : Host.Outcome State Fault Refusal :=
  issueOne .c q (opHtest d a sel) s

/-- The handle that HREQ, HPIN or HREL names: the upper bits of G[A] are zero (R320). -/
def whName (x : OpCtx) (a : Reg) : Except (Stop State) Nat := do
  need (decide (grN x a < 2 ^ 13)) .illegalEnc
  return grN x a

/-- HREQ's effect on a handle (R119, R120): urgency raised to class 0; a demand where it is EVICTING. -/
def demandWh (w : WHandle) : WHandle :=
  if w.st = whFaulted then w
  else { w with urgent := true, cls := 0, demand := w.demand || w.st == whEvicting }

/-- HREQ (R320). -/
def opHreq (a : Reg) : OpM := fun x s => do
  let h ← whName x a
  need (whLive x.rd (partOf x.rd (cur x.rd)) h) .handleInvalid
  return modWh s h demandWh
def execHreq (q : Guard) (a : Reg) (s : State) : Host.Outcome State Fault Refusal := issueOne .c q (opHreq a) s

/-- HPIN's effect on a handle (R119, R120). -/
def pinWh (launch : Nat) (w : WHandle) : WHandle :=
  if w.st = whFaulted then w
  else { w with pins := rmod 0 w.pins launch (fun n => n + 1), st := if w.st = whResident then whPinned else w.st }

/-- HPIN (R320). -/
def opHpin (a : Reg) : OpM := fun x s => do
  let h ← whName x a
  need (whLive x.rd (partOf x.rd (cur x.rd)) h) .handleInvalid
  need ((whOf x.rd h).st == whFaulted || decide (pinCount (whOf x.rd h) < 255)) .handlePinmax
  return modWh s h (pinWh (cur x.rd).launch)
def execHpin (q : Guard) (a : Reg) (s : State) : Host.Outcome State Fault Refusal := issueOne .c q (opHpin a) s

/-- A handle whose last pin is gone is RESIDENT again (R119). -/
def settlePins (w : WHandle) : WHandle := if w.st = whPinned && pinCount w = 0 then { w with st := whResident } else w

/-- HREL's effect on a handle (R119, R120): a pin that the launch holds is given back; with no pin at all the handle is
an early eviction candidate. -/
def unpinWh (launch : Nat) (w : WHandle) : WHandle :=
  if pinCount w = 0 then { w with early := true }
  else if rget 0 w.pins launch = 0 then w
  else settlePins { w with pins := rmod 0 w.pins launch (fun n => n - 1) }

/-- HREL (R320). -/
def opHrel (a : Reg) : OpM := fun x s => do
  let h ← whName x a
  return if whLive x.rd (partOf x.rd (cur x.rd)) h then modWh s h (unpinWh (cur x.rd).launch) else s
def execHrel (q : Guard) (a : Reg) (s : State) : Host.Outcome State Fault Refusal := issueOne .c q (opHrel a) s

/-- Every handle changed. -/
def mapWh (f : WHandle → WHandle) (s : State) : State :=
  modDev s (fun d => { d with wh := d.wh.map (fun x => (x.1, noteWas s.now x.2 (f x.2))) })

/-- A launch has ended: its pins are released, and no eviction waits for it any longer (R120, R491). -/
def launchGone (n : Nat) (s : State) : State :=
  mapWh (fun w => settlePins { w with pins := rdel w.pins n, evictWait := w.evictWait.filter (fun k => k != n) }) s

end Sys2Proof.Machine
end

