-- ==== Sys2Proof/Machine/OpOf.lean ====
section
/-!
DEFINITION. The effect of a decoded op as a bundle issues it, its guard, its STEP bit, and its footprint: the registers
of R231 that it reads and writes (R62, R64, R65, R85, R226), by which group hazards and interlocks are found.
-/

namespace Sys2Proof.Machine

/-- The guard and the effect of an op of the five maps; none for what no bundle holds. -/
def opOf : Instr → Option (Guard × OpM)
  | .add q d a b => some (q, (opAdd d a b))
  | .sub q d a b => some (q, (opSub d a b))
  | .mul q d a b => some (q, (opMul d a b))
  | .mulh q d a b => some (q, (opMulh d a b))
  | .mulhn q d a b => some (q, (opMulhn d a b))
  | .div q d a b => some (q, (opDiv d a b))
  | .divn q d a b => some (q, (opDivn d a b))
  | .rem q d a b => some (q, (opRem d a b))
  | .remn q d a b => some (q, (opRemn d a b))
  | .and q d a b => some (q, (opAnd d a b))
  | .andn q d a b => some (q, (opAndn d a b))
  | .or q d a b => some (q, (opOr d a b))
  | .xor q d a b => some (q, (opXor d a b))
  | .nor q d a b => some (q, (opNor d a b))
  | .shl q d a b => some (q, (opShl d a b))
  | .shr q d a b => some (q, (opShr d a b))
  | .sra q d a b => some (q, (opSra d a b))
  | .rot q d a b => some (q, (opRot d a b))
  | .brev q d a => some (q, (opBrev d a))
  | .clz q d a => some (q, (opClz d a))
  | .ctz q d a => some (q, (opCtz d a))
  | .popc q d a => some (q, (opPopc d a))
  | .min q d a b => some (q, (opMin d a b))
  | .max q d a b => some (q, (opMax d a b))
  | .minn q d a b => some (q, (opMinn d a b))
  | .maxn q d a b => some (q, (opMaxn d a b))
  | .sel q d a b f1 f2 => some (q, (opSel d a b f1 f2))
  | .cmp q d a b bit cond => some (q, (opCmp d a b bit cond))
  | .bset q d a b => some (q, (opBset d a b))
  | .bclr q d a b => some (q, (opBclr d a b))
  | .bins q d a b f1 f2 => some (q, (opBins d a b f1 f2))
  | .extr q d a b w => some (q, (opExtr d a b w))
  | .depo q d a b w => some (q, (opDepo d a b w))
  | .aadd q d a b => some (q, (opAadd d a b))
  | .adiff q d a b => some (q, (opAdiff d a b))
  | .achk q d a b => some (q, (opAchk d a b))
  | .addImm q d a imm => some (q, (opAddImm d a imm))
  | .subImm q d a imm => some (q, (opSubImm d a imm))
  | .mulImm q d a imm => some (q, (opMulImm d a imm))
  | .andImm q d a imm => some (q, (opAndImm d a imm))
  | .andnImm q d a imm => some (q, (opAndnImm d a imm))
  | .orImm q d a imm => some (q, (opOrImm d a imm))
  | .xorImm q d a imm => some (q, (opXorImm d a imm))
  | .shlImm q d a n => some (q, (opShlImm d a n))
  | .shrImm q d a n => some (q, (opShrImm d a n))
  | .sraImm q d a n => some (q, (opSraImm d a n))
  | .rotImm q d a n => some (q, (opRotImm d a n))
  | .minImm q d a imm => some (q, (opMinImm d a imm))
  | .maxImm q d a imm => some (q, (opMaxImm d a imm))
  | .minnImm q d a imm => some (q, (opMinnImm d a imm))
  | .maxnImm q d a imm => some (q, (opMaxnImm d a imm))
  | .cmpImm q d a imm bit cond => some (q, (opCmpImm d a imm bit cond))
  | .bsetImm q d a n => some (q, (opBsetImm d a n))
  | .bclrImm q d a n => some (q, (opBclrImm d a n))
  | .extrImm q d a lo w => some (q, (opExtrImm d a lo w))
  | .depoImm q d a lo w => some (q, (opDepoImm d a lo w))
  | .aaddImm q d a imm => some (q, (opAaddImm d a imm))
  | .achkImm q d a imm => some (q, (opAchkImm d a imm))
  | .movi q d imm => some (q, (opMovi d imm))
  | .movhi q d imm => some (q, (opMovhi d imm))
  | .movc q d num => some (q, (opMovc d num))
  | .movs q a num => some (q, (opMovs a num))
  | .br q off => some (q, (opBr off))
  | .bri q n off => some (q, (opBri n off))
  | .call q n off => some (q, (opCall n off))
  | .calli q n link => some (q, (opCalli n link))
  | .ret q n => some (q, (opRet n))
  | .lset q k src => some (q, (opLset k src))
  | .loop q k off => some (q, (opLoop k off))
  | .lcld q n off => some (q, (opLcld n off))
  | .skset q n => some (q, (opSkset n))
  | .skclr q n => some (q, (opSkclr n))
  | .cont q n off => some (q, (opCont n off))
  | .endTask q => some (q, opEndTask)
  | .trap q code payload => some (q, (opTrap code payload))
  | .brk q tag => some (q, (opBrk tag))
  | .eret q n => some (q, (opEret n))
  | .idle q n => some (q, (opIdle n))
  | .idleWake _ => none
  | .ldB q d a off => some (q, (opLdB d a off))
  | .ldH q d a off => some (q, (opLdH d a off))
  | .ldW q d a off => some (q, (opLdW d a off))
  | .ldD q d a off => some (q, (opLdD d a off))
  | .ldNB q d a off => some (q, (opLdNB d a off))
  | .ldNH q d a off => some (q, (opLdNH d a off))
  | .ldNW q d a off => some (q, (opLdNW d a off))
  | .stB q d a off => some (q, (opStB d a off))
  | .stH q d a off => some (q, (opStH d a off))
  | .stW q d a off => some (q, (opStW d a off))
  | .stD q d a off => some (q, (opStD d a off))
  | .loadComplete _ => none
  | .ldv q m a off step => some (q, (opLdv m a off step))
  | .stv q m msk a off step => some (q, (opStv m msk a off step))
  | .ldvx q m msk a off step => some (q, (opLdvx m msk a off step))
  | .stvx q m msk a off step => some (q, (opStvx m msk a off step))
  | .amoAdd q d a b off => some (q, (opAmoAdd d a b off))
  | .amoMin q d a b off => some (q, (opAmoMin d a b off))
  | .amoMax q d a b off => some (q, (opAmoMax d a b off))
  | .amoMinn q d a b off => some (q, (opAmoMinn d a b off))
  | .amoMaxn q d a b off => some (q, (opAmoMaxn d a b off))
  | .amoAnd q d a b off => some (q, (opAmoAnd d a b off))
  | .amoOr q d a b off => some (q, (opAmoOr d a b off))
  | .amoXor q d a b off => some (q, (opAmoXor d a b off))
  | .amoSwap q d a b off => some (q, (opAmoSwap d a b off))
  | .amocas q d a b off => some (q, (opAmocas d a b off))
  | .amoAddW q d a b off => some (q, (opAmoAddW d a b off))
  | .amoMinW q d a b off => some (q, (opAmoMinW d a b off))
  | .amoMaxW q d a b off => some (q, (opAmoMaxW d a b off))
  | .amoMinnW q d a b off => some (q, (opAmoMinnW d a b off))
  | .amoMaxnW q d a b off => some (q, (opAmoMaxnW d a b off))
  | .amoAndW q d a b off => some (q, (opAmoAndW d a b off))
  | .amoOrW q d a b off => some (q, (opAmoOrW d a b off))
  | .amoXorW q d a b off => some (q, (opAmoXorW d a b off))
  | .amoSwapW q d a b off => some (q, (opAmoSwapW d a b off))
  | .amocasW q d a b off => some (q, (opAmocasW d a b off))
  | .amofadd q d a b off => some (q, (opAmofadd d a b off))
  | .fence q pred succ scope => some (q, (opFence pred succ scope))
  | .pref q lvl a off => some (q, (opPref lvl a off))
  | .barArrive q h => some (q, (opBarArrive h))
  | .barWait q h => some (q, (opBarWait h))
  | .barPhase q => some (q, opBarPhase)
  | .barr q d a h rop phm => some (q, (opBarr d a h rop phm))
  | .barrierNodeComplete _ _ _ => none
  | .cwait q d a b off => some (q, (opCwait d a b off))
  | .cwaitSatisfied _ => none
  | .cread q d a off => some (q, (opCread d a off))
  | .cadd q d a b off => some (q, (opCadd d a b off))
  | .wqenq q m d a => some (q, (opWqenq m d a))
  | .wqdeq q m d a => some (q, (opWqdeq m d a))
  | .wqpeek q m d a => some (q, (opWqpeek m d a))
  | .jdec q d a => some (q, (opJdec d a))
  | .talloc q d a canopy launchLife fbank wcode => some (q, (opTalloc d a canopy launchLife fbank wcode))
  | .tfree q a => some (q, (opTfree a))
  | .tqry q d a sel => some (q, (opTqry d a sel))
  | .balloc q d a => some (q, (opBalloc d a))
  | .cact q a => some (q, (opCact a))
  | .cpre q a => some (q, (opCpre a))
  | .cref q a => some (q, (opCref a))
  | .cld q m a off step => some (q, (opCld m a off step))
  | .cst q m a off step => some (q, (opCst m a off step))
  | .cldDelivery => none
  | .backgroundRefresh _ => none
  | .emergencyRefresh _ => none
  | .htest q d a sel => some (q, (opHtest d a sel))
  | .hreq q a => some (q, (opHreq a))
  | .hpin q a => some (q, (opHpin a))
  | .hrel q a => some (q, (opHrel a))
  | .xcopy q gb gc inc exch => some (q, (opJob 0x100 gb gc inc exch))
  | .xgath q gb gc inc exch => some (q, (opJob 0x101 gb gc inc exch))
  | .xscat q gb gc inc exch => some (q, (opJob 0x102 gb gc inc exch))
  | .xred q gb gc inc exch => some (q, (opJob 0x103 gb gc inc exch))
  | .xconv q gb gc inc exch => some (q, (opJob 0x104 gb gc inc exch))
  | .xfill q gb gc inc exch => some (q, (opJob 0x105 gb gc inc exch))
  | .xcoll q gb gc inc => some (q, (opJob 0x106 gb gc inc false))
  | .xpeer q gb gc inc => some (q, (opJob 0x107 gb gc inc false))
  | .xcanw q gb gc inc => some (q, (opJob 0x108 gb gc inc false))
  | .rtsub q gb gc inc => some (q, (opJob 0x110 gb gc inc false))
  | .spalloc q gb gc inc => some (q, (opJob 0x111 gb gc inc false))
  | .gcmt q gb gc inc => some (q, (opJob 0x112 gb gc inc false))
  | .tapx q gb => some (q, (opTapx gb))
  | .shres q gb => some (q, (opShres gb))
  | .tapq q d a => some (q, (opTapq d a))
  | .shprd q d => some (q, (opShprd d))
  | .tlbi q d a kind => some (q, (opTlbi d a kind))
  | .l1inv q a kind => some (q, (opL1inv a kind))
  | .ctxsv q d a => some (q, (opCtxsv d a))
  | .ctxld q d a => some (q, (opCtxld d a))
  | .mldw q src wt => some (q, (opMldw src wt))
  | .mldwc q r wt half => some (q, (opMldwc r wt half))
  | .planeReady => none
  | .mstrm q acc src arow r sw step => some (q, (opMstrm acc src arow r sw step))
  | .mbatch q acc src arow r sw step => some (q, (opMbatch acc src arow r sw step))
  | .mdrain q acc dst chk cmask tt rs cs pack step => some (q, (opMdrain acc dst chk cmask tt rs cs pack step))
  | .mzero q acc => some (q, (opMzero acc))
  | .mfree q acc => some (q, (opMfree acc))
  | .mscl q src col => some (q, (opMscl src col))
  | .mcall q entry acc => some (q, (opMcall entry acc))
  | .mmpw q src r tbl => some (q, (opMmpw src r tbl))
  | .mstat q r wait => some (q, (opMstat r wait))
  | .wload _ _ => none
  | .wswap => none
  | .stream _ _ => none
  | .accum _ _ _ => none
  | .drain _ _ _ _ _ _ _ _ => none
  | .mask _ => none
  | .microLoop _ _ => none
  | .microStep _ _ => none
  | .param _ _ _ _ _ _ => none
  | .branchz _ _ => none
  | .waitw => none
  | .scale _ _ => none
  | .nopm _ => none
  | .endm => none
  | .vadd q ty d a b step => some (q, (opVadd ty d a b step))
  | .vsub q ty d a b step => some (q, (opVsub ty d a b step))
  | .vmul q ty d a b step => some (q, (opVmul ty d a b step))
  | .vfma q ty d a b step => some (q, (opVfma ty d a b step))
  | .vfms q ty d a b step => some (q, (opVfms ty d a b step))
  | .vmax q ty d a b step => some (q, (opVmax ty d a b step))
  | .vmin q ty d a b step => some (q, (opVmin ty d a b step))
  | .vabs q ty d a step => some (q, (opVabs ty d a step))
  | .vneg q ty d a step => some (q, (opVneg ty d a step))
  | .vrcp q ty d a step => some (q, (opVrcp ty d a step))
  | .vrsq q ty d a step => some (q, (opVrsq ty d a step))
  | .vexp2 q ty d a step => some (q, (opVexp2 ty d a step))
  | .vlog2 q ty d a step => some (q, (opVlog2 ty d a step))
  | .vcmp q ty d a cond step => some (q, (opVcmp ty d a cond step))
  | .vsel q ty d a b step => some (q, (opVsel ty d a b step))
  | .vand q ty d a b step => some (q, (opVand ty d a b step))
  | .vor q ty d a b step => some (q, (opVor ty d a b step))
  | .vxor q ty d a b step => some (q, (opVxor ty d a b step))
  | .vnot q ty d a step => some (q, (opVnot ty d a step))
  | .vshl q ty d a sh step => some (q, (opVshl ty d a sh step))
  | .vshr q ty d a sh step => some (q, (opVshr ty d a sh step))
  | .vsra q ty d a sh step => some (q, (opVsra ty d a sh step))
  | .vcvt q ty d a dt sf part step => some (q, (opVcvt ty d a dt sf part step))
  | .vpack q ty d a w sat part step => some (q, (opVpack ty d a w sat part step))
  | .vunpk q ty d a w part step => some (q, (opVunpk ty d a w part step))
  | .vbcst q ty d a idx step => some (q, (opVbcst ty d a idx step))
  | .vmov q ty d a step => some (q, (opVmov ty d a step))
  | .vperm q ty d a b step => some (q, (opVperm ty d a b step))
  | .vrot q ty d a sh step => some (q, (opVrot ty d a sh step))
  | .vred q ty d a rop len step => some (q, (opVred ty d a rop len step))
  | .vscan q ty d a rop excl len step => some (q, (opVscan ty d a rop excl len step))
  | .vnorm q ty d a len step => some (q, (opVnorm ty d a len step))
  | .vclamp q ty d a b step => some (q, (opVclamp ty d a b step))
  | .vlut q ty d a b step => some (q, (opVlut ty d a b step))
  | .vbmt q ty d a b step => some (q, (opVbmt ty d a b step))
  | .vscatx q ty d a b step => some (q, (opVscatx ty d a b step))
  | .vgathx q ty d a b step => some (q, (opVgathx ty d a b step))
  | .vcnt q ty d a step => some (q, (opVcnt ty d a step))
  | .vmatch q ty d a b step => some (q, (opVmatch ty d a b step))
  | .vpsum q ty d a lane lv step => some (q, (opVpsum ty d a lane lv step))
  | .vdsc q ty d a hnd last first step => some (q, (opVdsc ty d a hnd last first step))
  | .vrng q ty d a step => some (q, (opVrng ty d a step))
  | .vstat q ty d form => some (q, (opVstat ty d form.clr form.step))
  | .rweRingRefill _ => none
  | .bundleIssue _ _ _ => none
  | .secondaryForcedIssue _ _ => none
  | .segmentOverrun _ => none
  | .sliceBoundary => none
  | .arbitrate _ => none
  | .urgentSave _ => none
  | .phaseNodeComplete _ _ _ => none
  | .phaseDrainDone _ => none
  | .phaseExchangeDone _ => none
  | .settlement _ => none
  | .tapCompare _ _ => none
  | .phaseFlip _ => none
  | .phaseStall _ => none
  | .operatorExpand _ => none
  | .shapeResolution _ => none
  | .jobStart _ _ => none
  | .jobComplete _ _ => none
  | .fabricTimeout _ => none
  | .routerSubmission _ => none
  | .orchardReadIssue _ => none
  | .orchardPageLand _ _ _ => none
  | .evictionEnd _ => none
  | .relocationStart _ => none
  | .relocationCommit _ _ => none
  | .blockErase _ _ => none
  | .hbmAccess _ _ _ _ _ => none
  | .hbmMgmtWindowEnd _ _ _ => none
  | .hbmRowIdleClose _ _ _ => none
  | .remapReload _ _ _ => none
  | .linkCrc _ _ => none
  | .linkRetrainDone _ _ _ => none
  | .thermalReading _ _ _ _ _ => none
  | .inletOvertemp _ => none
  | .inboundRmaWrite _ _ _ => none
  | .cqTailDoorbell _ _ => none
  | .cqResetDoorbell _ => none
  | .packetParse _ => none
  | .nop _ => none
  | .launch _ => none
  | .pred _ => none
  | .predTest _ => none
  | .signalAdd _ => none
  | .signalStore _ => none
  | .signalChainWord _ => none
  | .signalRefused _ => none
  | .waitc _ => none
  | .waitcSatisfied _ => none
  | .hcopy _ => none
  | .cqFence _ => none
  | .seqcfg _ => none
  | .seedseq _ => none
  | .tapcfgPoint _ => none
  | .tapcfgSteer _ => none
  | .sptcfg _ => none
  | .qcfg _ => none
  | .hbindBind _ => none
  | .hbindClear _ => none
  | .hbindRebind _ => none
  | .hbindRefused _ => none
  | .evqcfg _ => none
  | .eventRingRoom _ => none
  | .preempt _ => none
  | .resume _ => none
  | .queryStatus _ => none
  | .queryQueue _ => none
  | .querySlots _ => none
  | .queryRefused _ => none
  | .patch _ => none
  | .attest _ => none
  | .ctrlMismatch _ => none
  | .workerSelfcheckFail => none
  | .powerOn _ _ => none
  | .deviceReset _ => none
  | .pctlStart _ => none
  | .pctlStop _ => none
  | .pctlFlagClear _ => none
  | .partitionTableWrite _ _ _ => none
  | .imageLoad _ _ _ => none
  | .imageLoadDone => none
  | .arbSliceWrite _ => none
  | .arbOvrcntClear _ => none
  | .portmapWrite _ => none
  | .psWrite _ _ _ => none
  | .canopyDebtClear _ => none
  | .hintdropClear _ => none
  | .hbmWatchWrite _ _ _ => none
  | .hbmCounterClear _ _ _ => none
  | .registerWrite _ _ => none
  | .stkfail _ => none
  | .peerReject _ => none
  | .collMismatch _ => none
  | .inletFallsBelow40 _ => none
  | .ctrlRecoveryDone => none

/-- The STEP bit of an op (R226). -/
def stepOf : Instr → Bool
  | .add _ _ _ _ => false
  | .sub _ _ _ _ => false
  | .mul _ _ _ _ => false
  | .mulh _ _ _ _ => false
  | .mulhn _ _ _ _ => false
  | .div _ _ _ _ => false
  | .divn _ _ _ _ => false
  | .rem _ _ _ _ => false
  | .remn _ _ _ _ => false
  | .and _ _ _ _ => false
  | .andn _ _ _ _ => false
  | .or _ _ _ _ => false
  | .xor _ _ _ _ => false
  | .nor _ _ _ _ => false
  | .shl _ _ _ _ => false
  | .shr _ _ _ _ => false
  | .sra _ _ _ _ => false
  | .rot _ _ _ _ => false
  | .brev _ _ _ => false
  | .clz _ _ _ => false
  | .ctz _ _ _ => false
  | .popc _ _ _ => false
  | .min _ _ _ _ => false
  | .max _ _ _ _ => false
  | .minn _ _ _ _ => false
  | .maxn _ _ _ _ => false
  | .sel _ _ _ _ _ _ => false
  | .cmp _ _ _ _ _ _ => false
  | .bset _ _ _ _ => false
  | .bclr _ _ _ _ => false
  | .bins _ _ _ _ _ _ => false
  | .extr _ _ _ _ _ => false
  | .depo _ _ _ _ _ => false
  | .aadd _ _ _ _ => false
  | .adiff _ _ _ _ => false
  | .achk _ _ _ _ => false
  | .addImm _ _ _ _ => false
  | .subImm _ _ _ _ => false
  | .mulImm _ _ _ _ => false
  | .andImm _ _ _ _ => false
  | .andnImm _ _ _ _ => false
  | .orImm _ _ _ _ => false
  | .xorImm _ _ _ _ => false
  | .shlImm _ _ _ _ => false
  | .shrImm _ _ _ _ => false
  | .sraImm _ _ _ _ => false
  | .rotImm _ _ _ _ => false
  | .minImm _ _ _ _ => false
  | .maxImm _ _ _ _ => false
  | .minnImm _ _ _ _ => false
  | .maxnImm _ _ _ _ => false
  | .cmpImm _ _ _ _ _ _ => false
  | .bsetImm _ _ _ _ => false
  | .bclrImm _ _ _ _ => false
  | .extrImm _ _ _ _ _ => false
  | .depoImm _ _ _ _ _ => false
  | .aaddImm _ _ _ _ => false
  | .achkImm _ _ _ _ => false
  | .movi _ _ _ => false
  | .movhi _ _ _ => false
  | .movc _ _ _ => false
  | .movs _ _ _ => false
  | .br _ _ => false
  | .bri _ _ _ => false
  | .call _ _ _ => false
  | .calli _ _ _ => false
  | .ret _ _ => false
  | .lset _ _ _ => false
  | .loop _ _ _ => false
  | .lcld _ _ _ => false
  | .skset _ _ => false
  | .skclr _ _ => false
  | .cont _ _ _ => false
  | .endTask _ => false
  | .trap _ _ _ => false
  | .brk _ _ => false
  | .eret _ _ => false
  | .idle _ _ => false
  | .idleWake _ => false
  | .ldB _ _ _ _ => false
  | .ldH _ _ _ _ => false
  | .ldW _ _ _ _ => false
  | .ldD _ _ _ _ => false
  | .ldNB _ _ _ _ => false
  | .ldNH _ _ _ _ => false
  | .ldNW _ _ _ _ => false
  | .stB _ _ _ _ => false
  | .stH _ _ _ _ => false
  | .stW _ _ _ _ => false
  | .stD _ _ _ _ => false
  | .loadComplete _ => false
  | .ldv _ _ _ _ step => step
  | .stv _ _ _ _ _ step => step
  | .ldvx _ _ _ _ _ step => step
  | .stvx _ _ _ _ _ step => step
  | .amoAdd _ _ _ _ _ => false
  | .amoMin _ _ _ _ _ => false
  | .amoMax _ _ _ _ _ => false
  | .amoMinn _ _ _ _ _ => false
  | .amoMaxn _ _ _ _ _ => false
  | .amoAnd _ _ _ _ _ => false
  | .amoOr _ _ _ _ _ => false
  | .amoXor _ _ _ _ _ => false
  | .amoSwap _ _ _ _ _ => false
  | .amocas _ _ _ _ _ => false
  | .amoAddW _ _ _ _ _ => false
  | .amoMinW _ _ _ _ _ => false
  | .amoMaxW _ _ _ _ _ => false
  | .amoMinnW _ _ _ _ _ => false
  | .amoMaxnW _ _ _ _ _ => false
  | .amoAndW _ _ _ _ _ => false
  | .amoOrW _ _ _ _ _ => false
  | .amoXorW _ _ _ _ _ => false
  | .amoSwapW _ _ _ _ _ => false
  | .amocasW _ _ _ _ _ => false
  | .amofadd _ _ _ _ _ => false
  | .fence _ _ _ _ => false
  | .pref _ _ _ _ => false
  | .barArrive _ _ => false
  | .barWait _ _ => false
  | .barPhase _ => false
  | .barr _ _ _ _ _ _ => false
  | .barrierNodeComplete _ _ _ => false
  | .cwait _ _ _ _ _ => false
  | .cwaitSatisfied _ => false
  | .cread _ _ _ _ => false
  | .cadd _ _ _ _ _ => false
  | .wqenq _ _ _ _ => false
  | .wqdeq _ _ _ _ => false
  | .wqpeek _ _ _ _ => false
  | .jdec _ _ _ => false
  | .talloc _ _ _ _ _ _ _ => false
  | .tfree _ _ => false
  | .tqry _ _ _ _ => false
  | .balloc _ _ _ => false
  | .cact _ _ => false
  | .cpre _ _ => false
  | .cref _ _ => false
  | .cld _ _ _ _ step => step
  | .cst _ _ _ _ step => step
  | .cldDelivery => false
  | .backgroundRefresh _ => false
  | .emergencyRefresh _ => false
  | .htest _ _ _ _ => false
  | .hreq _ _ => false
  | .hpin _ _ => false
  | .hrel _ _ => false
  | .xcopy _ _ _ _ _ => false
  | .xgath _ _ _ _ _ => false
  | .xscat _ _ _ _ _ => false
  | .xred _ _ _ _ _ => false
  | .xconv _ _ _ _ _ => false
  | .xfill _ _ _ _ _ => false
  | .xcoll _ _ _ _ => false
  | .xpeer _ _ _ _ => false
  | .xcanw _ _ _ _ => false
  | .rtsub _ _ _ _ => false
  | .spalloc _ _ _ _ => false
  | .gcmt _ _ _ _ => false
  | .tapx _ _ => false
  | .shres _ _ => false
  | .tapq _ _ _ => false
  | .shprd _ _ => false
  | .tlbi _ _ _ _ => false
  | .l1inv _ _ _ => false
  | .ctxsv _ _ _ => false
  | .ctxld _ _ _ => false
  | .mldw _ _ _ => false
  | .mldwc _ _ _ _ => false
  | .planeReady => false
  | .mstrm _ _ _ _ _ _ step => step
  | .mbatch _ _ _ _ _ _ step => step
  | .mdrain _ _ _ _ _ _ _ _ _ step => step
  | .mzero _ _ => false
  | .mfree _ _ => false
  | .mscl _ _ _ => false
  | .mcall _ _ _ => false
  | .mmpw _ _ _ _ => false
  | .mstat _ _ _ => false
  | .wload _ _ => false
  | .wswap => false
  | .stream _ _ => false
  | .accum _ _ _ => false
  | .drain _ _ _ _ _ _ _ _ => false
  | .mask _ => false
  | .microLoop _ _ => false
  | .microStep _ _ => false
  | .param _ _ _ _ _ _ => false
  | .branchz _ _ => false
  | .waitw => false
  | .scale _ _ => false
  | .nopm _ => false
  | .endm => false
  | .vadd _ _ _ _ _ step => step
  | .vsub _ _ _ _ _ step => step
  | .vmul _ _ _ _ _ step => step
  | .vfma _ _ _ _ _ step => step
  | .vfms _ _ _ _ _ step => step
  | .vmax _ _ _ _ _ step => step
  | .vmin _ _ _ _ _ step => step
  | .vabs _ _ _ _ step => step
  | .vneg _ _ _ _ step => step
  | .vrcp _ _ _ _ step => step
  | .vrsq _ _ _ _ step => step
  | .vexp2 _ _ _ _ step => step
  | .vlog2 _ _ _ _ step => step
  | .vcmp _ _ _ _ _ step => step
  | .vsel _ _ _ _ _ step => step
  | .vand _ _ _ _ _ step => step
  | .vor _ _ _ _ _ step => step
  | .vxor _ _ _ _ _ step => step
  | .vnot _ _ _ _ step => step
  | .vshl _ _ _ _ _ step => step
  | .vshr _ _ _ _ _ step => step
  | .vsra _ _ _ _ _ step => step
  | .vcvt _ _ _ _ _ _ _ step => step
  | .vpack _ _ _ _ _ _ _ step => step
  | .vunpk _ _ _ _ _ _ step => step
  | .vbcst _ _ _ _ _ step => step
  | .vmov _ _ _ _ step => step
  | .vperm _ _ _ _ _ step => step
  | .vrot _ _ _ _ _ step => step
  | .vred _ _ _ _ _ _ step => step
  | .vscan _ _ _ _ _ _ _ step => step
  | .vnorm _ _ _ _ _ step => step
  | .vclamp _ _ _ _ _ step => step
  | .vlut _ _ _ _ _ step => step
  | .vbmt _ _ _ _ _ step => step
  | .vscatx _ _ _ _ _ step => step
  | .vgathx _ _ _ _ _ step => step
  | .vcnt _ _ _ _ step => step
  | .vmatch _ _ _ _ _ step => step
  | .vpsum _ _ _ _ _ _ step => step
  | .vdsc _ _ _ _ _ _ _ step => step
  | .vrng _ _ _ _ step => step
  | .vstat _ _ _ form => form.step
  | .rweRingRefill _ => false
  | .bundleIssue _ _ _ => false
  | .secondaryForcedIssue _ _ => false
  | .segmentOverrun _ => false
  | .sliceBoundary => false
  | .arbitrate _ => false
  | .urgentSave _ => false
  | .phaseNodeComplete _ _ _ => false
  | .phaseDrainDone _ => false
  | .phaseExchangeDone _ => false
  | .settlement _ => false
  | .tapCompare _ _ => false
  | .phaseFlip _ => false
  | .phaseStall _ => false
  | .operatorExpand _ => false
  | .shapeResolution _ => false
  | .jobStart _ _ => false
  | .jobComplete _ _ => false
  | .fabricTimeout _ => false
  | .routerSubmission _ => false
  | .orchardReadIssue _ => false
  | .orchardPageLand _ _ _ => false
  | .evictionEnd _ => false
  | .relocationStart _ => false
  | .relocationCommit _ _ => false
  | .blockErase _ _ => false
  | .hbmAccess _ _ _ _ _ => false
  | .hbmMgmtWindowEnd _ _ _ => false
  | .hbmRowIdleClose _ _ _ => false
  | .remapReload _ _ _ => false
  | .linkCrc _ _ => false
  | .linkRetrainDone _ _ _ => false
  | .thermalReading _ _ _ _ _ => false
  | .inletOvertemp _ => false
  | .inboundRmaWrite _ _ _ => false
  | .cqTailDoorbell _ _ => false
  | .cqResetDoorbell _ => false
  | .packetParse _ => false
  | .nop _ => false
  | .launch _ => false
  | .pred _ => false
  | .predTest _ => false
  | .signalAdd _ => false
  | .signalStore _ => false
  | .signalChainWord _ => false
  | .signalRefused _ => false
  | .waitc _ => false
  | .waitcSatisfied _ => false
  | .hcopy _ => false
  | .cqFence _ => false
  | .seqcfg _ => false
  | .seedseq _ => false
  | .tapcfgPoint _ => false
  | .tapcfgSteer _ => false
  | .sptcfg _ => false
  | .qcfg _ => false
  | .hbindBind _ => false
  | .hbindClear _ => false
  | .hbindRebind _ => false
  | .hbindRefused _ => false
  | .evqcfg _ => false
  | .eventRingRoom _ => false
  | .preempt _ => false
  | .resume _ => false
  | .queryStatus _ => false
  | .queryQueue _ => false
  | .querySlots _ => false
  | .queryRefused _ => false
  | .patch _ => false
  | .attest _ => false
  | .ctrlMismatch _ => false
  | .workerSelfcheckFail => false
  | .powerOn _ _ => false
  | .deviceReset _ => false
  | .pctlStart _ => false
  | .pctlStop _ => false
  | .pctlFlagClear _ => false
  | .partitionTableWrite _ _ _ => false
  | .imageLoad _ _ _ => false
  | .imageLoadDone => false
  | .arbSliceWrite _ => false
  | .arbOvrcntClear _ => false
  | .portmapWrite _ => false
  | .psWrite _ _ _ => false
  | .canopyDebtClear _ => false
  | .hintdropClear _ => false
  | .hbmWatchWrite _ _ _ => false
  | .hbmCounterClear _ _ _ => false
  | .registerWrite _ _ => false
  | .stkfail _ => false
  | .peerReject _ => false
  | .collMismatch _ => false
  | .inletFallsBelow40 _ => false
  | .ctrlRecoveryDone => false

/-- The registers that an op reads and writes. -/
structure Foot where
  rd : List RegId
  wr : List RegId
  deriving DecidableEq, Repr

/-- A source register: G0 is no register to read (R62). -/
def gR (r : Reg) : List RegId := if r = 0 then [] else [.g r.toNat]

/-- A destination register. -/
def gW (r : Reg) : List RegId := [.g r.toNat]

/-- A control register named by MOVC or MOVS; FLAGS, MXC and SEQSTAT are exempt (R85, R231). -/
def ctlR (n : Nat) : List RegId :=
  if n = 0 || n = 1 || n = 4 then []
  else if 0x10 ≤ n && n ≤ 0x17 then [.lc (n - 0x10)]
  else if n = 0x18 then [.skipp]
  else [.ctl n]

/-- A format register that a type code uses (R85). -/
def fmtR (t : Nat) : List RegId := if t < 16 then [.ctl (0x20 + t)] else []

/-- A tile descriptor that an op uses, with the format it names (R85). -/
def tdescR (x : OpCtx) (tile : Nat) : List RegId :=
  .ctl (0x30 + tile) :: fmtR (bits (rget 0 (cur x.rd).tdesc tile).toNat 4 0)

/-- PORTMAP and the bound parameter set of a port operand (R85). -/
def portR (x : OpCtx) (m : Mrf) : List RegId :=
  let b := bits (cur x.rd).portmap.toNat (8 * (mrfIdx m % 8) + 7) (8 * (mrfIdx m % 8))
  .ctl 3 :: (if bit b 7 then (List.range 8).map (fun k => .ctl (0x80 + 8 * (b % 16) + k)) else [])

/-- The rows of an operand (R231): one, or the 32 of a column's or diagonal's tile. -/
def opndR (x : OpCtx) (m : Mrf) (step : Bool) : List RegId :=
  let i := stepIdx m x.j step
  if isPort m then portR x m
  else if mrfDir m = 0 then [.row i]
  else (List.range 32).map (fun k => .row (i - i % 32 + k))

/-- Row k after a row operand. -/
def rowR (x : OpCtx) (m : Mrf) (step : Bool) (k : Nat) : List RegId := [.row (stepIdx m x.j step + k)]

/-- The rows from a row operand to the end of its tile (R340, R341). -/
def restR (x : OpCtx) (m : Mrf) (step : Bool) : List RegId :=
  let i := stepIdx m x.j step
  (List.range (32 - i % 32)).map (fun k => .row (i + k))

/-- The rows that VDSC reads beside its draw row: the row of its handle, or its node's children (R347). -/
def drawR (x : OpCtx) (d a : Mrf) (hnd first step : Bool) : List RegId :=
  let row := stepIdx d x.j step
  let ra := stepIdx a x.j step
  let l (k : Nat) : Nat := laneN x.rd row k
  if bit (l 5) 0 then []
  else if first && (bit (l 3) 31 || l 2 % 2 ^ 31 == 0) then []
  else [.row (if hnd then ra else ra + (if first then 0 else l 1 % 2 ^ 20))]

/-- What VCVT's source type uses (R334). -/
def cvtR (x : OpCtx) (ty : VTy) (a : Mrf) (sf : Nat) (step : Bool) : List RegId :=
  if ty != .nar then [] else if isPort a then fmtR sf else tdescR x (stepIdx a x.j step / 32)

/-- A footprint whose operands may be ports: what a port operand uses is read, also where it is pushed, and the port itself
is no register (R85, R231). -/
def portFoot (rd wr : List RegId) : Foot :=
  let ctl : RegId → Bool := fun r => match r with | .ctl _ => true | .g _ | .row _ | .lc _ | .skipp => false
  ⟨rd ++ wr.filter ctl, wr.filter (fun r => !ctl r)⟩

/-- The storage width of VCVT's source (R334). -/
def cvtStore (x : OpCtx) (ty : VTy) (a : Mrf) (sf : Nat) (step : Bool) : Nat :=
  let c := cur x.rd
  if ty = .nar then
    (tyOfCode (fmtReg c) (if isPort a then sf else bits (rget 0 c.tdesc (stepIdx a x.j step / 32)).toNat 4 0)).store
  else (tyOfVTy ty).store

/-- A narrowing part from ws to wd bits writes some elements of D and counts as a read of it (R323). -/
def partR (x : OpCtx) (ws wd : Nat) (d : Mrf) (step : Bool) : List RegId := if wd < ws then opndR x d step else []

/-- The op writes its MRF row only when the answer lands, and none where it finds no record or no lane is enabled (R286, R292,
R309). -/
def answersRow : Instr → Bool
  | .ldvx _ _ _ _ _ _ => true | .wqdeq _ _ _ _ => true | .wqpeek _ _ _ _ => true | _ => false

/-- The rows or the port that MLDW reads (R356). -/
def weightR (x : OpCtx) (src : Mrf) (wt : Nat) : List RegId :=
  if isPort src then portR x src
  else (List.range (if (tyOfCode (fmtReg (cur x.rd)) wt).store = 4 then 32 else 64)).map (fun k => .row (mrfIdx src + k))

/-- What the activations of MSTRM and MBATCH use (R360, R364). -/
def actR (x : OpCtx) (src : Mrf) (r : Reg) (strm step : Bool) : List RegId :=
  if isPort src then
    portR x src ++ (if strm && r != 0 then fmtR (bits (gRead (cur x.rd) (r.toNat + 1)).toNat 28 24) else [])
  else .row (stepIdx src x.j step) :: tdescR x (stepIdx src x.j step / 32)

/-- The vectors that an op's port operands pop, in source-operand order (R80): of an op without a port operand none. -/
def popsOf (x : OpCtx) : Instr → List Mrf
  | .vadd _ _ _ a b _ | .vsub _ _ _ a b _ | .vmul _ _ _ a b _ | .vfma _ _ _ a b _ | .vfms _ _ _ a b _ | .vmax _ _ _ a b _
  | .vmin _ _ _ a b _ | .vsel _ _ _ a b _ | .vand _ _ _ a b _ | .vor _ _ _ a b _ | .vxor _ _ _ a b _ | .vperm _ _ _ a b _
  | .vclamp _ _ _ a b _ | .vmatch _ _ _ a b _ => [a, b].filter isPort
  | .vabs _ _ _ a _ | .vneg _ _ _ a _ | .vrcp _ _ _ a _ | .vrsq _ _ _ a _ | .vexp2 _ _ _ a _ | .vlog2 _ _ _ a _
  | .vcmp _ _ _ a _ _ | .vnot _ _ _ a _ | .vshl _ _ _ a _ _ | .vshr _ _ _ a _ _ | .vsra _ _ _ a _ _ | .vcvt _ _ _ a _ _ _ _
  | .vpack _ _ _ a _ _ _ _ | .vunpk _ _ _ a _ _ _ | .vbcst _ _ _ a _ _ | .vmov _ _ _ a _ | .vrot _ _ _ a _ _
  | .vred _ _ _ a _ _ _ | .vscan _ _ _ a _ _ _ _ | .vnorm _ _ _ a _ _ | .vlut _ _ _ a _ _ | .vbmt _ _ _ a _ _
  | .vscatx _ _ _ a _ _ | .vgathx _ _ _ a _ _ | .vcnt _ _ _ a _ | .vpsum _ _ _ a _ _ _ | .vrng _ _ _ a _ => [a].filter isPort
  | .stv _ m _ _ _ _ => [m].filter isPort
  | .mldw _ src wt =>
    (List.replicate (if (tyOfCode (fmtReg (cur x.rd)) wt.toNat).store = 4 then 32 else 64) src).filter isPort
  | .mstrm _ _ src _ _ _ _ => [src].filter isPort
  | .mbatch _ _ src _ _ _ _ => [src].filter isPort
  | _ => []

/-- The walks of the ports moved on past the vectors that an op pops, as far as they can be read: an op that faults or waits resolves
its ports too, before those of the later slots (R80). -/
def popAll (x : OpCtx) : List Mrf → State → State
  | [], s => s
  | m :: r, s =>
    match portRead x (mrfIdx m) s with
    | .ok (_, t) => popAll x r (modCur s (fun c => { c with walk := (cur t).walk }))
    | .error _ => s

/-- The registers of a job card (R229). -/
def cardR (gb gc : Reg) : List RegId := gR gb ++ gR (gb + 1) ++ gR (gb + 2) ++ gR (gb + 3) ++ gR gc

/-- The formats of XCONV's type codes (R388). -/
def convReads (x : OpCtx) (gb : Reg) : List RegId :=
  let w (k : Nat) : Nat := (gRead (cur x.rd) (gb.toNat + k)).toNat
  let k : Card := { op := 0x104, w0 := w 0, w1 := w 1, w2 := w 2, w3 := w 3 }
  fmtR k.st ++ fmtR k.typ

/-- The commit rows of GCMT (R396). -/
def gcmtReads (x : OpCtx) (gb : Reg) : List RegId :=
  let w := (gRead (cur x.rd) gb.toNat).toNat
  (List.range (bits w 22 16)).map (fun k => .row (bits w 10 0 + k))

/-- The card of a TAPX that acts (R177). -/
def tapOf (x : OpCtx) (gb : Reg) : Option TapCard :=
  let c := cur x.rd
  let w0 := (gRead c gb.toNat).toNat
  let w1 := (gRead c (gb.toNat + 1)).toNat
  let t := tapCard w0 w1
  let l := launchOf x.rd c.launch
  if tapFieldsOk w0 w1 && tapDeclared l t.point && tapEn x.rd (tapTab l) t.point && tapStage x.rd (tapTab l) t.point == t.stage
  then some t else none

/-- The rows that TAPX reads: its slot map and its residual rows (R176). -/
def tapReads (x : OpCtx) (gb : Reg) : List RegId :=
  match tapOf x gb with
  | none => []
  | some t => .row t.map :: (List.range t.count).map (fun i => .row (t.first + i))

/-- The rows that TAPX writes: those it steers (R178). -/
def tapWrites (x : OpCtx) (gb : Reg) : List RegId :=
  match tapOf x gb with
  | none => []
  | some t =>
    let s := x.rd
    ((List.range t.count).filter (fun i =>
      match (tapSlot s t i).bind (slotEntry s) with
      | none => false
      | some e => bit (tapWord s (tapTab (launchOf s (cur s).launch)) t.point 1) e && !bit (slotWord s ((tapSlot s t i).getD 0) 0).toNat 29)).map
      (fun i => .row (t.first + i))

/-- The footprint of an op. The copy of MP0 to MP7 that MCALL takes counts as no read: R85 does not name it among the implicit reads
(DESIGN CHOICE, notes/assumptions/92.md). -/
def foot (x : OpCtx) : Instr → Foot
  | .add _ d a b => .mk (gR a ++ gR b) (gW d)
  | .sub _ d a b => .mk (gR a ++ gR b) (gW d)
  | .mul _ d a b => .mk (gR a ++ gR b) (gW d)
  | .mulh _ d a b => .mk (gR a ++ gR b) (gW d)
  | .mulhn _ d a b => .mk (gR a ++ gR b) (gW d)
  | .div _ d a b => .mk (gR a ++ gR b) (gW d)
  | .divn _ d a b => .mk (gR a ++ gR b) (gW d)
  | .rem _ d a b => .mk (gR a ++ gR b) (gW d)
  | .remn _ d a b => .mk (gR a ++ gR b) (gW d)
  | .and _ d a b => .mk (gR a ++ gR b) (gW d)
  | .andn _ d a b => .mk (gR a ++ gR b) (gW d)
  | .or _ d a b => .mk (gR a ++ gR b) (gW d)
  | .xor _ d a b => .mk (gR a ++ gR b) (gW d)
  | .nor _ d a b => .mk (gR a ++ gR b) (gW d)
  | .shl _ d a b => .mk (gR a ++ gR b) (gW d)
  | .shr _ d a b => .mk (gR a ++ gR b) (gW d)
  | .sra _ d a b => .mk (gR a ++ gR b) (gW d)
  | .rot _ d a b => .mk (gR a ++ gR b) (gW d)
  | .brev _ d a => .mk (gR a) (gW d)
  | .clz _ d a => .mk (gR a) (gW d)
  | .ctz _ d a => .mk (gR a) (gW d)
  | .popc _ d a => .mk (gR a) (gW d)
  | .min _ d a b => .mk (gR a ++ gR b) (gW d)
  | .max _ d a b => .mk (gR a ++ gR b) (gW d)
  | .minn _ d a b => .mk (gR a ++ gR b) (gW d)
  | .maxn _ d a b => .mk (gR a ++ gR b) (gW d)
  | .sel _ d a b _ f2 => .mk (gR a ++ gR b ++ gR f2) (gW d)
  | .cmp _ d a b _ _ => .mk (gR a ++ gR b ++ gR d) (gW d)
  | .bset _ d a b => .mk (gR a ++ gR b) (gW d)
  | .bclr _ d a b => .mk (gR a ++ gR b) (gW d)
  | .bins _ d a b _ _ => .mk (gR a ++ gR b) (gW d)
  | .extr _ d a b _ => .mk (gR a ++ gR b) (gW d)
  | .depo _ d a b _ => .mk (gR a ++ gR b ++ gR d) (gW d)
  | .aadd _ d a b => .mk (gR a ++ gR b) (gW d)
  | .adiff _ d a b => .mk (gR a ++ gR b) (gW d)
  | .achk _ d a b => .mk (gR a ++ gR b) (gW d)
  | .addImm _ d a _ => .mk (gR a) (gW d)
  | .subImm _ d a _ => .mk (gR a) (gW d)
  | .mulImm _ d a _ => .mk (gR a) (gW d)
  | .andImm _ d a _ => .mk (gR a) (gW d)
  | .andnImm _ d a _ => .mk (gR a) (gW d)
  | .orImm _ d a _ => .mk (gR a) (gW d)
  | .xorImm _ d a _ => .mk (gR a) (gW d)
  | .shlImm _ d a _ => .mk (gR a) (gW d)
  | .shrImm _ d a _ => .mk (gR a) (gW d)
  | .sraImm _ d a _ => .mk (gR a) (gW d)
  | .rotImm _ d a _ => .mk (gR a) (gW d)
  | .minImm _ d a _ => .mk (gR a) (gW d)
  | .maxImm _ d a _ => .mk (gR a) (gW d)
  | .minnImm _ d a _ => .mk (gR a) (gW d)
  | .maxnImm _ d a _ => .mk (gR a) (gW d)
  | .cmpImm _ d a _ _ _ => .mk (gR a ++ gR d) (gW d)
  | .bsetImm _ d a _ => .mk (gR a) (gW d)
  | .bclrImm _ d a _ => .mk (gR a) (gW d)
  | .extrImm _ d a _ _ => .mk (gR a) (gW d)
  | .depoImm _ d a _ _ => .mk (gR a ++ gR d) (gW d)
  | .aaddImm _ d a _ => .mk (gR a) (gW d)
  | .achkImm _ d a _ => .mk (gR a) (gW d)
  | .movi _ d _ => .mk [] (gW d)
  | .movhi _ d _ => .mk (gR d) (gW d)
  | .movc _ d num => .mk (ctlR num.toNat) (gW d)
  | .movs _ a num => .mk (gR a) (ctlR num.toNat)
  | .br _ _ => .mk [] []
  | .bri _ n _ => .mk (gR n) []
  | .call _ n _ => .mk [] (gW n)
  | .calli _ n link => .mk (gR n) (gW link)
  | .ret _ n => .mk (gR n) []
  | .lset _ k src => .mk (match src with | .imm _ => [] | .reg r => gR r) [.lc k.toNat]
  | .loop _ k _ => .mk [.lc k.toNat] [.lc k.toNat]
  | .lcld _ n _ => .mk (gR n) (.skipp :: (List.range 8).map .lc)
  | .skset _ _ => .mk [] [.skipp]
  | .skclr _ _ => .mk [] [.skipp]
  | .cont _ n _ => .mk (gR n) []
  | .endTask _ => .mk [] []
  | .trap _ _ _ => .mk [] []
  | .brk _ _ => .mk [] []
  | .eret _ n => .mk (gR n) []
  | .idle _ n => .mk (gR n) []
  | .idleWake _ => .mk [] []
  | .ldB _ d a _ => .mk (gR a) (gW d)
  | .ldH _ d a _ => .mk (gR a) (gW d)
  | .ldW _ d a _ => .mk (gR a) (gW d)
  | .ldD _ d a _ => .mk (gR a) (gW d)
  | .ldNB _ d a _ => .mk (gR a) (gW d)
  | .ldNH _ d a _ => .mk (gR a) (gW d)
  | .ldNW _ d a _ => .mk (gR a) (gW d)
  | .stB _ d a _ => .mk (gR d ++ gR a) []
  | .stH _ d a _ => .mk (gR d ++ gR a) []
  | .stW _ d a _ => .mk (gR d ++ gR a) []
  | .stD _ d a _ => .mk (gR d ++ gR a) []
  | .loadComplete _ => .mk [] []
  | .ldv _ m a _ step => portFoot (gR a) (opndR x m step)
  | .stv _ m msk a _ step => portFoot (gR msk ++ gR a ++ opndR x m step) []
  | .ldvx _ m msk a _ step => .mk (gR msk ++ gR a ++ rowR x m step 0) (rowR x m step 1)
  | .stvx _ m msk a _ step => .mk (gR msk ++ gR a ++ rowR x m step 0 ++ rowR x m step 1) []
  | .amoAdd _ d a b _ => .mk (gR a ++ gR b) (gW d)
  | .amoMin _ d a b _ => .mk (gR a ++ gR b) (gW d)
  | .amoMax _ d a b _ => .mk (gR a ++ gR b) (gW d)
  | .amoMinn _ d a b _ => .mk (gR a ++ gR b) (gW d)
  | .amoMaxn _ d a b _ => .mk (gR a ++ gR b) (gW d)
  | .amoAnd _ d a b _ => .mk (gR a ++ gR b) (gW d)
  | .amoOr _ d a b _ => .mk (gR a ++ gR b) (gW d)
  | .amoXor _ d a b _ => .mk (gR a ++ gR b) (gW d)
  | .amoSwap _ d a b _ => .mk (gR a ++ gR b) (gW d)
  | .amocas _ d a b _ => .mk (gR a ++ gR b ++ gR d) (gW d)
  | .amoAddW _ d a b _ => .mk (gR a ++ gR b) (gW d)
  | .amoMinW _ d a b _ => .mk (gR a ++ gR b) (gW d)
  | .amoMaxW _ d a b _ => .mk (gR a ++ gR b) (gW d)
  | .amoMinnW _ d a b _ => .mk (gR a ++ gR b) (gW d)
  | .amoMaxnW _ d a b _ => .mk (gR a ++ gR b) (gW d)
  | .amoAndW _ d a b _ => .mk (gR a ++ gR b) (gW d)
  | .amoOrW _ d a b _ => .mk (gR a ++ gR b) (gW d)
  | .amoXorW _ d a b _ => .mk (gR a ++ gR b) (gW d)
  | .amoSwapW _ d a b _ => .mk (gR a ++ gR b) (gW d)
  | .amocasW _ d a b _ => .mk (gR a ++ gR b ++ gR d) (gW d)
  | .amofadd _ d a b _ => .mk (gR a ++ gR b) (gW d)
  | .fence _ _ _ _ => .mk [] []
  | .pref _ _ a _ => .mk (gR a) []
  | .barArrive _ _ => .mk [] []
  | .barWait _ _ => .mk [] []
  | .barPhase _ => .mk [] []
  | .barr _ d a _ _ _ => .mk (gR a) (gW d)
  | .barrierNodeComplete _ _ _ => .mk [] []
  | .cwait _ d a b _ => .mk (gR a ++ gR b) (gW d)
  | .cwaitSatisfied _ => .mk [] []
  | .cread _ d a _ => .mk (gR a) (gW d)
  | .cadd _ d a b _ => .mk (gR a ++ gR b) (gW d)
  | .wqenq _ m d a => .mk (gR a ++ rowR x m false 0) (gW d)
  | .wqdeq _ m d a => .mk (gR a) (gW d ++ rowR x m false 0)
  | .wqpeek _ m d a => .mk (gR a) (gW d ++ rowR x m false 0)
  | .jdec _ d a => .mk (gR a) (gW d)
  | .talloc _ d a _ _ _ _ => .mk (gR a) (gW d)
  | .tfree _ a => .mk (gR a) []
  | .tqry _ d a _ => .mk (gR a) (gW d)
  | .balloc _ d a => .mk (gR a) (gW d)
  | .cact _ a => .mk (gR a) []
  | .cpre _ a => .mk (gR a) []
  | .cref _ a => .mk (gR a) []
  | .cld _ _ a _ _ => .mk (gR a) []
  | .cst _ m a _ step => .mk (gR a ++ rowR x m step 0) []
  | .cldDelivery => .mk [] []
  | .backgroundRefresh _ => .mk [] []
  | .emergencyRefresh _ => .mk [] []
  | .htest _ d a _ => .mk (gR a) (gW d)
  | .hreq _ a => .mk (gR a) []
  | .hpin _ a => .mk (gR a) []
  | .hrel _ a => .mk (gR a) []
  | .xcopy _ gb gc _ _ => .mk (cardR gb gc) []
  | .xgath _ gb gc _ _ => .mk (cardR gb gc) []
  | .xscat _ gb gc _ _ => .mk (cardR gb gc) []
  | .xred _ gb gc _ _ => .mk (cardR gb gc) []
  | .xconv _ gb gc _ _ => .mk (cardR gb gc ++ convReads x gb) []
  | .xfill _ gb gc _ _ => .mk (cardR gb gc) []
  | .xcoll _ gb gc _ => .mk (cardR gb gc) []
  | .xpeer _ gb gc _ => .mk (cardR gb gc) []
  | .xcanw _ gb gc _ => .mk (cardR gb gc) []
  | .rtsub _ gb gc _ => .mk (cardR gb gc) []
  | .spalloc _ gb gc _ => .mk (cardR gb gc) []
  | .gcmt _ gb gc _ => .mk (cardR gb gc ++ gcmtReads x gb) []
  | .tapx _ gb => .mk (gR gb ++ gR (gb + 1) ++ tapReads x gb) (tapWrites x gb)
  | .shres _ gb => .mk (gR gb ++ gR (gb + 1)) []
  | .tapq _ d a => .mk (gR a) (gW d)
  | .shprd _ d => .mk [] (gW d)
  | .tlbi _ d a _ => .mk (gR d ++ gR a) []
  | .l1inv _ a _ => .mk (gR a) []
  | .ctxsv _ d a => .mk (gR a) (gW d)
  | .ctxld _ d a => .mk (gR a) (gW d)
  | .mldw _ src wt => .mk (weightR x src wt.toNat ++ fmtR wt.toNat) []
  | .mldwc _ gr wt _ => .mk (gR gr ++ fmtR wt.toNat) []
  | .planeReady => .mk [] []
  | .mstrm _ _ src _ gr _ step => .mk (gR gr ++ gR (if gr = 0 then 0 else gr + 1) ++ actR x src gr true step) []
  | .mbatch _ _ src _ gr _ step => .mk (gR gr ++ gR (if gr = 0 then 0 else gr + 1) ++ actR x src gr false step) []
  | .mdrain _ _ dst _ _ tt _ _ _ step => .mk (fmtR tt.toNat) (rowR x dst step 0)
  | .mzero _ _ => .mk [] []
  | .mfree _ _ => .mk [] []
  | .mscl _ src col => .mk (rowR x src false 0 ++ (if col then rowR x src false 1 else [])) []
  | .mcall _ _ _ => .mk [] []
  | .mmpw _ src gr _ => .mk (gR gr ++ rowR x src false 0) []
  | .mstat _ gr _ => .mk [] (gW gr)
  | .wload _ _ => .mk [] []
  | .wswap => .mk [] []
  | .stream _ _ => .mk [] []
  | .accum _ _ _ => .mk [] []
  | .drain _ _ _ _ _ _ _ _ => .mk [] []
  | .mask _ => .mk [] []
  | .microLoop _ _ => .mk [] []
  | .microStep _ _ => .mk [] []
  | .param _ _ _ _ _ _ => .mk [] []
  | .branchz _ _ => .mk [] []
  | .waitw => .mk [] []
  | .scale _ _ => .mk [] []
  | .nopm _ => .mk [] []
  | .endm => .mk [] []
  | .vadd _ _ d a b step => portFoot (opndR x a step ++ opndR x b step) (opndR x d step)
  | .vsub _ _ d a b step => portFoot (opndR x a step ++ opndR x b step) (opndR x d step)
  | .vmul _ _ d a b step => portFoot (opndR x a step ++ opndR x b step) (opndR x d step)
  | .vfma _ _ d a b step => portFoot (opndR x a step ++ opndR x b step ++ opndR x d step) (opndR x d step)
  | .vfms _ _ d a b step => portFoot (opndR x a step ++ opndR x b step ++ opndR x d step) (opndR x d step)
  | .vmax _ _ d a b step => portFoot (opndR x a step ++ opndR x b step) (opndR x d step)
  | .vmin _ _ d a b step => portFoot (opndR x a step ++ opndR x b step) (opndR x d step)
  | .vabs _ _ d a step => portFoot (opndR x a step) (opndR x d step)
  | .vneg _ _ d a step => portFoot (opndR x a step) (opndR x d step)
  | .vrcp _ _ d a step => portFoot (opndR x a step) (opndR x d step)
  | .vrsq _ _ d a step => portFoot (opndR x a step) (opndR x d step)
  | .vexp2 _ _ d a step => portFoot (opndR x a step) (opndR x d step)
  | .vlog2 _ _ d a step => portFoot (opndR x a step) (opndR x d step)
  | .vcmp _ _ d a _ step => portFoot (opndR x a step ++ opndR x d step) (opndR x d step)
  | .vsel _ _ d a b step => portFoot (opndR x a step ++ opndR x b step ++ opndR x d step) (opndR x d step)
  | .vand _ _ d a b step => portFoot (opndR x a step ++ opndR x b step) (opndR x d step)
  | .vor _ _ d a b step => portFoot (opndR x a step ++ opndR x b step) (opndR x d step)
  | .vxor _ _ d a b step => portFoot (opndR x a step ++ opndR x b step) (opndR x d step)
  | .vnot _ _ d a step => portFoot (opndR x a step) (opndR x d step)
  | .vshl _ _ d a _ step => portFoot (opndR x a step) (opndR x d step)
  | .vshr _ _ d a _ step => portFoot (opndR x a step) (opndR x d step)
  | .vsra _ _ d a _ step => portFoot (opndR x a step) (opndR x d step)
  | .vcvt _ ty d a dt sf _ step =>
    portFoot (opndR x a step ++ partR x (cvtStore x ty a sf.toNat step) (tyOfCode (fmtReg (cur x.rd)) dt.toNat).store d step ++
      fmtR dt.toNat ++ cvtR x ty a sf.toNat step) (opndR x d step)
  | .vpack _ ty d a w _ _ step =>
    portFoot (opndR x a step ++ partR x (tyWidth ty) (storeWidth w.toNat) d step) (opndR x d step)
  | .vunpk _ _ d a _ _ step => portFoot (opndR x a step) (opndR x d step)
  | .vbcst _ _ d a _ step => portFoot (opndR x a step) (opndR x d step)
  | .vmov _ _ d a step => portFoot (opndR x a step) (opndR x d step)
  | .vperm _ _ d a b step => portFoot (opndR x a step ++ opndR x b step) (opndR x d step)
  | .vrot _ _ d a _ step => portFoot (opndR x a step) (opndR x d step)
  | .vred _ _ d a _ _ step => portFoot (opndR x a step) (opndR x d step)
  | .vscan _ _ d a _ _ _ step => portFoot (opndR x a step) (opndR x d step)
  | .vnorm _ _ d a _ step => portFoot (opndR x a step ++ opndR x d step) (opndR x d step)
  | .vclamp _ _ d a b step => portFoot (opndR x a step ++ opndR x b step ++ opndR x d step) (opndR x d step)
  | .vlut _ _ d a b step => portFoot (opndR x a step ++ restR x b step) (opndR x d step)
  | .vbmt _ _ d a b step => portFoot (opndR x a step ++ restR x b step) (opndR x d step)
  | .vscatx _ _ d a b step => portFoot (opndR x a step ++ rowR x b step 0 ++ opndR x d step) []
  | .vgathx _ _ d a b step => portFoot (opndR x a step ++ rowR x b step 0) (opndR x d step)
  | .vcnt _ _ d a step => portFoot (opndR x a step) (opndR x d step)
  | .vmatch _ _ d a b step => portFoot (opndR x a step ++ opndR x b step) (opndR x d step)
  | .vpsum _ _ d a _ _ step => portFoot (opndR x a step ++ opndR x d step) (opndR x d step)
  | .vdsc _ _ d a hnd _ first step => .mk (rowR x d step 0 ++ drawR x d a hnd first step) (rowR x d step 0)
  | .vrng _ _ d a step => portFoot (opndR x a step ++ opndR x d step) (opndR x d step)
  | .vstat _ _ d form => portFoot [] (opndR x d form.step)
  | .rweRingRefill _ => .mk [] []
  | .bundleIssue _ _ _ => .mk [] []
  | .secondaryForcedIssue _ _ => .mk [] []
  | .segmentOverrun _ => .mk [] []
  | .sliceBoundary => .mk [] []
  | .arbitrate _ => .mk [] []
  | .urgentSave _ => .mk [] []
  | .phaseNodeComplete _ _ _ => .mk [] []
  | .phaseDrainDone _ => .mk [] []
  | .phaseExchangeDone _ => .mk [] []
  | .settlement _ => .mk [] []
  | .tapCompare _ _ => .mk [] []
  | .phaseFlip _ => .mk [] []
  | .phaseStall _ => .mk [] []
  | .operatorExpand _ => .mk [] []
  | .shapeResolution _ => .mk [] []
  | .jobStart _ _ => .mk [] []
  | .jobComplete _ _ => .mk [] []
  | .fabricTimeout _ => .mk [] []
  | .routerSubmission _ => .mk [] []
  | .orchardReadIssue _ => .mk [] []
  | .orchardPageLand _ _ _ => .mk [] []
  | .evictionEnd _ => .mk [] []
  | .relocationStart _ => .mk [] []
  | .relocationCommit _ _ => .mk [] []
  | .blockErase _ _ => .mk [] []
  | .hbmAccess _ _ _ _ _ => .mk [] []
  | .hbmMgmtWindowEnd _ _ _ => .mk [] []
  | .hbmRowIdleClose _ _ _ => .mk [] []
  | .remapReload _ _ _ => .mk [] []
  | .linkCrc _ _ => .mk [] []
  | .linkRetrainDone _ _ _ => .mk [] []
  | .thermalReading _ _ _ _ _ => .mk [] []
  | .inletOvertemp _ => .mk [] []
  | .inboundRmaWrite _ _ _ => .mk [] []
  | .cqTailDoorbell _ _ => .mk [] []
  | .cqResetDoorbell _ => .mk [] []
  | .packetParse _ => .mk [] []
  | .nop _ => .mk [] []
  | .launch _ => .mk [] []
  | .pred _ => .mk [] []
  | .predTest _ => .mk [] []
  | .signalAdd _ => .mk [] []
  | .signalStore _ => .mk [] []
  | .signalChainWord _ => .mk [] []
  | .signalRefused _ => .mk [] []
  | .waitc _ => .mk [] []
  | .waitcSatisfied _ => .mk [] []
  | .hcopy _ => .mk [] []
  | .cqFence _ => .mk [] []
  | .seqcfg _ => .mk [] []
  | .seedseq _ => .mk [] []
  | .tapcfgPoint _ => .mk [] []
  | .tapcfgSteer _ => .mk [] []
  | .sptcfg _ => .mk [] []
  | .qcfg _ => .mk [] []
  | .hbindBind _ => .mk [] []
  | .hbindClear _ => .mk [] []
  | .hbindRebind _ => .mk [] []
  | .hbindRefused _ => .mk [] []
  | .evqcfg _ => .mk [] []
  | .eventRingRoom _ => .mk [] []
  | .preempt _ => .mk [] []
  | .resume _ => .mk [] []
  | .queryStatus _ => .mk [] []
  | .queryQueue _ => .mk [] []
  | .querySlots _ => .mk [] []
  | .queryRefused _ => .mk [] []
  | .patch _ => .mk [] []
  | .attest _ => .mk [] []
  | .ctrlMismatch _ => .mk [] []
  | .workerSelfcheckFail => .mk [] []
  | .powerOn _ _ => .mk [] []
  | .deviceReset _ => .mk [] []
  | .pctlStart _ => .mk [] []
  | .pctlStop _ => .mk [] []
  | .pctlFlagClear _ => .mk [] []
  | .partitionTableWrite _ _ _ => .mk [] []
  | .imageLoad _ _ _ => .mk [] []
  | .imageLoadDone => .mk [] []
  | .arbSliceWrite _ => .mk [] []
  | .arbOvrcntClear _ => .mk [] []
  | .portmapWrite _ => .mk [] []
  | .psWrite _ _ _ => .mk [] []
  | .canopyDebtClear _ => .mk [] []
  | .hintdropClear _ => .mk [] []
  | .hbmWatchWrite _ _ _ => .mk [] []
  | .hbmCounterClear _ _ _ => .mk [] []
  | .registerWrite _ _ => .mk [] []
  | .stkfail _ => .mk [] []
  | .peerReject _ => .mk [] []
  | .collMismatch _ => .mk [] []
  | .inletFallsBelow40 _ => .mk [] []
  | .ctrlRecoveryDone => .mk [] []

end Sys2Proof.Machine
end

