-- ==== Sys2Proof/Machine/Issue.lean ====
section
/-!
DEFINITION. The issue of a bundle (R222 to R236): fetch, the header's cases, the skip test, the contributions of the
seven positions, the checks of every op, group hazards, interlocks, and the commit; then the merge of the two streams,
the segments of a run (R38 to R42), and the faults that a bundle meets before its ops.
-/

namespace Sys2Proof.Machine

/-- The machine with b as the acting stream. -/
def withSel (b : Bool) (s : State) : State := { s with sel := b }

/-! ## Fetch (R223, R271, R272) -/

/-- FETCH_FAULT of the acting stream's bundle: ADDR is the bundle's own address (R446). -/
def fetchErr (c : Stream) (cause : Nat) : Except (Stop State) α := .error (.fault ⟨.fetchFault, cause, c.pc⟩)

/-- The fetch of n words from a on, each on an 8-byte boundary, at home as it is now: after a launch has changed its code a bundle may
be any version held during the launch, of which the model takes this one (R223; DESIGN CHOICE, notes/assumptions/91.md). A word whose
bits [59:57] are not those of an address of its path, or that lies beyond the end of bits [56:0] from the bundle's start, is in no
mapped range (R111, R243). The lines of the walk and of the word have to be at hand; one that is uncorrectable is FETCH_FAULT with
cause 0. -/
def fetchWords (c : Stream) : Nat → Nat → State → Except (Stop State) (List Word × State)
  | 0, _, s => .ok ([], s)
  | n + 1, a, s => do
    if a / 2 ^ 57 != c.pc.toNat / 2 ^ 57 || (qualOf a != 0 && pathOf a != 3) then fetchErr c 1
    else
      let r := translateAt .fetch c.asid c.level (partOf s c) a s
      let lost ← walkHand r.1.2 s
      if lost then fetchErr c 0
      else match r.1.1 with
      | .error f => fetchErr c f.cause
      | .ok (sp, pa, uc) =>
        let (lost, s) ← lineHand (decide (pathOf a ≤ 1) && !uc) sp pa r.2
        if lost then fetchErr c 0
        else
          let (ws, s) ← fetchWords c n (a + 8) s
          return (homeWord (seen s) sp pa :: ws, s)

/-- The bundle at the acting stream's pc: its header and op words, or FETCH_FAULT, or a wait for its bytes (R223). -/
def fetchBundle (s : State) : Except (Stop State) (Word × List Word × State) := do
  let c := cur s
  let a := c.pc.toNat
  if a % 8 != 0 then fetchErr c 7
  else if pathOf a != pathOf (opWord (launchOf s c.launch) 2) then fetchErr c 8
  else
    let (ws, s) ← fetchWords c 1 a s
    let h := ws.headD 0
    let (ops, s) ← fetchWords c (presPos h).length (a + 8) s
    return (h, ops, s)

/-! ## Contributions (R224 to R227) -/

/-- What a position contributes to an issue: its op word, its step count, and whether the op is present. -/
structure Contrib where
  pos : Pos
  w : Word
  j : Nat
  fresh : Bool
  deriving DecidableEq, Repr

/-- The state of an engine position; the other positions have none. -/
def posState (c : Stream) : Pos → PosState
  | .s0 => {} | .s1 => {} | .v0 => c.v0 | .v1 => c.v1 | .m => c.m | .c => c.c | .b => {}

/-- The state of an engine position replaced. -/
def setPosState (c : Stream) (p : Pos) (k : PosState) : Stream :=
  match p with
  | .s0 => c | .s1 => c | .v0 => { c with v0 := k } | .v1 => { c with v1 := k } | .m => { c with m := k }
  | .c => { c with c := k } | .b => c

/-- The contributions of the seven positions (R224). -/
def contribs (c : Stream) (h : Word) (ops : List Word) : List Contrib :=
  allPos.filterMap (fun p =>
    match opAt h ops p with
    | some w => some ⟨p, w, if c.ridx = 0 then 0 else (posState c p).j, true⟩
    | none =>
      let k := posState c p
      if k.live && !hIdle h p then some ⟨p, k.op, k.j, false⟩ else none)

/-- The op words that are remembered (R225). -/
def reissuable (p : Pos) (w : Word) : Bool :=
  let o := opcOf w
  match p with
  | .v0 | .v1 => o / 16 != 0x2A
  | .m => o == 2 || o == 3 || o == 4
  | .c => (decide (0x10 ≤ o) && decide (o ≤ 0x13)) || o == 0x6B || o == 0x6C
  | .s0 | .s1 | .b => false

/-- R227 for one position: present or not, its contribution to the issue if any, whether that was enabled with STEP,
the first issue, the last issue. A step count that is incremented past its range wraps modulo 2^16: the rule gives the range
and no fate beyond it (DESIGN CHOICE, notes/assumptions/73.md). -/
def stepPos (h : Word) (ops : List Word) (first last : Bool) (stepped : List Pos) (c : Stream) (p : Pos) : Stream :=
  let k := posState c p
  let k := match opAt h ops p with
    | some w => if first then { k with op := w, j := 0 } else k
    | none => k
  let k := if p ∈ stepped then { k with j := (k.j + 1) % 2 ^ 16 } else k
  let k := if last then
      (match opAt h ops p with
       | some w => { k with live := reissuable p w }
       | none => k)
    else k
  setPosState c p (if last && hIdle h p then { k with live := false } else k)

/-! ## The check and the effects of one issue (R231 to R233) -/

/-- What the positions of an issue have come to so far: the effects of the ops, the faults and waits met, the registers
that enabled ops of the issue write, the control registers they read, and the positions whose op stepped. -/
structure IssueAcc where
  st : State
  faults : List (Pos × FaultInfo) := []
  stalls : List (State → State) := []
  iw : List RegId := []
  ir : List RegId := []
  rows : List RegId := []             -- those of `iw` that are written at the commit itself
  stepped : List Pos := []

/-- The registers whose every use in a group conflicts with a write (R85, R284). -/
def isCtl : RegId → Bool
  | .ctl _ => true | .lc _ => true | .skipp => true | .g _ => false | .row _ => false

/-- The address of the load that lost the register's value to a memory error, if one did (R444). -/
def lostBy (c : Stream) : RegId → Option Word
  | .g n => (c.lostG.find? (fun x => x.1 == n)).map (fun x => x.2)
  | .row n => (c.lostR.find? (fun x => x.1 == n)).map (fun x => x.2)
  | .ctl _ => none | .lc _ => none | .skipp => none

/-- The register awaits a write that has not landed (R232). -/
def isPending (c : Stream) : RegId → Bool
  | .g n => c.pend.any (fun p => p.gdst.any (fun x => x.1 == n))
  | .row n => c.pend.any (fun p => p.mdst.any (fun x => x.1 / 32 == n))
  | .ctl _ => false | .lc _ => false | .skipp => false

/-- The footprint raises GROUP_HAZARD (R231, R85, R284): against the group's earlier issues, and against the issue's
other ops. -/
def hazard (c : Stream) (a : IssueAcc) (f : Foot) : Bool :=
  f.rd.any (fun r => decide (r ∈ c.grpW) || (isCtl r && decide (r ∈ a.iw))) ||
  f.wr.any (fun r => decide (r ∈ c.grpW) || decide (r ∈ a.iw) || (isCtl r && (decide (r ∈ c.grpR) || decide (r ∈ a.ir))))

/-- The register that a guard reads (R63). -/
def guardReg (q : Guard) : List RegId := if q.ge then gR q.greg else []

/-- An op's place in the issue: it reads the state before the issue, as its stream sees it (R231, R234). -/
def opCtx (s0 : State) (k : Contrib) : OpCtx := { pos := k.pos, j := k.j, rd := seen s0 }

/-- A fault of a position. -/
def IssueAcc.bad (a : IssueAcc) (p : Pos) (f : FaultInfo) : IssueAcc := { a with faults := a.faults ++ [(p, f)] }

/-- One contribution checked and performed: its guard, its decoding, its hazards, its own effect. Where an op and an earlier one of the
issue raise GROUP_HAZARD against each other, the position of the later op is the one at fault. Of two ops that write FLAGS, MXC or
SEQSTAT, which are exempt, the later slot's value stays (DESIGN CHOICES, notes/assumptions/92.md). The ports of an op that faults or
waits resolve before those of a later slot (R80). -/
def performOne (s0 : State) (h : Word) (a : IssueAcc) (k : Contrib) : IssueAcc :=
  let c := cur s0
  let q := guardOf k.w
  let gf : Foot := ⟨guardReg q, []⟩
  if hazard c a gf then a.bad k.pos ⟨.groupHazard, 0, 0⟩
  else match gf.rd.findSome? (lostBy c) with
  | some w => a.bad k.pos ⟨.memUe, 0, w⟩
  | none =>
    if !guardOn c q then a
    else match decodeOp k.pos k.w with
    | .error .illegalOp => a.bad k.pos ⟨.illegalOp, 0, 0⟩
    | .error .illegalEnc => a.bad k.pos ⟨.illegalEnc, 0, 0⟩
    | .ok i =>
      if hRpt h != 0 && (match i with | .tapx _ _ => true | _ => false) then a.bad k.pos ⟨.illegalEnc, 0, 0⟩
      else
        match opOf i with
        | none => a.bad k.pos ⟨.illegalOp, 0, 0⟩
        | some (_, op) =>
          let x := opCtx s0 k
          let f := foot x i
          let b := { a with iw := a.iw ++ f.wr, ir := a.ir ++ f.rd.filter isCtl,
                            rows := if answersRow i then a.rows else a.rows ++ f.wr }
          let gone := { b with st := popAll x (popsOf x i) a.st }
          if hazard c a f then gone.bad k.pos ⟨.groupHazard, 0, 0⟩
          else match f.rd.findSome? (lostBy c) with
          | some w => gone.bad k.pos ⟨.memUe, 0, w⟩
          | none =>
            match op x a.st with
            | .error (.fault e) => gone.bad k.pos e
            | .error (.stall eff) => { gone with stalls := b.stalls ++ [eff] }
            | .ok t => { b with st := t, stepped := if stepOf i then b.stepped ++ [k.pos] else b.stepped }

/-- The contributions of an issue in slot order. -/
def perform (s0 : State) (h : Word) (ks : List Contrib) : IssueAcc := ks.foldl (performOne s0 h) { st := s0 }

/-- Some register that an enabled op or a guard uses awaits a write that has not landed (R232). -/
def interlocked (s0 : State) (ks : List Contrib) : Bool :=
  let c := cur s0
  !c.pend.isEmpty && ks.any (fun k =>
    (guardReg (guardOf k.w)).any (isPending c) ||
    (guardOn c (guardOf k.w) &&
      match decodeOp k.pos k.w with
      | .error _ => false
      | .ok i => let f := foot (opCtx s0 k) i; (f.rd ++ f.wr).any (isPending c)))

/-! ## Yields, segments and roles (R38, R40, R41) -/

/-- The header is a yield bundle's that opens a segment: no END, CONT or ERET in b (R40). -/
def opensSegment (h : Word) (ops : List Word) : Bool :=
  hY h && (match opAt h ops .b with | some w => !isEndOpc (opcOf w) | none => true)

/-- The roles reconsidered at a yield bundle of stream b (R38). -/
def yieldRoles (s : State) : State :=
  if hasTask s.st0 && hasTask s.st1 then
    let r0 := recRank s.st0.r2
    let r1 := recRank s.st1.r2
    if r0 > r1 then modGv s (fun g => { g with primary := false })
    else if r1 > r0 then modGv s (fun g => { g with primary := true })
    else s
  else s

/-- The first bundle's issue begins the task's first segment (R40). -/
def beginSegment (c : Stream) : Stream := if c.segOn then c else { c with segOn := true, used := 0 }

/-- What the header's Y and YRUN do in the issue of its bundle, skipped or not (R40, R233). -/
def headerActs (h : Word) (ops : List Word) (s : State) : State :=
  let s := modCur s beginSegment
  let s := if opensSegment h ops then
      modCur s (fun c => { c with allow := hYrun h, used := 0, ovr := false, capped := false, overrun := false })
    else s
  if hY h then yieldRoles s else s

/-! ## The commit (R227, R230, R233) -/

/-- A transfer op was taken in this issue. -/
def taken (before c : Stream) : Bool :=
  c.npc.isSome || c.ending || c.idleSeen.isSome || (c.saveWant != before.saveWant && (c.saveWant == some 1 || c.saveWant == some 4))

/-- The acting stream after the commit of an issue: flags, position states, group, program counter. -/
def commitStream (h : Word) (ops : List Word) (before : Stream) (a : IssueAcc) (c : Stream) : Stream :=
  let last := decide (hRpt h ≤ before.ridx) || taken before c
  let c := foldFlags c
  let c := [Pos.v0, .v1, .m, .c].foldl (stepPos h ops (before.ridx == 0) last a.stepped) c
  { c with
    lostR := c.lostR.filter (fun r => !decide (.row r.1 ∈ a.rows))
    grpW := if hStop h then [] else c.grpW ++ a.iw
    grpR := if hStop h then [] else c.grpR ++ a.ir
    grpOpen := !hStop h
    pc := if last then c.npc.getD (c.pc + w64 (hLen h)) else c.pc
    npc := none
    ridx := if last then 0 else before.ridx + 1
    fstat := 0
    half := false
    denied := 0
    hand := []
    status := if c.status == .stalled then .running else c.status }

/-- Positions of an issue as FSTAT.MASK numbers them (R89). -/
def posMask (ps : List Pos) : Nat := (allPos.filter (fun p => decide (p ∈ ps))).foldl (fun a p => a + 2 ^ posNum p) 0

/-- The datapaths that an issue cycle holds (R235): on a salvaged Grove v1 is on v0's. -/
def datapaths (salvaged : Bool) (ps : List Pos) : List Nat :=
  ps.map (fun p => if salvaged && p == .v1 then posNum .v0 else posNum p)

/-- The commit of an issue in which no op faults or waits. -/
def commitIssue (h : Word) (ops : List Word) (ks : List Contrib) (a : IssueAcc) (s0 : State) : State :=
  let before := cur s0
  let s := modCur a.st (commitStream h ops before a)
  let s := headerActs h ops s
  let s := if ks.any (fun k => k.pos == .m) then noteM s else s
  settleIssue s.sel s

/-- A skipped bundle (R233): one issue cycle in which nothing but the header acts. -/
def commitSkip (h : Word) (ops : List Word) (s : State) : State :=
  let s := headerActs h ops (modCur s (fun c => { c with
    pc := c.pc + w64 (hLen h)
    fstat := 0
    denied := 0
    hand := []
    grpW := if hStop h then [] else c.grpW
    grpR := if hStop h then [] else c.grpR
    grpOpen := !hStop h
    status := if c.status == .stalled then .running else c.status }))
  settleIssue s.sel s

/-! ## One issue -/

/-- The bundle's skip test: made once, before issue 0 (R233). -/
def skips (c : Stream) (h : Word) : Bool := c.ridx == 0 && hSke h && bit c.skipp.toNat (hSki h)

/-- A fault that the bundle meets before its ops, with MASK: CANOPY_DEBT (R108), the header's cases (R243), RUN_OVERRUN
(R41), MICRO_FAULT on a bundle with an m op or a yield bundle (R375). -/
def bundleFault (c : Stream) (h : Word) (ops : List Word) (ks : List Contrib) : Option (Nat × FaultInfo) :=
  if c.debtTrap then some (0, ⟨.canopyDebt, 0, 0⟩)
  else if !headerOk h (opAt h ops .b) then some (0, ⟨.illegalEnc, 0, 0⟩)
  else if c.overrun then some (0, ⟨.runOverrun, 0, 0⟩)
  else if c.micro.fpend && (hY h || (!skips c h && ks.any (fun k => k.pos == .m))) then
    some (2 ^ posNum .m, ⟨.microFault, c.micro.fcode, 0⟩)
  else none

/-- Lost marks that no op of a yield bundle reads raise MEM_UE there (R444). -/
def yieldUe (c : Stream) (h : Word) : Option FaultInfo :=
  if hY h then ((c.lostG ++ c.lostR).head?).map (fun x => ⟨.memUe, 0, x.2⟩) else none

/-- The acting stream's next bundle may issue in this cycle (R59, R107, R280, R281, R447). -/
def canIssue (s : State) : Bool :=
  let c := cur s
  (c.status == .running || c.status == .stalled) && decide (s.gv.stallTo ≤ s.now) && c.idleSeen.isNone && !c.ending && !saveHolds c

/-- What the next issue of a bundle comes to. -/
inductive IssueEnd where
  | fault (mask : Nat) (f : FaultInfo)
  | stall (effs : List (State → State))
  | commit (s : State)

/-- A stream that issues is RUNNING (R59). -/
def wake (c : Stream) : Stream := { c with status := if c.status == .stalled then .running else c.status }

/-- One issue of a bundle by the acting stream (R233). -/
def issueEnd (h : Word) (ops : List Word) (s : State) : IssueEnd :=
  let c := cur s
  let s0 := modCur s (fun c => wake { c with blen := hLen h })
  let ks := contribs c h ops
  match bundleFault c h ops ks with
  | some (m, f) => .fault m f
  | none =>
    if skips c h then
      match yieldUe c h with
      | some f => .fault 0 f
      | none => .commit (commitSkip h ops s0)
    else if interlocked s0 ks then .stall []
    else if ks.any (fun k => k.pos == .m) && !capReady s then .stall []
    else
      let a := perform s0 h ks
      -- CANOPY_EARLY is judged in the cycle in which nothing else holds the issue back (R101, R104)
      if !a.stalls.isEmpty && a.faults.all (fun x => x.2.code == .canopyEarly) then .stall a.stalls
      else match a.faults with
      | (_, f) :: _ => .fault (posMask (a.faults.map (fun x => x.1))) f
      | [] =>
        match yieldUe c h with
        | some f => .fault 0 f
        | none =>
          if a.stalls.isEmpty then .commit (commitIssue h ops ks a s0) else .stall a.stalls

/-- The wait of an issue: what its waits themselves do, and the stream STALLED (R59). -/
def stallIssue (effs : List (State → State)) (s : State) : State :=
  waitOne (fun s => effs.foldl (fun s f => f s) s) s

/-- The fault of an issue: its own marks are taken with it. -/
def faultIssue (mask : Nat) (f : FaultInfo) (s : State) : State :=
  let s := modCur s (fun c => { c with
    debtTrap := c.debtTrap && f.code != .canopyDebt
    overrun := c.overrun && f.code != .runOverrun
    status := if c.status == .stalled then .running else c.status })
  takeFault s.sel mask f s

/-! ## The merge of two streams (R39, R234 to R236) -/

/-- The acting stream is the secondary. -/
def isSecondary (s : State) : Bool := hasTask s.st0 && hasTask s.st1 && s.sel != s.gv.primary

/-- The positions whose datapaths the bundle's next issue cycle holds, and whether that cycle is the first of two on a
salvaged Grove (R234). A skipped bundle holds none. -/
def cyclePos (s : State) (h : Word) (ops : List Word) : List Pos × Bool :=
  let c := cur s
  if skips c h then ([], false)
  else
    let ps := (contribs c h ops).map (fun k => k.pos)
    if s.gv.salvaged && decide (Pos.v0 ∈ ps) && decide (Pos.v1 ∈ ps) then
      if c.half then ([.v1], false) else (ps.filter (fun p => p != .v1), true)
    else (ps, false)

/-- The datapaths collide with those that the other stream took in this cycle. -/
def collides (s : State) (dp : List Nat) : Bool :=
  match s.gv.issued with
  | some (t, b, m) => t == s.now && b != s.sel && dp.any (bit m)
  | none => false

/-- The datapaths that an issue took in this cycle, noted for the merge. -/
def noteIssued (dp : List Nat) (s : State) : State :=
  modGv s (fun g => { g with issued := some (s.now, s.sel, (List.range 7).foldl (fun a n => if n ∈ dp then a + 2 ^ n else a) 0) })

/-- The commit t of an issue of two cycles that began in state s: the other stream still reads what it found (R234). Its changes are
there for whatever changes the same place, in the order of the commits (R128, R236; notes/assumptions/86.md). -/
def commitLate (s t : State) : State :=
  { t with late := some { mem := s.mem, hmem := s.hmem, spad := s.gv.spad, handles := s.gv.handles, wbuf := s.gv.wbuf,
                          regs := groveRegs s.gv, dev := s.dev, st0 := s.st0, st1 := s.st1, comp := s.gv.comp, idle := s.gv.idle,
                          owner := s.gv.owner, uentry := s.gv.uentry } }

/-- The results of a two-cycle issue become visible at the end of its last cycle (R234). What the L1 took in that cycle of a line
that the issue has changed is given up. -/
def showLate (s : State) : State :=
  match s.late with
  | none => s
  | some _ =>
    { s with
      late := none
      gv := { s.gv with l1 := s.gv.l1.filter (fun l => l.tag / 2 ^ 53 != 0 ||
        homeBytes (seen s) .dev (128 * l.home) 128 == homeBytes s .dev (128 * l.home) 128) } }

/-- The stream that comes second in a cycle waits for the merge: the denied cycle is counted (R39). -/
def denySecondary (s : State) : State :=
  modCur s (fun c => { c with denied := c.denied + 1, status := if c.status == .running then .stalled else c.status })

/-- The next issue cycle of a bundle of the acting stream, alone in its cycle or merged into it. -/
def issueCycle (alone : Bool) (h : Word) (ops : List Word) (s : State) : State :=
  if !canIssue s then s
  else
    let (ps, half) := cyclePos s h ops
    let dp := datapaths s.gv.salvaged ps
    match issueEnd h ops s with
    | .stall effs => stallIssue effs s
    | e =>
      if !alone && collides s dp then denySecondary s
      else if half && (bundleFault (cur s) h ops (contribs (cur s) h ops)).isNone then
        noteIssued dp (modCur s (fun c => wake { c with half := true, denied := 0 }))
      else noteIssued dp (match e with
        | .stall _ => s
        | .fault m f => faultIssue m f s
        | .commit t => if (cur s).half then commitLate s t else t)

/-- BUNDLE_ISSUE: the next issue of a bundle of stream b (R233). -/
def execBundleIssue (b : Bool) (h : Word) (ops : List Word) (s : State) : Host.Outcome State Fault Refusal :=
  .next (issueCycle false h ops (withSel b s))

/-- The secondary has been denied 63 cycles and its bundle is ready (R39). -/
def forcedDue (s : State) (h : Word) (ops : List Word) : Bool :=
  isSecondary s && decide (63 ≤ (cur s).denied) && canIssue s &&
  (match issueEnd h ops s with | .stall _ => false | .fault _ _ => true | .commit _ => true)

/-- A stream that waits for the other's forced issue is STALLED (R59). -/
def holdStream (b : Bool) (s : State) : State := setStrm s b (stallStream (strm s b))

/-- SECONDARY_FORCED_ISSUE: the secondary's bundle issues alone, and the primary's waits this cycle (R39, R59). -/
def execSecondaryForcedIssue (h : Word) (ops : List Word) (s : State) : Host.Outcome State Fault Refusal :=
  let t := withSel (!s.gv.primary) s
  .next (if forcedDue t h ops then { holdStream s.gv.primary (issueCycle true h ops t) with turn := 3 } else s)

/-! ## Overruns (R41) -/

/-- The segment of a stream has exceeded its allowance and is not counted yet. -/
def overrunDue (c : Stream) : Bool := hasTask c && c.segOn && decide (c.allow < c.used) && !c.ovr

/-- SEGMENT_OVERRUN (R41). Whether it is to fault is settled here, by STRICT as it stands when the overrun is counted: R41 does not say
which moment's STRICT decides (DESIGN CHOICE, notes/assumptions/92.md). -/
def execSegmentOverrun (b : Bool) (s : State) : Host.Outcome State Fault Refusal :=
  let c := strm s b
  .next (if overrunDue c then
    modGv (setStrm s b { c with ovr := true, overrun := s.gv.strict && !c.capped && !capActs s.gv })
      (fun g => { g with ovrcnt := satAdd 0xFFFF g.ovrcnt 1 })
  else s)

end Sys2Proof.Machine
end

