-- ==== Sys2Proof/Machine/Router.lean ====
section
/-!
DEFINITION. The look-ahead router (R118, R119, R394, R484 to R492): the expert directory, room and eviction, bindings, a
submission of RTSUB, and the end of an eviction.
-/

namespace Sys2Proof.Machine

/-- Bytes of an Orchard page (R484). -/
def pageBytes : Nat := 16384

/-! ## Room (R118, R490) -/

/-- Handles that have room, apart from handle h. -/
def roomy (s : State) (h : Nat) : List WHandle :=
  (s.dev.wh.filter (fun x => x.1 != h && x.2.st != whInvalid && x.2.roomy)).map (fun x => x.2)

/-- Bank and row of a canopy placement's rows. -/
def whRows (w : WHandle) : List (Nat × Nat) := (List.range w.parts.length).map (ordinalPlace w.fbank w.parts)

/-- Pool rows picked for ordinals j, j + 1, …: the lowest free row of each bank's pool (R96, R522). -/
def pickPool (s : State) (grove fbank : Nat) : Nat → Nat → List (Nat × Nat) → Option (List Nat)
  | 0, _, _ => some []
  | n + 1, j, used =>
    let bank := (fbank + j) % 32
    let nb := rget 0 s.dev.pools (32 * grove + bank)
    match ((List.range nb).map (fun r => 512 - nb + r)).find? (fun r => !decide ((bank, r) ∈ used)) with
    | none => none
    | some r => (pickPool s grove fbank n (j + 1) ((bank, r) :: used)).map (fun rs => r :: rs)

/-- Two address ranges share a byte. -/
def rangesMeet (a n b m : Nat) : Bool := decide (a < b + m) && decide (b < a + n)

/-- The first fit of n bytes from pos among taken ranges; fuel bounds the ranges passed (R490). -/
def firstFit (taken : List (Nat × Nat)) (n : Nat) : Nat → Nat → Nat
  | 0, pos => pos
  | fuel + 1, pos =>
    match taken.find? (fun r => rangesMeet r.1 r.2 pos n) with
    | none => pos
    | some r => firstFit taken n fuel (r.1 + r.2)

/-- The HBM4E ranges of a partition's handles that have room, apart from handle h. -/
def hbmTaken (s : State) (part h : Nat) : List (Nat × Nat) :=
  ((roomy s h).filter (fun w => w.hbm && w.part == part)).map (fun w => (w.base, pageBytes * w.npage))

/-- The placement that handle h can take without an eviction: for HBIND's HBM4E placement the stated range, for
RTSUB's the first fit in the staging pool, for a canopy the lowest free rows of the pool (R118, R476, R490). -/
def takeRoom (s : State) (h : Nat) : Option State :=
  let w := whOf s h
  let n := pageBytes * w.npage
  if w.hbm then
    let taken := hbmTaken s w.part h
    if w.key.isNone then
      if taken.all (fun r => !rangesMeet r.1 r.2 w.base n) then some (modWh s h (fun w => { w with roomy := true })) else none
    else
      let b := firstFit taken n (taken.length + 1) (ptw s w.part 6)
      if b + n ≤ ptw s w.part 6 + ptw s w.part 7 then some (modWh s h (fun w => { w with roomy := true, base := b })) else none
  else
    let used := ((roomy s h).filter (fun v => !v.hbm && v.grove == w.grove)).flatMap whRows
    (pickPool s w.grove w.fbank w.nrows 0 used).map (fun rs => modWh s h (fun w => { w with roomy := true, parts := rs }))

/-- Handle v may be evicted for handle h (R490). -/
def evictable (s : State) (h : Nat) (sel : List Nat) (x : Nat × WHandle) : Bool :=
  let w := whOf s h
  let v := x.2
  x.1 != h && v.part == w.part && v.hbm == w.hbm && v.st == whResident && pinCount v == 0 && v.refs == 0 && v.roomy &&
  !decide (x.1 ∈ sel) &&
  (if !w.hbm then v.grove == w.grove && (List.range w.nrows).any (fun j => (whRows v).any (fun p => p.1 == (w.fbank + j) % 32))
   else if w.key.isNone then rangesMeet v.base (pageBytes * v.npage) w.base (pageBytes * w.npage)
   else rangesMeet v.base (pageBytes * v.npage) (ptw s w.part 6) (ptw s w.part 7))

/-- Victim a is chosen before victim b (R490). -/
def evictBefore (a b : Nat × WHandle) : Bool :=
  if a.2.early != b.2.early then a.2.early
  else decide (a.2.lastUse < b.2.lastUse) || (a.2.lastUse == b.2.lastUse && decide (a.1 < b.1))

/-- The victim for handle h. -/
def victim (s : State) (h : Nat) (sel : List Nat) : Option Nat :=
  ((s.dev.wh.filter (evictable s h sel)).foldl (fun r x =>
    match r with
    | none => some x
    | some y => if evictBefore x y then some x else some y) none).map (fun x => x.1)

/-- The launches that are ACTIVE (R60, R491). -/
def activeLaunches (s : State) : List Nat := (List.range 64).filter (fun n => (launchOf s n).st == .active)

/-- A victim becomes EVICTING; its room is the new binding's from this cycle (R119, R490, R491). -/
def evict (v : Nat) (s : State) : State :=
  modWh s v (fun w => { w with st := whEvicting, roomy := false, demand := false, cls := 8,
                               evictWait := if w.hbm then activeLaunches s else [] })

/-- Room for handle h, victims evicted one after another until it has room; none, and no victim, where no room can be
made (R486, R490). -/
def makeRoom (h : Nat) (sel : List Nat) : Nat → State → Option State
  | 0, s => takeRoom s h
  | fuel + 1, s =>
    match takeRoom s h with
    | some t => some t
    | none =>
      match victim s h sel with
      | none => none
      | some v => makeRoom h sel fuel (evict v s)

/-- The fuel of makeRoom: every handle may be a victim. -/
def roomFor (h : Nat) (sel : List Nat) (s : State) : Option State := makeRoom h sel s.dev.wh.length s

/-! ## Bindings (R119, R485, R488) -/

/-- The stack of a logical address, and its logical page (R484). -/
def laddrStack (a : Nat) : Nat := bits a 41 39
def laddrPage (a : Nat) : Nat := bits a 38 14

/-- An Orchard stack, and a stack changed. -/
def stackOf (s : State) (k : Nat) : Stack := rget {} s.dev.orstk k
def modStack (s : State) (k : Nat) (f : Stack → Stack) : State :=
  modDev s (fun d => { d with orstk := rmod {} d.orstk k f })

/-- The page reads of a handle queued at its stack. -/
def queueReads (h : Nat) (s : State) : State :=
  let w := whOf s h
  modStack s (laddrStack w.laddr) (fun k => { k with
    reads := k.reads ++ (List.range w.npage).map (fun p =>
      { handle := h, page := p, lpn := laddrPage w.laddr + p, order := w.order }) })

/-- The next number of the order of bindings and uses. -/
def nextOrder (s : State) : Nat × State := (s.dev.whOrder + 1, modDev s (fun d => { d with whOrder := d.whOrder + 1 }))

/-- The unissued page reads of a handle given up: their binding is over (R497). -/
def dropReads (h : Nat) (s : State) : State :=
  modStack s (laddrStack (whOf s h).laddr) (fun k => { k with reads := k.reads.filter (fun r => r.handle != h || r.issued) })

/-- Every record's HELD mark follows the state of its handles (R31, R58): a FAULTED handle holds it, and one bound anew no longer
does, while another may. A handle that is cleared leaves its records HELD until it is bound again (R497). -/
def holdRecords (h : Nat) (hold : Bool) (s : State) : State :=
  modDev s (fun d => { d with queues := d.queues.map (fun x => (x.1, if x.2.mailbox then x.2 else { x.2 with
    entries := x.2.entries.map (fun e =>
      if e.resume.isNone && decide (h ∈ recHandles e.w2) && (launchOf s (recLaunch e.w3)).part == (whOf s h).part then
        { e with held := if hold then h :: e.held.filter (fun k => k != h) else e.held.filter (fun k => k != h) }
      else e) })) })

/-- Handle h bound with the placement of w: room made, reads queued; none where no room can be made (R486, R490). -/
def bindHandle (h : Nat) (w : WHandle) (sel : List Nat) (s : State) : Option State :=
  let (n, t) := nextOrder s
  let t := modWh t h (fun _ => { w with st := whRequested, order := n, lastUse := n, roomy := false })
  (roomFor h sel t).map (fun t => holdRecords h false (queueReads h t))

/-! ## The expert directory (R484, R486, R524) -/

/-- The directory entry of expert e of a layer, as an unbound handle; none where it is invalid or cannot be read. -/
def dirEntry (part layer e : Nat) (s : State) : Option WHandle × State :=
  let dirn := bits (ptw s part 10) 28 16
  if e ≥ dirn then (none, s)
  else
    match devLoad part (ptw s part 9 + 16 * (dirn * layer + e)) 16 s with
    | (none, s) => (none, s)
    | (some bs, s) =>
      let w0 := leNat (bs.take 8)
      let w1 := leNat (bs.drop 8)
      let la := bits w0 41 0
      let n := bits w1 15 0
      let pg := laddrPage la
      let lo := bits (ptw s part 11) 48 32
      let cnt := bits (ptw s part 11) 25 8
      let ok := bit w0 63 && bits w0 61 42 == 0 && bits w1 63 29 == 0 && la % pageBytes == 0 && decide (1 ≤ n) && decide (n ≤ 4096) &&
        decide (pg + n ≤ 2 ^ 25) && (!bit w0 62 || bits w1 28 16 == 0) && bit (bits (ptw s part 11) 7 0) (laddrStack la) &&
        decide (lo ≤ pg / 256) && decide ((pg + n - 1) / 256 < lo + cnt)
      (if ok then some { part := part, hbm := bit w0 62, grove := bits w1 23 16, fbank := bits w1 28 24,
                         nrows := if bit w0 62 then 0 else 2 * n, key := some (layer, e), laddr := la, npage := n }
       else none, s)

/-! ## A submission (R394, R486 to R488) -/

/-- Expert a ranks before expert b of a group: greater score, or equal scores and lower number; a NaN is −∞ (R394). -/
def ranksBefore (a b : Nat × XV) : Bool :=
  match xcmp a.2 b.2 with
  | .gt => true
  | .eq => decide (a.1 < b.1)
  | .lt => false

/-- An expert inserted into the ranking. -/
def rankIns (x : Nat × XV) : List (Nat × XV) → List (Nat × XV)
  | [] => [x]
  | y :: r => if ranksBefore x y then x :: y :: r else y :: rankIns x r

/-- A score as it ranks. -/
def scoreOf (code : Nat) : XV := if (f32 code).isNan then .inf true else f32 code

/-- The experts that a group chooses, in rank order. -/
def chosen (scores : List Nat) (k : Nat) : List Nat :=
  let xs := (List.range scores.length).map (fun e => (e, scoreOf (scores.getD e 0)))
  ((xs.foldr rankIns []).filter (fun x => x.2 != .inf true)).map (fun x => x.1) |>.take k

/-- The handle bound to a key of a partition (R485). -/
def keyHandle (s : State) (part layer e : Nat) : Option Nat :=
  (s.dev.wh.find? (fun x => x.2.st != whInvalid && x.2.part == part && x.2.key == some (layer, e))).map (fun x => x.1)

/-- The lowest free handle id of a partition's share (R485). -/
def freeWh (s : State) (part : Nat) : Option Nat :=
  ((List.range (bits (ptw s part 3) 13 0)).map (fun i => bits (ptw s part 3) 44 32 + i)).find? (fun h =>
    decide (h < 8192) && (whOf s h).st == whInvalid)

/-- What a submission has done so far: handles selected, keys bound, entries. -/
structure Submission where
  sel : List Nat := []
  made : List (Nat × Nat) := []
  out : List Nat := []
  s : State := {}

/-- One selected expert (R486). -/
def selectExpert (part layer cls : Nat) (b : Submission) (e : Nat) : Submission :=
  let put (b : Submission) (v : Nat) : Submission := { b with out := b.out ++ [v] }
  match b.made.find? (fun m => m.1 == e) with
  | some m => put b m.2
  | none =>
    match keyHandle b.s part layer e with
    | some h =>
      let w := whOf b.s h
      let (n, s) := nextOrder b.s
      let s := modWh s h (fun w => { w with
        lastUse := n
        demand := w.demand || w.st == whEvicting
        cls := if w.st = whRequested || w.st = whInFlight || w.st = whEvicting then min w.cls cls else w.cls })
      put { b with sel := h :: b.sel, s := s } (w.st * 2 ^ 28 + h)
    | none =>
      match dirEntry part layer e b.s with
      | (none, s) => put { b with s := s } 0xFFFFFFFF
      | (some w, s) =>
        match freeWh s part with
        | none => put { b with s := s } 0xFFFFFFFE
        | some h =>
          match bindHandle h { w with cls := cls } b.sel s with
          | none => put { b with s := s } 0xFFFFFFFE
          | some s =>
            let v := 2 ^ 31 + 2 ^ 28 + h
            put { b with sel := h :: b.sel, made := (e, v) :: b.made, s := s } v

/-- One group: its entries, then the unfilled positions. -/
def submitGroup (part layer cls k : Nat) (b : Submission) (scores : List Nat) : Submission :=
  let es := chosen scores k
  let b := es.foldl (selectExpert part layer cls) b
  { b with out := b.out ++ List.replicate (k - es.length) 0xFFFFFFFF }

/-- The job is a submission that the router has not taken yet. -/
def submits (j : Job) : Bool := j.op == 0x110 && j.st == .running && j.done == 0

/-- The router can take a submission: its scores have come from home. -/
def submitReady (s : State) (j : Job) : Bool := submits j && asksDone s j

/-- The urgency class that a submission gives (R488). -/
def distClass (dist : Nat) : Nat := if dist = 1 then 0 else dist

/-- ROUTER_SUBMISSION: the router takes a submission whole, group by group (R394, R486). A provisional one whose writes the staging
buffer cannot hold waits (R191). -/
def execRouterSubmission (job : Nat) (s : State) : Host.Outcome State Fault Refusal :=
  .next (match jobOf s job with
    | none => s
    | some j =>
      let part := (launchOf s j.launch).part
      if !submitReady s j || s.gv.jobs.any (fun i => submits i && decide (i.seq < j.seq) && (launchOf s i.launch).part == part) then s
      else
        match locsPlaces j (jobCard j).dsts s with
        | .error e => jobErr j e s
        | .ok (ps, s) =>
          let w2 := j.cw2.toNat
          let nexp := bits w2 31 16
          let groups := (List.range (bits w2 15 0)).map (fun g => (List.range nexp).map (fun e => numAt 4 j.send (g * nexp + e)))
          let b := groups.foldl
            (submitGroup part (bits w2 51 40) (distClass (bits j.cw3.toNat 11 8)) (bits w2 39 32)) { s := s }
          let names := (b.out.filter (fun v => decide (v < 0xFFFFFFFE))).map (fun v => v % 2 ^ 13)
          let k := { j with done := 1, wait := names.eraseDups, out := outsOf ps (b.out.flatMap (natLe 4)) }
          if j.prov && !stagingRoom s (heldSize k.out) then s else setJob k b.s)

/-! ## The end of an eviction (R491) -/

/-- No bank of the modelled Grove holds an open row of the handle. -/
def noOpenRow (s : State) (w : WHandle) : Bool :=
  (whRows w).all (fun p => (bankOf s p.1).openRow != some p.2)

/-- An eviction may end: R491's two points. The canopy banks of the other Groves are outside the model. -/
def evictionOver (s : State) (w : WHandle) : Bool :=
  w.st == whEvicting && (if w.hbm then w.evictWait.isEmpty else w.grove != s.gv.id || noOpenRow s w)

/-- EVICTION_END (R119, R491). -/
def execEvictionEnd (handle : Nat) (s : State) : Host.Outcome State Fault Refusal :=
  .next (let w := whOf s handle
    if !evictionOver s w then s
    else if w.demand then
      modWh s handle (fun w => { w with st := whRequested, roomy := false, demand := false, early := false, landed := [], parts := [] })
    else modWh s handle (fun _ => {}))

/-- A handle that waits for room after an eviction (R491). -/
def roomless (w : WHandle) : Bool := w.st == whRequested && !w.roomy

/-- Handles that wait for room take it, in the order of their numbers: R491 gives none (notes/assumptions/6.md). -/
def retryRooms (s : State) : State :=
  (s.dev.wh.filter (fun x => roomless x.2)).foldl (fun s x =>
    match roomFor x.1 [] s with
    | some t => queueReads x.1 t
    | none => s) s

end Sys2Proof.Machine
end

