-- ==== Sys2Proof/Machine/Orchard.lean ====
section
/-!
DEFINITION. The Orchard and its translation layer (R488, R489, R493 to R498, R518): page reads, landings, read counts,
relocation triggers and relocation, lost pages, the failure of a stack.
-/

namespace Sys2Proof.Machine

/-- Logical and physical blocks of a stack, pages of a block (R493). -/
def logBlocks : Nat := 131072
def physBlocks : Nat := 139264
def blockPages : Nat := 256

/-- The physical block of a logical block (R493). -/
def physOf (k : Stack) (b : Nat) : Nat := match rget 0 k.map b with | 0 => b | n + 1 => n

/-- The relocation in progress (R495). -/
def running (k : Stack) : Option Reloc := k.relocs.find? (fun r => r.stage != 0)

/-- A relocation scheduled for a logical block, unless one is already scheduled or copying it (R494). -/
def schedule (b cause : Nat) (k : Stack) : Stack :=
  if k.relocs.any (fun r => r.lblk == b && r.stage != 2) then k
  else { k with relocs := k.relocs ++ [{ lblk := b, cause := cause }] }

/-- Reads of the block are held: its relocation copies it (R495). -/
def heldBlock (k : Stack) (b : Nat) : Bool := k.relocs.any (fun r => r.stage == 1 && r.lblk == b)

/-- The read still belongs to its handle's binding. -/
def liveRead (s : State) (r : PageRead) : Bool := (whOf s r.handle).st != whInvalid && (whOf s r.handle).order == r.order

/-- Rows of page p of a handle: ordinals 2p and 2p + 1 with their halves of the page (R489). -/
def pageRows (w : WHandle) (p : Nat) : List (Nat × Nat × Nat) :=
  (([2 * p, 2 * p + 1].filter (fun o => decide (o < w.parts.length))).map (fun o =>
    let q := ordinalPlace w.fbank w.parts o
    (q.1, q.2, 8192 * (o % 2))))

/-- The page's room is still given up by an eviction that has not ended (R490). -/
def pageBlocked (s : State) (h p : Nat) : Bool :=
  let w := whOf s h
  s.dev.wh.any (fun x => x.1 != h && x.2.st == whEvicting && x.2.hbm == w.hbm && x.2.part == w.part &&
    (if w.hbm then rangesMeet x.2.base (pageBytes * x.2.npage) (w.base + pageBytes * p) pageBytes
     else x.2.grove == w.grove && (pageRows w p).any (fun r => decide ((r.1, r.2.1) ∈ whRows x.2))))

/-! ## Issue (R488, R496) -/

/-- A read that its stack may issue. -/
def issuable (s : State) (k : Stack) (r : PageRead) : Bool :=
  !r.issued && liveRead s r && (whOf s r.handle).roomy && !heldBlock k (r.lpn / blockPages) && !pageBlocked s r.handle r.page

/-- Read a is served before read b: class, binding, page (R488). -/
def servedBefore (s : State) (a b : PageRead) : Bool :=
  let ca := (whOf s a.handle).cls
  let cb := (whOf s b.handle).cls
  decide (ca < cb) || (ca == cb && (decide (a.order < b.order) || (a.order == b.order && decide (a.page < b.page))))

/-- The read that a stack issues next. -/
def nextRead (s : State) (k : Stack) : Option PageRead :=
  (k.reads.filter (issuable s k)).foldl (fun r x =>
    match r with
    | none => some x
    | some y => if servedBefore s x y then some x else some y) none

/-- A page read counted (R494, R498, R518). -/
def countRead (block : Nat) (k : Stack) : Stack :=
  { k with rdc := rmod 0 k.rdc block (fun n => min (2 ^ 32 - 1) (n + 1)), pread := min (2 ^ 48 - 1) (k.pread + 1) }

/-- A handle meets an uncorrectable page: FAULTED at the first, with one HANDLE_UE record, its records HELD (R119, R497). -/
def faultHandle (h page : Nat) (s : State) : State :=
  let w := whOf s h
  if w.st = whFaulted then s
  else
    let s := holdRecords h true (modWh s h (fun w => { w with st := whFaulted }))
    sendPartFault w.part { code := fcode .handleUe, addr := w64 (w.laddr + pageBytes * page), info := h } s

/-- A read taken out of its stack. -/
def dropRead (stack : Nat) (r : PageRead) (s : State) : State := modStack s stack (fun k => { k with reads := k.reads.erase r })

/-- A read issued to flash: the handle is IN_FLIGHT from its first (R119). A read of a lost page is uncorrectable at
once, with no flash access (R496). -/
def issueRead (stack : Nat) (r : PageRead) (s : State) : State :=
  let k := stackOf s stack
  let b := physOf k (r.lpn / blockPages)
  if decide (r.lpn ∈ k.lost) || k.stkfail then
    faultHandle r.handle r.page (modStack (dropRead stack r s) stack (countRead b))
  else
    let s := modStack s stack (fun k => { k with reads := k.reads.replace r { r with issued := true, block := b } })
    modWh s r.handle (fun w => if w.st = whRequested then { w with st := whInFlight } else w)

/-- ORCHARD_READ_ISSUE: handles that wait for room take it, and the stack issues its next read (R488, R491). -/
def execOrchardReadIssue (stack : Nat) (s : State) : Host.Outcome State Fault Refusal :=
  .next (let s := retryRooms s
    match nextRead s (stackOf s stack) with
    | none => s
    | some r => issueRead stack r s)

/-! ## Landing (R489) -/

/-- Bytes of a logical page (R484). -/
def orchKey (stack lpn : Nat) : Nat := (2 ^ 25 * stack + lpn) * pageBytes
def orchPage (s : State) (stack lpn : Nat) : List Byte := rgetN 0 s.dev.orch (orchKey stack lpn) pageBytes

/-- Both rows of a page can be written to the modelled Grove's canopy now (R393, R489). -/
def canLand (s : State) (r : PageRead) : Bool :=
  let w := whOf s r.handle
  w.hbm || w.grove != s.gv.id || !liveRead s r || (pageRows w r.page).all (fun q => engineReady s none q.1)

/-- The page's bytes written where they land: HBM4E at home, through the partition's address space; a canopy of the
modelled Grove row by row. Answers the numbers of the row writes. -/
def placePage (s : State) (r : PageRead) (bs : List Byte) : List Nat × State :=
  let w := whOf s r.handle
  if w.hbm then
    match devSegs .ld w.part (pageSegs (w.base + pageBytes * r.page) pageBytes 3) s with
    | (some hs, t) => ([], putSegs t hs bs)
    | (none, t) => ([], t)
  else if w.grove != s.gv.id then ([], s)
  else (pageRows w r.page).foldl (fun p q =>
    let (n, s) := engineWrite q.1 q.2.1 ((bs.drop q.2.2).take 8192) p.2
    (n :: p.1, s)) ([], s)

/-- A page has landed: with the last one the handle is RESIDENT or PINNED, and for HBM4E its range is dropped from
every L1 (R119, R489). A FAULTED handle stays FAULTED (R497). -/
def pageLanded (r : PageRead) (s : State) : State :=
  if !liveRead s r then s
  else
    let s := modWh s r.handle (fun w => { w with landed := r.page :: w.landed.filter (fun p => p != r.page) })
    let w := whOf s r.handle
    if w.st = whInFlight && w.landed.length = w.npage then
      let s := if w.hbm then modGv s (fun g => { g with l1 := g.l1.filter (fun l =>
        !(asidShare s w.part l.asid && rangesMeet (128 * l.tag) 128 w.base (pageBytes * w.npage))) }) else s
      modWh s r.handle (fun w => { w with st := if pinCount w = 0 then whResident else whPinned })
    else s

/-- The relocation triggers of a page read, the first that holds (R494). -/
def triggers (block lblk : Nat) (corrected : List Nat) (lost : Bool) (k : Stack) : Stack :=
  if physOf k lblk != block then k
  else if rget 0 k.rdc block ≥ k.rdlim then schedule lblk 1 k
  else if corrected.any (fun n => decide (40 ≤ n)) then schedule lblk 2 k
  else if lost then schedule lblk 3 k
  else k

/-- A page found lost (R496, R498). -/
def pageLost (lpn : Nat) (k : Stack) : Stack :=
  { k with lost := if lpn ∈ k.lost then k.lost else lpn :: k.lost
           uepg := if lpn ∈ k.lost then k.uepg else satAdd 0xFFFF k.uepg 1
           lastue := if lpn ∈ k.lost then k.lastue else lpn }

/-- Corrected codewords counted (R498). -/
def countFixed (n : Nat) (k : Stack) : Stack := { k with cecw := satAdd (2 ^ 32 - 1) k.cecw n }

/-- A read completes: counted with the codewords that it corrected, its triggers tested; a lost page faults its handle, a correct one
lands. -/
def completeRead (stack : Nat) (r : PageRead) (corrected : List Nat) (lost : Bool) (s : State) : State :=
  let s := modStack s stack (fun k => triggers r.block (r.lpn / blockPages) corrected lost
    ((if lost then pageLost r.lpn else id) (countFixed corrected.length (countRead r.block k))))
  if lost then
    let s := dropRead stack r s
    if liveRead s r then faultHandle r.handle r.page s else s
  else if !liveRead s r then dropRead stack r s
  else
    let (ns, s) := placePage s r (orchPage s stack r.lpn)
    if ns.isEmpty then pageLanded r (dropRead stack r s)
    else modStack s stack (fun k => { k with reads := k.reads.replace r { r with writes := some ns } })

/-- A read whose rows have been written by now. -/
def rowsWritten (s : State) (r : PageRead) : Bool := match r.writes with | some ns => ns.all (writeOver s) | none => false

/-- ORCHARD_PAGE_LAND: a page whose rows are written has landed; else the oldest read in flash that can land completes,
with the corrected bits of each of its codewords that had any, or uncorrectable (R489, R494, R497). -/
def execOrchardPageLand (stack : Nat) (corrected : List Nat) (lost : Bool) (s : State) : Host.Outcome State Fault Refusal :=
  .next (let k := stackOf s stack
    match k.reads.find? (rowsWritten s) with
    | some r => pageLanded r (dropRead stack r s)
    | none =>
      match k.reads.find? (fun r => r.issued && r.writes.isNone && (lost || canLand s r)) with
      | none => s
      | some r => completeRead stack r corrected lost s)

/-! ## Relocation (R494, R495) -/

/-- The free pool of a stack (R493). -/
def freePool (k : Stack) : List Nat := k.free ++ (List.range (physBlocks - k.freeFrom)).map (fun i => k.freeFrom + i)

/-- The block of least erase count, ties to the lower number (R494, R495). -/
def leastErased (k : Stack) (bs : List Nat) : Option Nat :=
  bs.foldl (fun r b =>
    match r with
    | none => some b
    | some c => if decide (rget 0 k.erase b < rget 0 k.erase c) || (rget 0 k.erase b == rget 0 k.erase c && decide (b < c)) then some b
                else some c) none

/-- The next scheduled relocation of a stack that runs none. -/
def nextReloc (k : Stack) : Option Reloc := if (running k).isSome then none else k.relocs.head?

/-- RELOCATION_START: a free block is taken, or NOSPARE set (R495). -/
def execRelocationStart (stack : Nat) (s : State) : Host.Outcome State Fault Refusal :=
  .next (let k := stackOf s stack
    match nextReloc k with
    | none => s
    | some r =>
      match leastErased k (freePool k) with
      | none => modStack s stack (fun k => { k with nospare := true })
      | some t => modStack s stack (fun k => { k with
          free := (freePool k).filter (fun b => b != t)
          freeFrom := physBlocks
          relocs := { r with stage := 1, old := physOf k r.lblk, new := t } :: k.relocs.tail }))

/-- A relocation counted by its cause (R498). -/
def countReloc (cause : Nat) (k : Stack) : Stack :=
  if cause = 1 then { k with relrd := satAdd 0xFFFF k.relrd 1 }
  else if cause = 2 then { k with relecc := satAdd 0xFFFF k.relecc 1 }
  else if cause = 3 then { k with relue := satAdd 0xFFFF k.relue 1 }
  else { k with relwl := satAdd 0xFFFF k.relwl 1 }

/-- RELOCATION_COMMIT: the copy is whole, the block is mapped to its new place, and its held reads go there; pages lost
in the copy are marked lost, and the codewords that its reads corrected counted (R495, R498). -/
def execRelocationCommit (stack : Nat) (copied : CopyFound) (s : State) : Host.Outcome State Fault Refusal :=
  .next (match running (stackOf s stack) with
    | none => s
    | some r =>
      if r.stage != 1 then s
      else modStack s stack (fun k =>
        let k := (copied.lost.filter (fun p => decide (p < blockPages))).foldl (fun k p => pageLost (blockPages * r.lblk + p) k) k
        let k := countFixed copied.corrected k
        let k := countReloc r.cause k
        { k with
          map := rset 0 k.map r.lblk (if r.new = r.lblk then 0 else r.new + 1)
          rdc := rset 0 k.rdc r.new 0
          lastrel := w64 (r.cause * 2 ^ 53 + r.lblk * 2 ^ 36 + r.old * 2 ^ 18 + r.new)
          relocs := k.relocs.replace r { r with stage := 2 } }))

/-- A block holds data: some logical block is mapped to it; answers the logical block (R494). -/
def dataBlock (k : Stack) (b : Nat) : Option Nat :=
  match k.map.find? (fun x => x.2 == b + 1) with
  | some x => some x.1
  | none => if b < logBlocks && rget 0 k.map b = 0 then some b else none

/-- The WEAR test at an erase's completion (R494). -/
def wearCheck (k : Stack) : Stack :=
  if eraseMax k - eraseMin k ≤ 2000 || k.relocs.any (fun r => r.cause == 4) then k
  else
    match leastErased k ((List.range physBlocks).filter (fun b => (dataBlock k b).isSome)) with
    | none => k
    | some b =>
      if rget 0 k.erase b = eraseMin k then
        match dataBlock k b with
        | some l => schedule l 4 k
        | none => k
      else k

/-- The old block's erase waits for the reads issued to it (R495). -/
def erasable (k : Stack) : Option Reloc :=
  match running k with
  | some r => if r.stage = 2 && k.reads.all (fun x => !(x.issued && x.writes.isNone && x.block == r.old)) then some r else none
  | none => none

/-- BLOCK_ERASE (R495). -/
def execBlockErase (stack : Nat) (ok : Bool) (s : State) : Host.Outcome State Fault Refusal :=
  .next (match erasable (stackOf s stack) with
    | none => s
    | some r => modStack s stack (fun k =>
        let k := { k with relocs := k.relocs.erase r }
        if ok then wearCheck { k with erase := rmod 0 k.erase r.old (fun n => n + 1), free := k.free ++ [r.old] }
        else { k with retired := r.old :: k.retired }))

/-- STKFAIL: the stack has failed; every unissued and in-flight read of it is uncorrectable, and each is counted as a page read
(R497, R498, R518). -/
def execStkfail (stack : Nat) (s : State) : Host.Outcome State Fault Refusal :=
  .next (let rs := (stackOf s stack).reads.filter (fun r => r.writes.isNone)
    let s := modStack s stack (fun k => { k with stkfail := true })
    rs.foldl (fun s r =>
      if r.issued then completeRead stack r [] true s
      else
        let s := modStack (dropRead stack r s) stack (fun k => countRead (physOf k (r.lpn / blockPages)) k)
        if liveRead s r then faultHandle r.handle r.page s else s) s)

end Sys2Proof.Machine
end

