-- ==== Sys2Proof/Machine/Phase.lean ====
section
/-!
DEFINITION. Slices, arbitration and urgent saves as events (R43, R46, R448); the steps of a phase boundary (R52 to R55,
R61); operator chains: expansion, activation, prediction and retirement (R19 to R21, R179, R188, R469, R470, R473).
-/

namespace Sys2Proof.Machine

/-! ## Slices, arbitration, saves -/

/-- SLICE_BOUNDARY (R43). -/
def execSliceBoundary (s : State) : Host.Outcome State Fault Refusal :=
  .next (if s.gv.sliceStart + s.gv.slice ≤ s.now then modGv s (fun g => { g with sliceStart := g.sliceStart + g.slice }) else s)

/-- Some other Grove of the rectangle may take the record (R29, R33, R44). -/
def farTakes (s : State) (q : Nat) (k : Queue) (e : QEntry) : Bool :=
  let l := launchOf s (recLaunch e.w3)
  e.checked && recReady s e && occupancyOk s q k e &&
  (rectGroves l).any (fun g => g != s.gv.id && (!k.pinned || pinOf l e.w1 e.w2 == rectIdx l g))

/-- A record that the arbiter of another Grove has taken: its task runs there (R30, R33, R46). -/
def takeAway (q serial : Nat) (s : State) : State :=
  let k := queueOf s q
  match if k.mailbox then none else (windowOfQueue s k).find? (fun e => e.serial == serial && farTakes s q k e) with
  | none => s
  | some e =>
    let l := launchOf s (recLaunch e.w3)
    let a : AwayTask := { queue := q, launch := recLaunch e.w3, phase := recPhase e.w3, tile := recTile l e.w1 e.w2,
                          prov := recProv e.w2 && pendingShape l, w2 := e.w2 }
    settleQueue q (modQueue (modDev (takeRefs e.w2 s) (fun d => { d with away := d.away ++ [a] })) q
      (fun k => { k with entries := k.entries.erase e }))

/-- The launch has tasks on other Groves that act for it. -/
def actsAway (s : State) (n : Nat) : Bool :=
  let l := launchOf s n
  l.st == .active && (rectGroves l).any (fun g => g != s.gv.id)

/-- A BALLOC of another Grove arrives at the arena (R314). -/
def allocAway (n bytes tile : Nat) (s : State) : State :=
  if actsAway s n && bytes != 0 && arenaRoom (launchOf s n) bytes then arenaTake n bytes tile s else s

/-- A tap point that another Grove has presented (R179, R180). -/
def showAway (n point : Nat) (s : State) : State :=
  if actsAway s n && tapDeclared (launchOf s n) point && mayPresent (launchOf s n) point then
    modLaunch s n (fun l => { l with farPres := (point :: l.farPres).eraseDups, everPres := (point :: l.everPres).eraseDups })
  else s

/-- The launch has other Groves, whose stores and jobs may reach home while it lives. -/
def writesAway (s : State) (n : Nat) : Bool :=
  let l := launchOf s n
  liveLaunch l && (rectGroves l).any (fun g => g != s.gv.id)

/-- Bytes of one page that another Grove has published, or that a job of it has written, at home in the launch's address space
(R127, R143, R415). -/
def wroteAway (n a : Nat) (bs : List Byte) (s : State) : State :=
  let l := launchOf s n
  match translate .st (opAsid l) (opPriv l) l.part a s with
  | (.ok (sp, pa, _), s) => putBytes s sp pa bs
  | (.error _, s) => s

/-- Such bytes of a range, page by page; fuel bounds the pages. -/
def wroteRange (n : Nat) : Nat → Nat → List Byte → State → State
  | 0, _, _, s => s
  | fuel + 1, a, bs, s =>
    if bs.isEmpty then s
    else
      let k := 65536 - a % 65536
      wroteRange n fuel (a + k) (bs.drop k) (wroteAway n a (bs.take k) s)

/-- The add of another Grove's job to its counter (R144). -/
def addAway (n a inc : Nat) (s : State) : State :=
  let l := launchOf s n
  if a % 8 != 0 then s
  else
    match translate .amo (opAsid l) (opPriv l) l.part a s with
    | (.ok (.dev, pa, _), s) => putWord s .dev pa (counterAdd (homeWord s .dev pa) inc false)
    | (_, s) => s

/-- What the other Groves have done, as an ARBITRATE tells it. -/
def tellAway (told : ArbTold) (s : State) : State :=
  let s := told.ended.foldl (fun s x =>
    match s.dev.away.find? (fun a => a.launch == x.1 && a.tile == x.2) with
    | some a => dropRefs a.w2 (modDev s (fun d => { d with away := d.away.erase a }))
    | none => s) s
  let s := told.took.foldl (fun s x => takeAway (x.1 % 256) x.2 s) s
  let s := told.allocs.foldl (fun s x => allocAway x.1 x.2.1 x.2.2 s) s
  let s := told.shown.foldl (fun s x => showAway x.1 x.2 s) s
  let s := told.wrote.foldl (fun s x => if writesAway s x.1 then wroteRange x.1 (x.2.2.length / 65536 + 2) x.2.1 x.2.2 s else s) s
  told.adds.foldl (fun s x => if writesAway s x.1 then addAway x.1 x.2.1 x.2.2 s else s) s

/-- ARBITRATE (R46): what the other Groves' arbiters and tasks have done since the last one, then the choice of this Grove's arbiter
for its stream. -/
def execArbitrate (told : ArbTold) (s : State) : Host.Outcome State Fault Refusal :=
  .next (arbitrateStream told.strm (tellAway told s))

/-- The urgent save of stream b's task may be made. -/
def savesNow (b : Bool) (s : State) : Bool :=
  hasTask (strm s b) && !savedAfter s b && saveReady s (strm s b)

/-- URGENT_SAVE: the save of stream b's task, or of a task held with its fault; a stream that must wait for its save stands
as R448 says (R192, R447, R448). -/
def execUrgentSave (b : Bool) (s : State) : Host.Outcome State Fault Refusal :=
  .next (if savesNow b s then saveStream b s else saveHeld (noteSaving b s))

/-! ## The boundary of a phase (R50 to R53) -/

/-- The records of a PINNED queue that other Groves have taken and ended, those that `arrived` names. -/
def takePinned (n : Nat) (arrived : List Nat) (s : State) : State :=
  let l := launchOf s n
  modDev s (fun d => { d with queues := d.queues.map (fun q =>
    if q.2.pinned && !q.2.mailbox then
      (q.1, { q.2 with entries := q.2.entries.filter (fun e =>
        !(recInPhase l n e && arrived.any (fun g => g != s.gv.id && inRect l g && pinOf l e.w1 e.w2 == rectIdx l g))) })
    else q) })

/-- Every Grove of the rectangle has arrived: by BAR.PHASE in EXPLICIT mode (R50). -/
def allArrived (s : State) (l : Launch) (arrived : List Nat) : Bool :=
  (rectGroves l).all (fun g =>
    if g = s.gv.id then !opExplicit l || decide (g ∈ l.arrived) else decide (g ∈ arrived))

/-- The phase's reduced values: this Grove's with the other Groves', each a Grove, a ROP, a value and the flags of the
roundings of that Grove's own folds (R302, R303). -/
def phaseReduce (gid : Nat) (others : List (Nat × Nat × Word × Word)) (l : Launch) : Launch :=
  let node := coverNode l
  let os := others.filter (fun o => inRect l o.1 && o.1 != gid && decide (o.2.1 < 8))
  let rops := (List.range 8).filter (fun r => decide (r ∈ l.phSet) || os.any (fun o => o.2.1 == r))
  let leaf (r g : Nat) : Word :=
    if g = gid then (if r ∈ l.phSet then rget 0 l.phVal r else ropIdent r)
    else match os.find? (fun o => o.1 == g && o.2.1 == r) with
      | some o => o.2.2.1
      | none => ropIdent r
  rops.foldl (fun l r =>
    let v := treeReduce r (leaf r) (node.a + node.b) node
    { l with phRes := rset 0 l.phRes r v.1, phResSet := r :: l.phResSet, phFlags := l.phFlags ||| v.2 })
    { l with phRes := [], phResSet := [], phFlags := os.foldl (fun f o => f ||| o.2.2.2) l.phLoc, phVal := [], phSet := [], phLoc := 0 }

/-- PHASE_NODE_COMPLETE: step 1. The tasks of the phase on other Groves have ended. `arrived` are the other Groves of the rectangle
that have arrived, `others` their phase-mode BARR values with their flags (R50, R52, R302, R303). -/
def execPhaseNodeComplete (launch : Nat) (arrived : List Nat) (others : List (Nat × Nat × Word × Word)) (s : State) :
    Host.Outcome State Fault Refusal :=
  .next (
    let t := settleAll <| takePinned launch arrived (endAway (fun a => a.launch == launch && a.phase == curPhase (launchOf s launch)) s)
    let l := launchOf t launch
    if l.st == .active && allArrived t l arrived && popEmpty t launch then
      modLaunch t launch (fun l => { phaseReduce t.gv.id others l with st := .drain })
    else s)

/-- The buffered stores that step 2 drains: all but those of a launch whose shape is pending, and those of kept tiles,
which settlement publishes (R127, R195). -/
def drainStores (n : Nat) (e : BufByte) : Bool := e.launch == n && !e.prov && !e.late

/-- PHASE_DRAIN_DONE: step 2 (R52, R127). -/
def execPhaseDrainDone (launch : Nat) (s : State) : Host.Outcome State Fault Refusal :=
  .next (
    if (launchOf s launch).st == .drain then
      let t := publish (drainStores launch) s
      if published (drainStores launch) t then modLaunch t launch (fun l => { l with st := .exchange }) else t
    else s)

/-- Every exchange job issued in the launch's phase is complete (R52, R384). -/
def exchangeDone (s : State) (n : Nat) : Bool :=
  s.gv.jobs.all (fun j => !(j.launch == n && j.exch && j.phase == curPhase (launchOf s n)))

/-- PHASE_EXCHANGE_DONE: step 3 (R52). -/
def execPhaseExchangeDone (launch : Nat) (s : State) : Host.Outcome State Fault Refusal :=
  .next (
    if (launchOf s launch).st == .exchange && exchangeDone s launch then modLaunch s launch (fun l => { l with st := .resolve })
    else s)

/-- A waiting record is a TAP record of launch n (R480). -/
def isTapRec (n : Nat) (w : RingRec) : Bool :=
  bits (w.words.getD 0 0).toNat 63 48 == 0x90 && bits (w.words.getD 0 0).toNat 17 12 == n

/-- Step 6 waits until every tap record of the boundary is written (R478). -/
def tapSent (s : State) (n : Nat) : Bool :=
  s.dev.ringWait.all (fun w => !(w.ring == ringKey (launchOf s n).part 0 0 && isTapRec n w))

/-- PHASE_STALL: the phase watchdog has expired in COMPUTE, or while step 5 waits for a full event ring (R53, R61, R478). It is
reported once a phase. -/
def execPhaseStall (launch : Nat) (s : State) : Host.Outcome State Fault Refusal :=
  .next (
    let l := launchOf s launch
    if (l.st == .active || l.st == .evicted || (l.st == .flip && !tapSent s launch)) && !l.stalled then
      launchCond launch .phaseStall (modLaunch s launch (fun l => { l with stalled := true }))
    else s)

/-! ## Slot configuration at an operator boundary (R202, R473, R474) -/

/-- Every arm state of a slot ARMED (R175). -/
def armSlot (part q : Nat) (s : State) : State :=
  modDev s (fun d => { d with fired := d.fired.filter (fun a => !(a / 2 ^ 21 == part && a / 8 % 4096 == q)) })

/-- SEQCFG's write of a slot record (R202, R474). -/
def applySeqcfg (part : Nat) (p : Pkt) (s : State) : State :=
  let w (k : Nat) : Nat := (p.pay.getD k 0).toNat
  let q := bits (w 0) 11 0
  let clr := (bit (w 0) 17).toNat * 2 ^ 30 + (bit (w 0) 18).toNat * 2 ^ 29 + (bit (w 0) 19).toNat * 2 ^ 28 +
    (bit (w 0) 20).toNat * 4 + (bit (w 0) 21).toNat * 2 + (bit (w 0) 22).toNat
  let st := withField (slotWord s q 0 &&& ~~~w64 clr) 31 1 (bit (w 0) 16).toNat
  let s := putSlotWord s q 0 st
  let s := putSlotWord s q 2 (withField (withField (slotWord s q 2) 32 32 (bits (w 1) 63 32)) 0 20 (bits (w 1) 19 0))
  let s := modDev s (fun d => { d with
    slotSteer := rset 0 d.slotSteer q (if bit (w 2) 63 then 0 else bits (w 2) 37 32 + 1)
    slotAlpha := rset 0 d.slotAlpha q (BitVec.ofNat 32 (w 2)) })
  armSlot part q s

/-- SEEDSEQ's write of a slot's seed (R202). -/
def applySeedseq (p : Pkt) (s : State) : State :=
  let q := bits (p.pay.getD 0 0).toNat 11 0
  let ws := ((p.pay.drop 1).take 4).flatMap (fun (w : Word) => [(w.setWidth 32 : BitVec 32), (w >>> 32).setWidth 32])
  let s := putSlotWord s q 1 0
  modDev s (fun d => { d with seeds := rsetAll 0 d.seeds (8 * q) ws, rings := rset 0 d.rings q 0 })

/-- A GCMT or SPALLOC job of the partition is running, so that its slot records are not to be configured (R221, R473). -/
def slotsBusy (s : State) (part : Nat) : Bool :=
  s.gv.jobs.any (fun j => j.st == .running && (j.op == 0x111 || j.op == 0x112) && (launchOf s j.launch).part == part)

/-- The slot configuration whose operator boundary has passed, applied in the order in which it was performed, between two
commits of the partition (R473). -/
def applySlots (part : Nat) (s : State) : State :=
  if slotsBusy s part then s
  else
    let s := (s.dev.slotDue.filter (fun x => x.1 == part)).foldl (fun s x =>
      if x.2.opc = 0x10 then applySeqcfg part x.2 s else applySeedseq x.2 s) s
    modDev s (fun d => { d with slotDue := d.slotDue.filter (fun x => x.1 != part) })

/-- An operator of the partition retires: what is pending falls due (R202, R473). -/
def passBoundary (part : Nat) (s : State) : State :=
  applySlots part (modDev s (fun d => { d with
    slotDue := d.slotDue ++ d.slotPend.filter (fun x => x.1 == part)
    slotPend := d.slotPend.filter (fun x => x.1 != part) }))

/-- A partition whose due slot configuration may be applied. -/
def slotsDue (s : State) : Option Nat := (s.dev.slotDue.find? (fun x => !slotsBusy s x.1)).map (fun x => x.1)

/-! ## Command queues and chains -/

/-- A command queue. -/
def cmdq (s : State) (q : Nat) : CmdQ := rget {} s.dev.cmdqs q

/-- A command queue changed. -/
def modCq (s : State) (q : Nat) (f : CmdQ → CmdQ) : State := modDev s (fun d => { d with cmdqs := rmod {} d.cmdqs q f })

/-- The partition of a command queue, for its sequence numbers and its addresses: the management queue has none. -/
def cqPart (s : State) (q : Nat) : Nat := if q = mgmtQ then mgmtPart else (cmdq s q).part

/-- The packet that a queue performs completes (R462, R465). -/
def endPacket (q status : Nat) (result : Word) (s : State) : State :=
  let c := cmdq s q
  match c.cur with
  | none => s
  | some p =>
    let s := if p.cmpl then complete (cqPart s q) p.caddr c.pseq status p.opc p.tag result s else s
    modCq s q (fun c => { c with cur := none, pseq := 0, chain := {} })

/-- The completion of an operator record (R465, R469): OCADDR 0 asks for none. -/
def endOperator (part pseq status : Nat) (result : Word) (op : List Word) (s : State) : State :=
  if op.getD 10 0 = 0 then s
  else complete part (op.getD 10 0) pseq status 1 (bits (op.getD 11 0).toNat 31 0) result s

/-- A launch slot that is free. -/
def freeSlot (s : State) : Option Nat := (List.range 64).find? (fun n => (launchOf s n).st == .empty)

/-- The checks of R19 to R21 and R469 on an operator record that need no chain word: gx and the frame base are left out
where chain words give them. -/
def recordOk (w : List Word) : Bool :=
  let n (k : Nat) : Nat := (w.getD k 0).toNat
  let l : Launch := { op := w }
  let wsel := bits (n 3) 63 62
  let mwb := bits (n 3) 61 56
  let mwl := bits (n 3) 53 48
  bits (n 1) 63 59 == 0 && bits (n 1) 50 48 == 0 && bits (n 3) 55 54 == 0 && bits (n 8) 63 40 == 0 &&
  bits (n 11) 63 32 == 0 && [12, 13, 14, 15].all (fun k => n k == 0) &&
  decide (1 ≤ opW l) && decide (opX0 l + opW l ≤ 16) && decide (1 ≤ opH l) && decide (opY0 l + opH l ≤ 16) &&
  wsel != 3 && (if wsel = 2 then decide (mwb ≤ mwl) && decide (mwl ≤ 47) else mwb == 0 && mwl == 0) &&
  opSrun l != 0 && opGy l != 0 && opGz l != 0 &&
  n 2 % 8 == 0 && decide (pathOf (n 2) ≤ 1) && qualOf (n 2) == 0 &&
  opArena l % 256 == 0 && opArenaSize l % 256 == 0 &&
  (!opShp l || (n 7 % 8 == 0 && (pathOf (n 7) == 0 || pathOf (n 7) == 2) && qualOf (n 7) == 0))

/-- The checks on the grid, with gx as it is resolved (R19 to R21). -/
def dimsOk (l : Launch) : Bool :=
  l.gx != 0 && decide (gridTiles l ≤ 2 ^ 24) && decide ((gridTiles l - 1) * opStride l < 2 ^ 32)

/-- The checks on the grid and the frames, with gx and the frame base as they are resolved (R19 to R21). -/
def gridOk (l : Launch) : Bool := dimsOk l && l.fbase.toNat % 16 == 0

/-- The launch that an operator record describes: gx and the frame base by its chain words (R469). -/
def launchFrom (s : State) (q : Nat) (w : List Word) : Launch :=
  let n1 := (w.getD 1 0).toNat
  let cw (k : Nat) : Word := rget 0 (cmdq s q).cw k
  { op := w, part := (cmdq s q).part, cmdq := q, st := .loaded,
    fbase := if bit n1 55 then cw (bits n1 58 56) else w.getD 4 0,
    gx := if bit n1 51 then (cw (bits n1 54 52)).toNat % 2 ^ 16 else bits n1 15 0 }

/-- The rectangle lies in the Glades of the partition (R524). -/
def rectOwned (s : State) (l : Launch) : Bool := (rectGroves l).all (fun g => gladeShare s l.part (gladeOf g))

/-- The status that the expansion of an operator comes to: OK, REFUSED, or DENIED for PRIV from a HOST queue (R20, R420,
R426, R466, R470). What a chain word gives is checked when it is resolved (R469). A queue that is bound to a launch of
another chain refuses the operator although that launch is only LOADED, a case that R20 does not name (DESIGN CHOICE,
notes/assumptions/68.md). -/
def expandStatus (s : State) (q : Nat) (w : List Word) : Nat :=
  let c := cmdq s q
  let kin : List (Option Nat) := [c.chain.active, c.opThen.slot]
  let l := launchFrom s q w
  let k := queueOf s (opQueue l)
  let asid := (rget 0 s.dev.asidtab (2 * opAsid l)).toNat
  if opPriv l = 1 && !c.owner then stDenied
  else if recordOk w && (bit (w.getD 1 0).toNat 51 || dimsOk l) &&
    (bit (w.getD 1 0).toNat 55 || l.fbase.toNat % 16 == 0) && rectOwned s l && !k.mailbox &&
    queueShare s c.part (opQueue l) && (k.bound.isNone || kin.contains k.bound) &&
    bit asid 63 && asidShare s c.part (opAsid l)
  then stOk else stRefused

/-- An operator record expanded into launch slot n: the slot reserved, its work queue bound (R470). -/
def reserveOp (q n : Nat) (w : List Word) (s : State) : State :=
  let l := launchFrom s q w
  let s := modLaunch s n (fun _ => l)
  if (queueOf s (opQueue l)).bound.isNone then modQueue s (opQueue l) (fun k => { k with bound := some n }) else s

/-- The next operator of a queue's chain expanded into a shadow bank (R470). -/
def expandNext (q : Nat) (s : State) : State :=
  let c := cmdq s q
  match c.chain.todo, freeSlot s with
  | w :: r, some n =>
    let st := expandStatus s q w
    if st = stOk then
      reserveOp q n w (modCq s q (fun c => { c with chain := { c.chain with todo := r, shadow := some n } }))
    else modCq s q (fun c => { c with chain := { c.chain with bad := some st } })
  | _, _ => s

/-- Launch slot n released. Its work queue is unbound, or its binding passes to the first of the operators ms that waits
for the same queue (R55, R470, R472). -/
def releaseSlot (ms : List Nat) (n : Nat) (s : State) : State :=
  let l := launchOf s n
  let heir := ms.find? (fun m => m != n && opQueue (launchOf s m) == opQueue l)
  let s := if (queueOf s (opQueue l)).bound == some n then modQueue s (opQueue l) (fun k => { k with bound := heir }) else s
  modLaunch s n (fun _ => {})

/-- The operators of a command queue that are expanded and wait: in its chain, and of the arms of a PRED. -/
def waitingOps (c : CmdQ) : List Nat :=
  c.chain.shadow.toList ++ c.opThen.slot.toList ++ c.opElse.slot.toList ++ c.opTaken.slot.toList

/-- The slot of a launch that retires released: the binding passes to the operator that follows it. -/
def releaseLaunch (n : Nat) (s : State) : State := releaseSlot (waitingOps (cmdq s (launchOf s n).cmdq)) n s

/-- The operators left of a chain complete with REFUSED, the first of them with the given status, and the packet ends (R470). -/
def refuseRest (q st : Nat) (ops : List (List Word)) (s : State) : State :=
  let p := (cmdq s q).part
  let s := match ops with
    | [] => s
    | w :: r => r.foldl (fun s w => endOperator p 0 stRefused 0 w s) (endOperator p 0 st 0 w s)
  endPacket q stRefused 0 s

/-- The shape word of a launch, read at home in its ASID (R20, R188): its home and value, or none. -/
def readShape (s : State) (l : Launch) : Option (Nat × Word) × State :=
  let a := opWord l 7
  match translate .ld (opAsid l) (opPriv l) l.part a s with
  | (.ok (.dev, pa, _), s) => (if ueIn s .dev pa 8 then none else some (pa, homeWord s .dev pa), touchHome .dev pa 8 s)
  | (_, s) => (none, s)

/-- The shape word lies in a bank that holds accesses back: the operator waits (R506). -/
def shapeHeld (s : State) (l : Launch) : Bool :=
  opShp l && (match (translate .ld (opAsid l) (opPriv l) l.part (opWord l 7) s).1 with
    | .ok (.dev, pa, _) => heldIn s .dev pa 8
    | _ => false)

/-- The predicted extent of an SPT entry (R188). -/
def predictExtent (s : State) (l : Launch) : Nat :=
  let t := sptTab l
  let e := opSpt l
  let w0 := sptWord s t e 0
  let h := [bits (sptWord s t e 1) 24 0, bits (sptWord s t e 1) 49 25, bits (sptWord s t e 2) 24 0, bits (sptWord s t e 2) 49 25]
  let nh := w0 % 8
  let pol := bits w0 63 62
  let p := if pol = 0 then 0
    else if pol = 1 && nh != 0 then h.getD 0 0
    else if pol = 2 && nh != 0 then (h.take nh).foldl max 0
    else bits w0 56 32
  min p (gridTiles l)

/-- The first records of a launch that has become ACTIVE: all tiles, or those of its shape or prediction (R21, R188). A launch that its
shape word resolves at once makes no prediction; SHPRD then shows E as its P (DESIGN CHOICE, notes/assumptions/83.md). -/
def startTiles (n : Nat) (shape : Option (Nat × Word)) (s : State) : State :=
  let l := launchOf s n
  let s := match shape with
    | none => modLaunch s n (fun l => { l with tileEnd := gridTiles l })
    | some (pa, w) =>
      if resolves l w then
        let ext := min (bits w.toNat 24 0) (gridTiles l)
        let s := if bits w.toNat 24 0 > gridTiles l then launchCond n .shapeBad s else s
        let s := sptHistory (sptTab l) (opSpt l) ext s
        modLaunch s n (fun l => { l with shaped := true, resolved := true, settled := true, ext := ext, pred := ext,
                                         shapePa := pa, tileEnd := ext })
      else
        let p := predictExtent s l
        modLaunch s n (fun l => { l with shaped := true, resolved := false, settled := false, pred := p, shapePa := pa,
                                         tileEnd := p, tileProv := true })
  fillLaunch n s

/-- The shadow operator of a queue becomes ACTIVE (R188, R469, R470): its chain words resolved, its number taken, its
tables chosen, its records enqueued; a last cause of R20 refuses it. -/
def activateNext (q n : Nat) (s : State) : State :=
  let c := cmdq s q
  let l0 := launchOf s n
  let l := { launchFrom s q l0.op with
             tapVer := rget 0 s.dev.tapCur c.part, steerVer := rget 0 s.dev.steerCur c.part,
             sptVer := rget 0 s.dev.sptCur c.part }
  let (shape, s1) := if opShp l then readShape s l else (none, s)
  if shapeHeld s l then s
  else if !gridOk l || (opShp l && shape.isNone) then
    let s := modCq s1 q (fun c => { c with chain := { c.chain with shadow := none } })
    refuseRest q stRefused (l0.op :: c.chain.todo) (releaseLaunch n s)
  else
    let (seq, s) := nextSeq c.part s1
    let s := modCq s q (fun c => { c with
      pseq := if c.pseq = 0 then seq else c.pseq
      chain := { c.chain with shadow := none, active := some n } })
    let s := modLaunch s n (fun _ => { l with st := .active, seq := seq, phaseStart := s.now, arenaTop := opArena l })
    startTiles n shape s

/-- The chain of a queue has a step to take (R470): an operator to make ACTIVE, one to expand, a refusal to complete. -/
def chainReady (s : State) (q : Nat) : Bool :=
  let c := cmdq s q
  let k := c.chain
  (c.ctl == 0 || (k.shadow.isNone && k.bad.isNone && k.todo.isEmpty)) &&
  (match c.cur with | some p => p.opc == 1 | none => false) &&
  ((k.active.isNone && !k.hold && !s.dev.recovering && (k.shadow.isSome || k.bad.isSome || k.todo.isEmpty)) ||
   (k.shadow.isNone && k.bad.isNone && !k.todo.isEmpty && (freeSlot s).isSome))

/-- One step of a queue's chain (R470). -/
def chainStep (q : Nat) (s : State) : State :=
  let k := (cmdq s q).chain
  if !chainReady s q then s
  else if k.active.isNone && !k.hold && !s.dev.recovering then
    match k.shadow, k.bad with
    | some n, _ => activateNext q n s
    | none, some st => refuseRest q st k.todo s
    | none, none => if k.todo.isEmpty then endPacket q k.status k.result s else expandNext q s
  else expandNext q s

/-! ## The flip, and the end of a launch (R52, R55, R179, R184) -/

/-- The tap actions of a launch's boundary: TRAP and HOLD mark their slots, and a TRAP raises the supervisor's tap
interrupt (R184, R442). -/
def tapActions (n part : Nat) (s : State) : State :=
  let mine := (s.dev.tapActs.filter (fun a => a.1 == n)).map (fun a => a.2)
  let s := mine.foldl (fun s a => setStatus (a % 4096) (if a / 4096 = 1 then 2 ^ 30 else 2 ^ 29) s) s
  let key := ringKey part 0 0
  modDev s (fun d => { d with
    tapActs := d.tapActs.filter (fun a => a.1 != n)
    irqs := if mine.any (fun a => a / 4096 == 1) && (rget {} d.evrings key).irq then key :: d.irqs else d.irqs })

/-- The points that a launch declared and that are enabled, but that no phase presented (R179). -/
def missedTaps (s : State) (l : Launch) : List Nat :=
  (List.range 64).filter (fun p => tapDeclared l p && tapEn s (tapTab l) p && decide (p ∉ l.everPres))

/-- RESULT of an operator's completion (R465). -/
def launchResult (l : Launch) : Word :=
  w64 (min l.holeBytes (2 ^ 32 - 1) * 2 ^ 32 + min l.squashed 0xFFFF * 2 ^ 16 + min l.holes 0xFF * 2 ^ 8 + l.jobFlags.toNat % 64)

/-- The chain has an operator after the active one. -/
def nextOperator (k : Chain) : Bool := k.shadow.isSome || k.bad.isSome || !k.todo.isEmpty

/-- The end of a launch (R55): handles freed, arena and queue given back, lines of path 0x1 dropped (R116), pending
configuration applied, the completion written while the partition is LIVE, the slot released; then the chain goes on (R470),
unless TAP_MISSED holds its next operator (R179). A launch that is FAULTED ends here too, once it has neither tasks nor jobs: its
completion says FAULTED and the next operator becomes ACTIVE, where R60 gives no row out of FAULTED (DESIGN CHOICE,
notes/assumptions/77.md). -/
def endLaunch (n : Nat) (s : State) : State :=
  let l := launchOf s n
  let faulted := l.st == .faulted
  let missed := if faulted then [] else missedTaps s l
  let s := missed.foldl (fun s _ => launchCond n .tapMissed s) s
  let s := freeHandles (fun h => h.alloc && !h.freed && h.launchLife && h.launch == n) s
  let s := modGv s (fun g => { g with tapbuf := g.tapbuf.filter (fun e => e.1 / 2 ^ 21 != n) })
  let s := modDev s (fun d => { d with tapActs := d.tapActs.filter (fun a => a.1 != n) })
  let s := dropPath1 (passBoundary l.part (launchGone n s))
  let status := if faulted then stFaulted else if missed.isEmpty then stOk else stTapMissed
  let s := if l.part ∈ s.dev.live then endOperator l.part l.seq status (launchResult l) l.op s else s
  let s := releaseLaunch n s
  if (cmdq s l.cmdq).chain.active == some n then
    chainStep l.cmdq (modCq s l.cmdq (fun c => { c with chain := { c.chain with
      active := none, status := status, result := launchResult l, hold := !missed.isEmpty && nextOperator c.chain } }))
  else s

/-- The launch may end: no job of it is left (R55). -/
def mayEnd (s : State) (n : Nat) : Bool := !jobsOf s n

/-- The records whose phase a flip makes current are no longer marked released: the flip invalidates in any case (R139). -/
def clearMarks (n : Nat) (s : State) : State :=
  let l := launchOf s n
  modDev s (fun d => { d with queues := d.queues.map (fun q => (q.1, { q.2 with
    entries := q.2.entries.map (fun e => if recInPhase l n e then { e with released := false } else e) })) })

/-- Step 6 and what follows it (R52, R55, R60). -/
def flipPhase (n : Nat) (s : State) : State :=
  let l := launchOf s n
  let s := tapActions n l.part (dropPath0 s)
  let s := modLaunch s n (fun l => { l with
    phase := l.phase + 1, phaseStart := s.now, stalled := false, arrived := [], nowPres := [], farPres := [], st := .active })
  let s := clearMarks n s
  if popEmpty s n && !laterRecs s n then
    (if mayEnd s n then endLaunch n s else modLaunch s n (fun l => { l with st := .waitJobs }))
  else s

/-- PHASE_FLIP: step 6 of the boundary; or the end of a launch that waited for its last jobs, or of one that is FAULTED
(R52, R55). -/
def execPhaseFlip (launch : Nat) (s : State) : Host.Outcome State Fault Refusal :=
  .next (
    let l := launchOf s launch
    if l.st == .flip && tapSent s launch then flipPhase launch s
    else if (l.st == .waitJobs || (l.st == .faulted && !tasksOf s launch)) && mayEnd s launch then endLaunch launch s
    else s)

end Sys2Proof.Machine
end

