-- ==== Sys2Proof/Machine/Sha256.lean ====
section
/-!
DEFINITION. SHA-256, with which measurements are made and images are checked (R534). The digest is a list of its 32
bytes in order.
-/

namespace Sys2Proof.Machine

/-- The numbers below n that no smaller number above 1 divides. -/
def primesBelow (n : Nat) : List Nat :=
  (List.range n).filter (fun p => decide (1 < p) && (List.range p).all (fun d => decide (d < 2) || p % d != 0))

/-- The largest r below 2^n for which f holds, where f holds of every number up to it: its bits found from the top. -/
def largestBelow (f : Nat → Bool) : Nat → Nat
  | 0 => 0
  | n + 1 =>
    let hi := largestBelow (fun r => f (2 * r)) n
    if f (2 * hi + 1) then 2 * hi + 1 else 2 * hi

/-- The first 32 bits of the fraction of the k-th root of p: the root of p × 2^(32k), its whole part dropped. -/
def rootFraction (k p : Nat) : BitVec 32 := BitVec.ofNat 32 (largestBelow (fun r => decide (r ^ k ≤ p * 2 ^ (32 * k))) 40)

/-- The round constants: of the cube roots of the first 64 primes. -/
def shaK : List (BitVec 32) := (primesBelow 312).map (rootFraction 3)

/-- The initial chaining value: of the square roots of the first eight primes. -/
def shaH : List (BitVec 32) := (primesBelow 20).map (rootFraction 2)

/-- The exclusive or of a word's rotations to the right. -/
def rotXor (x : BitVec 32) (ns : List Nat) : BitVec 32 := ns.foldl (fun a n => a ^^^ x.rotateRight n) 0

/-- A word of the message schedule from the sixteen before it, newest first. -/
def shaNext (ws : List (BitVec 32)) : BitVec 32 :=
  let back (n : Nat) : BitVec 32 := ws.getD (n - 1) 0
  back 16 + back 7 + (rotXor (back 15) [7, 18] ^^^ (back 15 >>> 3)) + (rotXor (back 2) [17, 19] ^^^ (back 2 >>> 10))

/-- n more words of the schedule, newest first. -/
def shaGrow : Nat → List (BitVec 32) → List (BitVec 32)
  | 0, ws => ws
  | n + 1, ws => shaGrow n (shaNext ws :: ws)

/-- One round on the eight working variables, the first of them first, with its constant and its schedule word. -/
def shaRound (v : List (BitVec 32)) (kw : BitVec 32 × BitVec 32) : List (BitVec 32) :=
  let x (n : Nat) : BitVec 32 := v.getD n 0
  let choice := (x 4 &&& x 5) ||| (~~~(x 4) &&& x 6)
  let majority := (x 0 &&& x 1) ||| (x 2 &&& (x 0 ||| x 1))
  let mixed := x 7 + kw.1 + kw.2 + choice + rotXor (x 4) [6, 11, 25]
  (mixed + majority + rotXor (x 0) [2, 13, 22]) :: (v.take 3 ++ (x 3 + mixed) :: (v.drop 4).take 3)

/-- The big-endian words of a byte list; fuel bounds them. -/
def shaWords : Nat → List Byte → List (BitVec 32)
  | 0, _ => []
  | n + 1, bs => BitVec.ofNat 32 (leNat (bs.take 4).reverse) :: shaWords n (bs.drop 4)

/-- The chaining value after n blocks. -/
def shaBlocks : Nat → List Byte → List (BitVec 32) → List (BitVec 32)
  | 0, _, h => h
  | n + 1, bs, h =>
    let ws := (shaGrow 48 (shaWords 16 bs).reverse).reverse
    let v := (shaK.zip ws).foldl shaRound h
    shaBlocks n (bs.drop 64) (List.zipWith (fun x y => x + y) h v)

/-- The SHA-256 digest of a byte list. -/
def sha256 (bs : List Byte) : List Byte :=
  let n := bs.length
  let z := (119 - n % 64) % 64
  let m := bs ++ [0x80] ++ List.replicate z 0 ++ (natLe 8 (8 * n)).reverse
  (shaBlocks (m.length / 64) m shaH).flatMap (fun w => (natLe 4 w.toNat).reverse)

/-- A digest as a number, its first byte lowest, and back. -/
def digestNum (bs : List Byte) : BitVec 256 := BitVec.ofNat 256 (leNat (bs.take 32))
def digestBytes (d : BitVec 256) : List Byte := natLe 32 d.toNat

end Sys2Proof.Machine
end

