-- ==== Sys2Proof/Machine/Front.lean ====
section
/-!
DEFINITION. The front end (spec/22; R527, R534, R535): doorbells, the parsing of packets, every packet, full rings, and
the control pair. A queue performs one packet at a time (R462); a packet that waits stays the queue's current packet.
-/

namespace Sys2Proof.Machine

/-! ## Rings of packets (R461) -/

/-- The bytes from a queue's head to its tail. -/
def cqAvail (c : CmdQ) : Nat := (c.tail % 2 ^ c.log2sz + 2 ^ c.log2sz - c.head) % 2 ^ c.log2sz

/-- A word of a queue's ring at an offset, which may wrap; none where it cannot be read. -/
def cqWord (q off : Nat) (s : State) : Option Word × State :=
  let c := cmdq s q
  if pathOf c.base.toNat = 0 || pathOf c.base.toNat = 5 then
    match devLoad (cqPart s q) (c.base.toNat + off % 2 ^ c.log2sz) 8 s with
    | (some bs, s) => (some (leW bs), s)
    | (none, s) => (none, s)
  else (none, s)

/-- n words of a queue's ring from an offset. -/
def cqWords (q off : Nat) : Nat → State → Option (List Word) × State
  | 0, s => (some [], s)
  | n + 1, s =>
    match cqWord q off s with
    | (none, s) => (none, s)
    | (some w, s) =>
      match cqWords q (off + 8) n s with
      | (none, s) => (none, s)
      | (some ws, s) => (some (w :: ws), s)

/-- The packet code and length of a header (R464). -/
def hdrOpc (h : Word) : Nat := bits h.toNat 63 56
def hdrNw (h : Word) : Nat := bits h.toNat 55 48

/-- The packet in its words (R464). -/
def pktOf (q : Nat) (ws : List Word) : Pkt :=
  let h := (ws.getD 0 0).toNat
  { q := q, opc := bits h 63 56, nw := bits h 55 48, cmpl := bit h 47, fnc := bit h 46, tag := bits h 31 0,
    caddr := ws.getD 1 0, pay := ws.drop 2 }

/-- A payload word of a packet. -/
def payN (p : Pkt) (k : Nat) : Nat := (p.pay.getD k 0).toNat

/-- The assigned packet codes (R466). -/
def opcAssigned (opc : Nat) : Bool :=
  [0x00, 0x01, 0x02, 0x03, 0x04, 0x05, 0x06, 0x10, 0x11, 0x12, 0x13, 0x14, 0x15, 0x16, 0x18, 0x19, 0x1A, 0x20, 0x21].contains opc

/-- The length that a packet's code asks for (R466). -/
def nwOk (p : Pkt) : Bool :=
  p.nw == match p.opc with
    | 0x00 => 2 | 0x01 => 3 + 16 * bits (payN p 0) 3 0 | 0x02 => 6 | 0x03 => 5 | 0x04 => 5 | 0x05 => 5 | 0x06 => 3
    | 0x10 => 6 | 0x11 => 7 | 0x12 => if bit (payN p 0) 0 then 5 else 23 | 0x13 => 7 | 0x14 => 4 | 0x15 => 6 | 0x16 => 5
    | 0x18 => 3 | 0x19 => 3 | 0x1A => 4 | 0x20 => 4 | 0x21 => 4 | _ => 0

/-- The reserved fields of a packet's own payload are zero, and a LAUNCH has 1 to 15 operators (R466 to R477). -/
def payOk (p : Pkt) : Bool :=
  let w (k : Nat) : Nat := payN p k
  match p.opc with
  | 0x01 => w 0 / 16 == 0 && w 0 != 0
  | 0x02 => bits (w 3) 63 24 == 0 && bits (w 3) 7 2 == 0 && decide (bits (w 3) 15 8 ≤ 8) && decide (bits (w 3) 23 16 ≤ 8)
  | 0x03 => bits (w 1) 61 3 == 0
  | 0x04 => bits (w 2) 62 3 == 0
  | 0x05 => w 2 / 2 ^ 32 == 0 && w 2 != 0
  | 0x10 => bits (w 0) 63 23 == 0 && bits (w 0) 15 12 == 0 && bits (w 1) 31 20 == 0 && bits (w 2) 62 38 == 0 && w 3 == 0
  | 0x11 => w 0 / 4096 == 0
  | 0x12 => bits (w 0) 63 14 == 0 && bits (w 0) 7 1 == 0
  | 0x13 => w 0 / 256 == 0
  | 0x14 => bits (w 0) 63 28 == 0 && decide (bits (w 0) 22 13 ≤ 512) && decide (8 ≤ bits (w 0) 27 23) && decide (bits (w 0) 27 23 ≤ 24)
  | 0x16 => bits (w 0) 63 14 == 0 && bits (w 0) 3 2 == 0 && decide (4 ≤ bits (w 0) 12 8) && decide (bits (w 0) 12 8 ≤ 20) &&
      (bits (w 0) 1 0 == 1 || bits (w 0) 7 4 == 0)
  | 0x18 => bits (w 0) 63 9 == 0 && bits (w 0) 7 6 == 0
  | 0x19 => w 0 / 64 == 0
  | 0x1A => w 0 / 4 == 0
  | 0x20 => w 1 / 2 ^ 32 == 0
  | _ => true

/-- The completion address is as R464 asks: zero without CMPL; else 32-byte aligned on path 0x0, 0x2 or 0x5. -/
def caddrOk (p : Pkt) : Bool :=
  if p.cmpl then
    let a := p.caddr.toNat
    a % 32 == 0 && (pathOf a == 0 || pathOf a == 2 || pathOf a == 5) && qualOf a == 0
  else p.caddr == 0

/-- The operator records of a LAUNCH. -/
def launchOps (p : Pkt) : List (List Word) := (List.range (bits (payN p 0) 3 0)).map (fun k => (p.pay.drop (1 + 16 * k)).take 16)

/-- The packet is accepted from its queue: the SUP column, by which a LAUNCH of any PRIV record needs a SUPERVISOR queue,
and the management queue's packets (R466, R527). -/
def accepted (s : State) (p : Pkt) : Bool :=
  if p.q = mgmtQ then p.opc == 0x00 || p.opc == 0x06 || p.opc == 0x1A || p.opc == 0x20
  else p.opc != 0x20 && ((cmdq s p.q).owner ||
    (if p.opc = 1 then (launchOps p).all (fun w => !bit (w.getD 0 0).toNat 30) else p.opc < 0x10 || p.opc == 0x1A))

/-! ## Performing a packet (R462 to R465) -/

/-- The packet may be performed: its queue runs and performs no other packet, or it is the packet that waits. -/
def mayPerform (s : State) (p : Pkt) : Bool :=
  s.dev.boot == 7 && ((cmdq s p.q).cur == some p || ((cmdq s p.q).cur.isNone && (cmdq s p.q).ctl == 0))

/-- A packet begins: it becomes the current packet of its queue and takes its number, but for a LAUNCH, whose operators
take theirs (R463). -/
def beginPacket (p : Pkt) (s : State) : State :=
  if (cmdq s p.q).cur.isSome then s
  else
    let (n, s) := if p.opc = 1 then (0, s) else nextSeq (cqPart s p.q) s
    modCq s p.q (fun c => { c with cur := some p, pseq := n, ready := none })

/-- What a packet comes to: it waits, or it completes with a status and a result. -/
abbrev Done := Option (Nat × Word) × State

/-- A packet performed: its effect, and its completion unless it waits. -/
def perform1 (p : Pkt) (f : State → Done) (s : State) : Host.Outcome State Fault Refusal :=
  .next (
    if mayPerform s p then
      match f (beginPacket p s) with
      | (some (st, r), s) => endPacket p.q st r s
      | (none, s) => s
    else s)

/-- The packet completes with a status. -/
def done (st : Nat) (s : State) (r : Word := 0) : Done := (some (st, r), s)

/-- A packet with its own checks made first: one that breaks them completes with REFUSED, one that its queue may not have with
DENIED (R466, R468). -/
def checked (p : Pkt) (f : State → Done) (s : State) : Done :=
  if !(nwOk p && payOk p && caddrOk p) then done stRefused s
  else if !accepted s p then done stDenied s
  else f s

/-- A queue stops at a bad packet: ERROR, and QUEUE_ERR but for the management queue (R468, R480). -/
def queueError (q : Nat) (s : State) : State :=
  let c := cmdq s q
  let s := modCq s q (fun c => { c with ctl := 2 })
  if q = mgmtQ then s
  else ringSend (ringKey c.part 0 0) (recWords { code := 0x93, info := q, addr := w64 c.head, ctx := 0 }) s

/-- The head moved past a packet of n words. -/
def passPacket (q n : Nat) (s : State) : State := modCq s q (fun c => { c with head := (c.head + 8 * n) % 2 ^ c.log2sz })

/-- A packet of the taken arm counted; after the THEN arm the ELSE arm is skipped (R472). -/
def countArm (q : Nat) (s : State) : State :=
  modCq s q (fun c =>
    if c.armLeft = 0 then c
    else if c.armLeft = 1 then { c with armLeft := 0, skipNow := c.skipLater, skipLater := 0 }
    else { c with armLeft := c.armLeft - 1 })

/-- The expanded operators of both arms given up. -/
def dropArms (q : Nat) (s : State) : State :=
  let s := match (cmdq s q).opElse.slot with | some n => releaseSlot (cmdq s q).opThen.slot.toList n s | none => s
  let s := match (cmdq s q).opThen.slot with | some n => releaseSlot [] n s | none => s
  let s := match (cmdq s q).opTaken.slot with | some n => releaseSlot [] n s | none => s
  modCq s q (fun c => { c with opThen := {}, opElse := {}, opTaken := {}, parsed := false })

/-- The reset doorbell: ERROR is cleared, the head set to the tail, and with it the arms that are still to be parsed go
(R468). -/
def resetQueue (q : Nat) (s : State) : State :=
  modCq (dropArms q s) q (fun c => { c with ctl := if c.ctl = 2 then 0 else c.ctl, head := c.tail % 2 ^ c.log2sz,
                                            armLeft := 0, skipNow := 0, skipLater := 0 })

/-- The queue performs a LAUNCH, every operator of which is ACTIVE or retired: both its shadow banks are free (R470,
R472). -/
def lastActive (c : CmdQ) : Bool :=
  c.cur.any (fun p => p.opc == 1) && c.chain.active.isSome && c.chain.todo.isEmpty && c.chain.shadow.isNone && c.chain.bad.isNone

/-- The queue may be parsed: a parse worker is in service, no parsed packet waits, and the queue performs no packet or the
last operator of a LAUNCH (R462, R472). -/
def canParse (s : State) (q : Nat) : Bool :=
  let c := cmdq s q
  s.dev.boot == 7 && s.dev.workers != 0 && c.ctl == 0 && (c.cur.isNone || lastActive c) && c.ready.isNone && decide (8 ≤ cqAvail c)

/-- The header of the packet at a queue's head. -/
def headHdr (s : State) (q : Nat) : Option Word × State := cqWord q (cmdq s q).head s

/-- The status with which a packet read whole completes before it is performed; OK where it is performed (R466, R468). -/
def packetStatus (s : State) (q : Nat) (ws : List Word) : Nat :=
  let p := pktOf q ws
  if bits (ws.getD 0 0).toNat 45 32 != 0 || !nwOk p || !payOk p || !caddrOk p then stRefused
  else if !accepted s p then stDenied
  else stOk

/-- While the last operator of a LAUNCH is ACTIVE, only an untaken arm is passed and only a good PRED is parsed, one that need
not wait for the packets before it (R464, R472). -/
def aheadOk (s : State) (q : Nat) (h : Word) : Bool :=
  decide (2 ≤ hdrNw h) && opcAssigned (hdrOpc h) && decide (8 * hdrNw h ≤ cqAvail (cmdq s q)) &&
  ((cmdq s q).skipNow != 0 || ((cmdq s q).armLeft == 0 && hdrOpc h == 2 && !bit h.toNat 46 &&
    ((cqWords q (cmdq s q).head (hdrNw h) s).1.any (fun ws => packetStatus s q ws == stOk))))

/-- The packet at a queue's head can be parsed: its header is bad, or the tail covers it (R461). -/
def parseDue (s : State) (q : Nat) : Bool :=
  canParse s q &&
  match (headHdr s q).1 with
  | none => (cmdq s q).cur.isNone
  | some h =>
    if (cmdq s q).cur.isSome then aheadOk s q h
    else hdrNw h < 2 || !opcAssigned (hdrOpc h) || decide (8 * hdrNw h ≤ cqAvail (cmdq s q))

/-- A packet read whole: it completes at once where it is malformed or denied, else it is the packet that its queue
performs next (R466, R468). -/
def dispatchPacket (q : Nat) (ws : List Word) (s : State) : State :=
  let p := pktOf q ws
  let s := countArm q (passPacket q p.nw s)
  let st := packetStatus s q ws
  if st = stOk then modCq s q (fun c => { c with ready := some p }) else endPacket q st 0 (beginPacket p s)

/-- The queue that the parse workers look at first, after one has served queue q (R462). -/
def nextQueue (q : Nat) (s : State) : State := modDev s (fun d => { d with cqNext := (q + 1) % 64 })

/-- PACKET_PARSE: the packet at the head of a queue is read (R461, R462, R468). -/
def execPacketParse (cq : Nat) (s : State) : Host.Outcome State Fault Refusal :=
  .next (
    if !parseDue s cq then s
    else
      match headHdr (nextQueue cq s) cq with
      | (none, s) => queueError cq s
      | (some h, s) =>
        if hdrNw h < 2 || !opcAssigned (hdrOpc h) then queueError cq s
        else if (cmdq s cq).skipNow != 0 then
          modCq (passPacket cq (hdrNw h) s) cq (fun c => { c with skipNow := c.skipNow - 1 })
        else
          match cqWords cq (cmdq s cq).head (hdrNw h) s with
          | (none, s) => queueError cq s
          | (some ws, s) => dispatchPacket cq ws s)

/-- CQ_TAIL_DOORBELL (R461, R527). -/
def execCqTailDoorbell (cq : Nat) (value : Word) (s : State) : Host.Outcome State Fault Refusal :=
  .next (if cq < 64 then modCq s cq (fun c => { c with tail := value.toNat % 2 ^ 32 }) else s)

/-- CQ_RESET_DOORBELL: ERROR is cleared and the head set to the tail (R468). -/
def execCqResetDoorbell (cq : Nat) (s : State) : Host.Outcome State Fault Refusal :=
  .next (
    if cq < 64 then resetQueue cq s else s)

/-! ## NOP, SIGNAL, WAITC, HCOPY, FENCE (R467) -/

/-- NOP. -/
def execNop (p : Pkt) (s : State) : Host.Outcome State Fault Refusal := perform1 p (checked p (done stOk)) s

/-- The eight bytes at a packet's address operand, read at home; none where the access fails. -/
def wordAt (s : State) (p : Pkt) (k : Nat) : Option Word × State :=
  if payN p k % 8 != 0 then (none, s)
  else
    match devLoad (cqPart s p.q) (payN p k) 8 s with
    | (some bs, s) => (some (leW bs), s)
    | (none, s) => (none, s)

/-- Bytes written at a packet's address operand; FAULTED where the access fails. -/
def storeAt (p : Pkt) (k : Nat) (bs : List Byte) (r : Word) (s : State) : Done :=
  if payN p k % 8 != 0 then done stFaulted s
  else
    match devStore (cqPart s p.q) (payN p k) bs s with
    | some s => done stOk s r
    | none => done stFaulted s

/-- SIGNAL mode 0: the add of R144. -/
def execSignalAdd (p : Pkt) (s : State) : Host.Outcome State Fault Refusal :=
  perform1 p (checked p (fun s =>
    match wordAt s p 0 with
    | (some w, s) => storeAt p 0 (natLe 8 (counterAdd w (payN p 2 % 2 ^ 63) (bit (payN p 2) 63)).toNat) 0 s
    | (none, s) => done stFaulted s)) s

/-- SIGNAL mode 1: an 8-byte store. -/
def execSignalStore (p : Pkt) (s : State) : Host.Outcome State Fault Refusal :=
  perform1 p (checked p (storeAt p 0 (natLe 8 (payN p 2)) 0)) s

/-- SIGNAL mode 2: a chain word (R471). -/
def execSignalChainWord (p : Pkt) (s : State) : Host.Outcome State Fault Refusal :=
  perform1 p (checked p (fun s =>
    if payN p 0 != 0 then done stRefused s
    else done stOk (modCq s p.q (fun c => { c with cw := rset 0 c.cw (payN p 1 % 8) (p.pay.getD 2 0) })))) s

/-- SIGNAL mode 3. -/
def execSignalRefused (p : Pkt) (s : State) : Host.Outcome State Fault Refusal := perform1 p (done stRefused) s

/-- The counter of a WAITC has reached its target: then it completes, with its chain word. -/
def waitcTry (p : Pkt) (s : State) : Done :=
  match wordAt s p 0 with
  | (none, s) => done stFaulted s
  | (some v, s) =>
    if v.toNat < payN p 1 then (none, s)
    else done stOk (if bit (payN p 2) 63 then modCq s p.q (fun c => { c with cw := rset 0 c.cw (payN p 2 % 8) v }) else s)

/-- WAITC. -/
def execWaitc (p : Pkt) (s : State) : Host.Outcome State Fault Refusal := perform1 p (checked p (waitcTry p)) s

/-- A WAITC of a queue waits no longer. -/
def waitcDue (s : State) (q : Nat) : Bool :=
  match (cmdq s q).cur with
  | some p => p.opc == 4 && (waitcTry p s).1.isSome
  | none => false

/-- WAITC_SATISFIED: the counter that a queue waits for reaches its target. -/
def execWaitcSatisfied (cq : Nat) (s : State) : Host.Outcome State Fault Refusal :=
  match (cmdq s cq).cur with
  | some p => if p.opc = 4 && p.q = cq then perform1 p (waitcTry p) s else .next s
  | none => .next s

/-- The bytes that HCOPY reads, on the paths of an XCOPY source; path 0x3 reads the view (R112, R381). -/
def hcopySource (part a n : Nat) (s : State) : Option (List Byte) × State :=
  match addrCheck .ld a n with
  | .error _ => (none, s)
  | .ok _ =>
    if pathOf a ≥ 4 && pathOf a != 5 then (none, s)
    else
      match devSegs .ld part (pageSegs a n (n / 65536 + 2)) s with
      | (none, s) => (none, s)
      | (some hs, s) =>
        if pathOf a = 3 then
          let ps := hs.flatMap (fun h => (List.range h.2).map (fun i => viewSource (a + i) (h.1.2.1 + i)))
          if ps.any (fun x => heldIn s .dev x 1) then (none, devWaits s) else
          (if ps.any (fun x => ueIn s .dev x 1) then none else some (ps.map (devByte s)),
            hs.foldl (fun s h => { s with asked := s.asked ++ [{ line := h.1.2.1 / 2048 * 16, n := 16 }] }) s)
        else if segHeld s hs then (none, devWaits s)
        else (if segUe s hs then none else some (segBytes s hs), touchSegs s hs)

/-- HCOPY: every byte is read before any is written. -/
def execHcopy (p : Pkt) (s : State) : Host.Outcome State Fault Refusal :=
  perform1 p (checked p (fun s =>
    if payN p 0 % 8 != 0 then done stFaulted s
    else
      match hcopySource (cqPart s p.q) (payN p 0) (payN p 2) s with
      | (some bs, s) => storeAt p 1 bs 0 s
      | (none, s) => done stFaulted s)) s

/-- Every packet of the named queues of the partition with a lower number than the FENCE has completed. -/
def fenceOpen (s : State) (p : Pkt) : Bool :=
  (List.range 64).all (fun q => !bit (payN p 0) q || q == p.q || cqPart s q != cqPart s p.q || (cmdq s q).cur.isNone ||
    (cmdq s q).pseq == 0 || decide ((cmdq s p.q).pseq < (cmdq s q).pseq))

/-- FENCE. -/
def execCqFence (p : Pkt) (s : State) : Host.Outcome State Fault Refusal :=
  perform1 p (checked p (fun s => if fenceOpen s p then done stOk s else (none, s))) s

/-! ## LAUNCH and PRED (R470, R472) -/

/-- LAUNCH: its chain begins, with the operator that a PRED has expanded as its first, if there is one. -/
def execLaunch (p : Pkt) (s : State) : Host.Outcome State Fault Refusal :=
  .next (
    if !mayPerform s p || (cmdq s p.q).cur.isSome then s
    else
      let s := beginPacket p s
      if !(nwOk p && payOk p && caddrOk p) then endPacket p.q stRefused 0 s
      else if !accepted s p then endPacket p.q stDenied 0 s
      else
        let ops := launchOps p
        let t := (cmdq s p.q).opTaken
        chainStep p.q (modCq s p.q (fun c => { c with
          opTaken := {}, chain := { todo := if t.slot.isSome then ops.drop 1 else ops, shadow := t.slot, bad := t.bad } })))

/-- The packets of an arm: the words of each, from an offset of the ring. None where the tail does not cover them; an
empty packet where one may not stand in an arm (R472). -/
def armPackets (q : Nat) : Nat → Nat → State → Option (List (List Word)) × State
  | 0, _, s => (some [], s)
  | n + 1, off, s =>
    let c := cmdq s q
    if cqAvail c < off + 8 then (none, s)
    else
      match cqWord q (c.head + off) s with
      | (none, s) => (some [[]], s)
      | (some h, s) =>
        if hdrNw h < 2 || !([0, 1, 3, 4, 6].contains (hdrOpc h)) then (some [[]], s)
        else if cqAvail c < off + 8 * hdrNw h then (none, s)
        else
          match cqWords q (c.head + off) (hdrNw h) s with
          | (none, s) => (some [[]], s)
          | (some ws, s) =>
            match armPackets q n (off + 8 * hdrNw h) s with
            | (none, s) => (none, s)
            | (some r, s) => (some (ws :: r), s)

/-- The first operator record of an arm: of its first LAUNCH, where that is performed at all; none where the packet begins only after
every earlier one has completed (FNC, R464). -/
def firstOp (s : State) (q : Nat) (ps : List (List Word)) : Option (List Word) :=
  match ps.find? (fun ws => (pktOf q ws).opc == 1) with
  | some ws => if !(pktOf q ws).fnc && packetStatus s q ws == stOk then (launchOps (pktOf q ws)).head? else none
  | none => none

/-- The first operator of an arm expanded into its shadow bank, while a launch slot is free. -/
def expandArm (q : Nat) (op : Option (List Word)) (put : ArmOp → CmdQ → CmdQ) (s : State) : State :=
  match op, freeSlot s with
  | some w, some n =>
    let st := expandStatus s q w
    if st = stOk then reserveOp q n w (modCq s q (put { slot := some n })) else modCq s q (put { bad := some st })
  | _, _ => s

/-- The arms of the PRED that a queue performs, parsed and expanded once the tail covers them. Answers whether they are
parsed, and whether they are allowed. -/
def parseArms (p : Pkt) (s : State) : Option Bool × State :=
  let nt := bits (payN p 3) 15 8
  let ne := bits (payN p 3) 23 16
  if (cmdq s p.q).parsed then (some true, s)
  else
    match armPackets p.q (nt + ne) 0 s with
    | (none, s) => (none, s)
    | (some ps, s) =>
      if ps.any (fun ws => ws.isEmpty) then (some false, s)
      else
        let s := expandArm p.q (firstOp s p.q (ps.take nt)) (fun a c => { c with opThen := a }) s
        let s := expandArm p.q (firstOp s p.q (ps.drop nt)) (fun a c => { c with opElse := a }) s
        (some true, modCq s p.q (fun c => { c with parsed := true }))

/-- The test of a PRED (R472). -/
def predHolds (p : Pkt) (w : Word) : Bool :=
  let v := (w &&& p.pay.getD 1 0).toNat
  let x := (p.pay.getD 2 0).toNat
  let y := (p.pay.getD 2 0 &&& p.pay.getD 1 0).toNat
  match bits (payN p 3) 1 0 with
  | 0 => v == y
  | 1 => v != y
  | 2 => decide (v < x)
  | _ => decide (x ≤ v)

/-- The taken arm kept and the other discarded. -/
def takeArm (p : Pkt) (yes : Bool) (s : State) : State :=
  let nt := bits (payN p 3) 15 8
  let ne := bits (payN p 3) 23 16
  let c := cmdq s p.q
  let (kept, lost) := if yes then (c.opThen, c.opElse) else (c.opElse, c.opThen)
  let s := match lost.slot with | some n => releaseSlot kept.slot.toList n s | none => s
  modCq s p.q (fun c => { c with
    opThen := {}, opElse := {}, opTaken := kept, parsed := false,
    armLeft := if yes then nt else ne,
    skipNow := if yes then (if nt = 0 then ne else 0) else nt,
    skipLater := if yes && nt != 0 then ne else 0 })

/-- Both arms skipped. -/
def skipArms (p : Pkt) (s : State) : State :=
  modCq (dropArms p.q s) p.q (fun c => { c with skipNow := bits (payN p 3) 15 8 + bits (payN p 3) 23 16, armLeft := 0, skipLater := 0 })

/-- The test made once, when the arms are parsed and allowed; while the control pair recovers it waits, so that its word is read
after the replay (R483). -/
def predTest (p : Pkt) (s : State) : Done :=
  if s.dev.recovering then (none, s)
  else
  match parseArms p s with
  | (none, s) => (none, s)
  | (some false, s) => done stRefused (skipArms p s)
  | (some true, s) =>
    match wordAt s p 0 with
    | (none, s) => done stFaulted (skipArms p s)
    | (some w, s) => let yes := predHolds p w; done stOk (takeArm p yes s) (w64 yes.toNat)

/-- PRED: both arms are parsed and their first operators expanded. -/
def execPred (p : Pkt) (s : State) : Host.Outcome State Fault Refusal :=
  perform1 p (checked p (fun s =>
    match parseArms p s with
    | (some false, s) => done stRefused (skipArms p s)
    | (_, s) => (none, s))) s

/-- A PRED waits for its test, and the tail covers its arms. -/
def predDue (s : State) (q : Nat) : Bool :=
  match (cmdq s q).cur with
  | some p => p.opc == 2 && (cmdq s q).ctl == 0 && (predTest p s).1.isSome
  | none => false

/-- PRED_TEST: every earlier packet of the queue has completed, the word is tested and one arm kept. -/
def execPredTest (cq : Nat) (s : State) : Host.Outcome State Fault Refusal :=
  match (cmdq s cq).cur with
  | some p => if p.opc = 2 && p.q = cq then perform1 p (predTest p) s else .next s
  | none => .next s

/-- While the last operator of a LAUNCH is ACTIVE: the PRED after it whose arms can be parsed and expanded (R472), unless it
begins only after every earlier packet has completed (FNC, R464). -/
def armsAhead (s : State) (q : Nat) : Option Pkt :=
  let c := cmdq s q
  match c.ready with
  | some p => if c.ctl = 0 && p.opc == 2 && p.q == q && !p.fnc && !c.parsed && lastActive c && (parseArms p s).1 == some true then some p else none
  | none => none

/-- While the last operator of a LAUNCH of a taken arm is ACTIVE: the first operator of the arm's next LAUNCH, not expanded
yet (R472). -/
def laterOp (s : State) (q : Nat) : Option (List Word) :=
  let c := cmdq s q
  if c.ctl = 0 && c.armLeft != 0 && lastActive c && c.ready.isNone && c.opTaken == {} && (freeSlot s).isSome then
    (armPackets q c.armLeft 0 s).1.bind (firstOp s q)
  else none

/-- A queue's front end has a step to take on an operator (R470, R472). -/
def expandDue (s : State) (q : Nat) : Bool := chainReady s q || (armsAhead s q).isSome || (laterOp s q).isSome

/-- OPERATOR_EXPAND: the next step of a chain, expansion, or activation where the active bank is free (R470); else the
arms of a PRED, or a later LAUNCH of an arm, are expanded into free banks (R472). -/
def execOperatorExpand (cq : Nat) (s : State) : Host.Outcome State Fault Refusal :=
  .next (
    if chainReady s cq then chainStep cq s
    else
      match armsAhead s cq with
      | some p => (parseArms p s).2
      | none => if (laterOp s cq).isSome then expandArm cq (laterOp s cq) (fun a c => { c with opTaken := a }) s else s)

/-! ## Configuration (R173, R187, R202, R467, R473 to R477) -/

/-- A slot packet: refused outside the partition's share, else kept until the partition's next operator boundary. -/
def slotPacket (p : Pkt) (s : State) : Done :=
  let part := cqPart s p.q
  if slotShare s part (bits (payN p 0) 11 0) then done stOk (modDev s (fun d => { d with slotPend := d.slotPend ++ [(part, p)] }))
  else done stRefused s

/-- SEQCFG (R474). -/
def execSeqcfg (p : Pkt) (s : State) : Host.Outcome State Fault Refusal := perform1 p (checked p (slotPacket p)) s

/-- SEEDSEQ (R202). -/
def execSeedseq (p : Pkt) (s : State) : Host.Outcome State Fault Refusal := perform1 p (checked p (slotPacket p)) s

/-- The operators of a partition that have started and not retired. -/
def startedOps (s : State) (part : Nat) : List Launch :=
  (s.dev.launches.map (fun x => x.2)).filter (fun l => l.part == part && l.st != .empty && l.st != .loaded)

/-- A write to a partition's table waits while operators hold an older version than the current one (R467). -/
def tableWaits (s : State) (part now : Nat) (ver : Launch → Nat) : Bool := (startedOps s part).any (fun l => ver l != now)

/-- A write makes a new version where an operator holds the current one. -/
def newVersion (s : State) (part now : Nat) : Nat := if (startedOps s part).isEmpty then now else 1 - now

/-- A table's version copied: n entries of a table from number a to number b. -/
def copyTable [DecidableEq α] (d : α) (n a b : Nat) (m : RMap α) : RMap α :=
  if a = b then m else rsetAll d m (n * b) (rgetN d m (n * a) n)

/-- FP32 pattern of a finite number. -/
def finite32 (x : Nat) : Bool := bits x 30 23 != 255

/-- The checks of a tap point entry (R173), against the steering entries that it allows. THR and HYST of a probe that is
not present are not looked at: the spec does not say whether they are (DESIGN CHOICE, notes/assumptions/71.md). A HID of 0 and an
address on another path than 0x1 are accepted, since R173 does not name them among what is refused (DESIGN CHOICE,
notes/assumptions/82.md). -/
def pointOk (s : State) (p : Pkt) : Bool :=
  let w (k : Nat) : Nat := payN p (1 + k)
  let part := cqPart s p.q
  let tab := tableNo part (rget 0 s.dev.steerCur part)
  let nprb := bits (w 0) 59 56
  bits (w 0) 61 60 != 3 && decide (nprb ≤ 8) && bits (w 0) 35 16 == 0 && w 2 == 0 && w 3 == 0 &&
  (List.range nprb).all (fun k => finite32 (bits (w (5 + 2 * k)) 63 32) && finite32 (bits (w (5 + 2 * k)) 30 0)) &&
  (List.range 64).all (fun e => !bit (w 1) e || bits (steerWord s tab e 1) 19 0 == bits (w 0) 55 36)

/-- TAPCFG kind 0: a tap point entry. -/
def execTapcfgPoint (p : Pkt) (s : State) : Host.Outcome State Fault Refusal :=
  perform1 p (checked p (fun s =>
    let part := cqPart s p.q
    let v := rget 0 s.dev.tapCur part
    if !pointOk s p then done stRefused s
    else if tableWaits s part v (fun l => l.tapVer) then (none, s)
    else
      let u := newVersion s part v
      done stOk (modDev s (fun d => { d with
        tapCur := rset 0 d.tapCur part u
        tap := rsetAll 0 (copyTable 0 1280 (tableNo part v) (tableNo part u) d.tap)
          (1280 * tableNo part u + 20 * bits (payN p 0) 13 8) ((p.pay.drop 1).take 20) })))) s

/-- The checks of a steering entry (R173), against the points that allow it. -/
def steerOk (s : State) (p : Pkt) : Bool :=
  let part := cqPart s p.q
  let tab := tableNo part (rget 0 s.dev.tapCur part)
  let e := bits (payN p 0) 13 8
  payN p 2 / 2 ^ 20 == 0 &&
  (List.range 64).all (fun k => !bit (tapWord s tab k 1) e || tapHid s tab k == payN p 2)

/-- TAPCFG kind 1: a steering entry. -/
def execTapcfgSteer (p : Pkt) (s : State) : Host.Outcome State Fault Refusal :=
  perform1 p (checked p (fun s =>
    let part := cqPart s p.q
    let v := rget 0 s.dev.steerCur part
    if !steerOk s p then done stRefused s
    else if tableWaits s part v (fun l => l.steerVer) then (none, s)
    else
      let u := newVersion s part v
      done stOk (modDev s (fun d => { d with
        steerCur := rset 0 d.steerCur part u
        steer := rsetAll 0 (copyTable 0 128 (tableNo part v) (tableNo part u) d.steer)
          (128 * tableNo part u + 2 * bits (payN p 0) 13 8) ((p.pay.drop 1).take 2) })))) s

/-- The reserved fields of an SPT entry are zero, and NH is 0 to 4 (R187). -/
def sptOk (p : Pkt) : Bool :=
  let w (k : Nat) : Nat := payN p (1 + k)
  bits (w 0) 61 57 == 0 && bits (w 0) 31 3 == 0 && decide (w 0 % 8 ≤ 4) && bits (w 1) 63 50 == 0 && bits (w 2) 63 50 == 0 &&
  bits (w 3) 15 0 == 0

/-- SPTCFG (R187). -/
def execSptcfg (p : Pkt) (s : State) : Host.Outcome State Fault Refusal :=
  perform1 p (checked p (fun s =>
    let part := cqPart s p.q
    let v := rget 0 s.dev.sptCur part
    if !sptOk p then done stRefused s
    else if tableWaits s part v (fun l => l.sptVer) then (none, s)
    else
      let u := newVersion s part v
      done stOk (modDev s (fun d => { d with
        sptCur := rset 0 d.sptCur part u
        spt := rsetAll 0 (copyTable 0 1024 (tableNo part v) (tableNo part u) d.spt)
          (1024 * tableNo part u + 4 * payN p 0) ((p.pay.drop 1).take 4) })))) s

/-- QCFG (R475). -/
def execQcfg (p : Pkt) (s : State) : Host.Outcome State Fault Refusal :=
  perform1 p (checked p (fun s =>
    let w := payN p 0
    let q := bits w 7 0
    let lg := bits w 27 23
    if pathOf (payN p 1) != 0 || qualOf (payN p 1) != 0 || payN p 1 % (32 * 2 ^ lg) != 0 then done stRefused s
    else if !queueShare s (cqPart s p.q) q then done stDenied s
    else if (queueOf s q).bound.isSome || !(queueOf s q).entries.isEmpty then done stBusy s
    else done stOk (modQueue s q (fun k => { k with
      mailbox := bit w 8, rank := bits w 11 9, pinned := bit w 12, occ := bits w 22 13, logcap := lg,
      spill := p.pay.getD 1 0, serial := 0 })))) s

/-- The handle of an HBIND. -/
def hbHandle (p : Pkt) : Nat := bits (payN p 0) 12 0

/-- An HBIND in its partition's share, whose reserved fields are zero (R476). -/
def hbind (p : Pkt) (f : State → Done) (s : State) : Done :=
  if !handleShare s (cqPart s p.q) (hbHandle p) then done stDenied s
  else if bits (payN p 0) 63 17 != 0 || bit (payN p 0) 13 || bits (payN p 2) 63 16 != 0 ||
    (!bit (payN p 0) 16 && (bits (payN p 3) 63 29 != 0 || bits (payN p 3) 15 13 != 0)) then done stRefused s
  else f s

/-- The placement and pages of HBIND OP 0 are as R476, R484 and R524 ask. -/
def placeOk (s : State) (p : Pkt) : Bool :=
  let part := cqPart s p.q
  let la := payN p 1
  let n := payN p 2
  let pl := payN p 3
  let lo := bits (ptw s part 11) 48 32
  let cnt := bits (ptw s part 11) 25 8
  la / 2 ^ 42 == 0 && la % pageBytes == 0 && decide (1 ≤ n) && decide (n ≤ 4096) && decide (laddrPage la + n ≤ 2 ^ 25) &&
  bit (bits (ptw s part 11) 7 0) (laddrStack la) && decide (lo ≤ laddrPage la / 256) &&
  decide ((laddrPage la + n - 1) / 256 < lo + cnt) &&
  (if bit (payN p 0) 16 then pathOf pl == 1 && qualOf pl == 0
   else bits pl 63 29 == 0 && bits pl 15 13 == 0 && bits pl 28 16 != 0 && gladeShare s part (gladeOf (bits pl 7 0)))

/-- The unbound handle that HBIND OP 0 describes. -/
def hbWanted (s : State) (p : Pkt) : WHandle :=
  let pl := payN p 3
  if bit (payN p 0) 16 then { part := cqPart s p.q, hbm := true, base := pl, laddr := payN p 1, npage := payN p 2 }
  else { part := cqPart s p.q, grove := bits pl 7 0, fbank := bits pl 12 8, nrows := bits pl 28 16, laddr := payN p 1,
         npage := payN p 2 }

/-- HBIND OP 0: an INVALID handle is bound, room being made by eviction. -/
def execHbindBind (p : Pkt) (s : State) : Host.Outcome State Fault Refusal :=
  perform1 p (checked p (hbind p (fun s =>
    if (whOf s (hbHandle p)).st != whInvalid then done stBusy s
    else if !placeOk s p then done stRefused s
    else
      match bindHandle (hbHandle p) (hbWanted s p) [] s with
      | some t => done stOk t
      | none => done stBusy s))) s

/-- HBIND OP 1: a FAULTED or RESIDENT handle without a use reference becomes INVALID and its placement is released; its
held records stay HELD (R497). -/
def execHbindClear (p : Pkt) (s : State) : Host.Outcome State Fault Refusal :=
  perform1 p (checked p (hbind p (fun s =>
    let w := whOf s (hbHandle p)
    if (w.st == whFaulted || w.st == whResident) && w.refs == 0 then
      done stOk (retryRooms (modWh (dropReads (hbHandle p) s) (hbHandle p) (fun _ => {})))
    else done stBusy s))) s

/-- HBIND OP 2: a FAULTED handle is bound again, all its pages to be read into its existing placement (R497). -/
def execHbindRebind (p : Pkt) (s : State) : Host.Outcome State Fault Refusal :=
  perform1 p (checked p (hbind p (fun s =>
    let h := hbHandle p
    if (whOf s h).st != whFaulted then done stBusy s
    else
      let (n, s) := nextOrder (dropReads h s)
      let s := modWh s h (fun w => { w with st := whRequested, order := n, landed := [] })
      done stOk (holdRecords h false (queueReads h s))))) s

/-- HBIND OP 3. -/
def execHbindRefused (p : Pkt) (s : State) : Host.Outcome State Fault Refusal :=
  perform1 p (checked p (hbind p (done stRefused))) s

/-- EVQCFG: a ring is configured, with nothing produced yet (R477). -/
def execEvqcfg (p : Pkt) (s : State) : Host.Outcome State Fault Refusal :=
  perform1 p (checked p (fun s =>
    let w := payN p 0
    let key := ringKey (cqPart s p.q) (bits w 1 0) (bits w 7 4)
    let size := ringEntry key * 2 ^ bits w 12 8
    let b := payN p 1
    if b % size != 0 then done stRefused s
    else if !(pathOf b == 0 || pathOf b == 2 || pathOf b == 5) || qualOf b != 0 then done stFaulted s
    else
      match wordAt s p 2 with
      | (none, s) => done stFaulted s
      | (some _, s) => done stOk (modDev s (fun d => { d with
          evrings := rset {} d.evrings key { conf := true, log2n := bits w 12 8, irq := bit w 13, base := p.pay.getD 1 0,
                                             cons := p.pay.getD 2 0 } })))) s

/-- A record of a ring waits, and the ring has room (R478). -/
def ringDue (s : State) (key : Nat) : Bool := s.dev.ringWait.any (fun w => w.ring == key) && (ringRoom key s).1

/-- EVENT_RING_ROOM: the first waiting record of a ring is written. -/
def execEventRingRoom (ring : Nat) (s : State) : Host.Outcome State Fault Refusal := .next (ringDrain ring s)

/-! ## PREEMPT and RESUME (R60, R453) -/

/-- The shadow banks of a queue discarded without effect, to be expanded again (R453). -/
def discardShadow (q : Nat) (s : State) : State :=
  let s := dropArms q s
  match (cmdq s q).chain.shadow with
  | none => modCq s q (fun c => { c with chain := { c.chain with bad := none } })
  | some n =>
    let w := (launchOf s n).op
    releaseSlot [] n (modCq s q (fun c => { c with chain := { c.chain with shadow := none, bad := none, todo := w :: c.chain.todo } }))

/-- A queue stops at its next operator boundary; a WAITC that it performs completes with FAULTED (R467). -/
def preemptQueue (q : Nat) (s : State) : State :=
  let s := discardShadow q s
  let s := modCq s q (fun c => { c with ctl := if c.ctl = 0 then 1 else c.ctl })
  match (cmdq s q).cur with
  | some p => if p.opc = 4 then endPacket q stFaulted 0 s else s
  | none => s

/-- The stream runs a task of the partition. -/
def runsFor (s : State) (part : Nat) (c : Stream) : Bool := hasTask c && partOf s c == part

/-- A running task of the partition to be saved urgently. -/
def askEvict (part : Nat) (b : Bool) (s : State) : State :=
  let c := strm s b
  if runsFor s part c && (c.status == .running || c.status == .stalled) && c.saveWant.isNone then
    setStrm s b { c with saveWant := some 3 }
  else s

/-- Every ACTIVE launch of the partition EVICTED by queue q, and its running tasks asked for (R453). -/
def evictPartition (part q : Nat) (s : State) : State :=
  let s := modDev s (fun d => { d with launches := d.launches.map (fun x => (x.1,
    if x.2.part == part && x.2.st == .active then { x.2 with st := .evicted, evictedBy := q } else x.2)) })
  askEvict part true (askEvict part false s)

/-- The eviction is complete: no task of the partition runs. -/
def evictionDone (s : State) (part : Nat) : Bool := !runsFor s part s.st0 && !runsFor s part s.st1

/-- PREEMPT (R453). -/
def execPreempt (p : Pkt) (s : State) : Host.Outcome State Fault Refusal :=
  perform1 p (checked p (fun s =>
    let q := bits (payN p 0) 5 0
    let part := cqPart s p.q
    if cqPart s q != part then done stDenied s
    else if !bit (payN p 0) 8 then done stOk (preemptQueue q s)
    else
      let s := evictPartition part q (if (cmdq s q).ctl = 0 then preemptQueue q s else s)
      if evictionDone s part then done stOk s else (none, s))) s

/-- The images that an eviction saved queued again (R60, R452). -/
def requeue (n : Nat) (s : State) : State :=
  (s.dev.ctxlive.filter (fun x => x.launch == n && x.evicted && !x.entry)).foldl (fun s x =>
    match readImage x.part x.slot s with
    | (some bs, s) => queueResume x bs s
    | (none, s) => s) s

/-- The launches that queue q's PREEMPT evicted return to ACTIVE. -/
def returnLaunches (q : Nat) (s : State) : State :=
  ((List.range 64).filter (fun n => (launchOf s n).st == .evicted && (launchOf s n).evictedBy == q)).foldl (fun s n =>
    requeue n (modLaunch s n (fun l => { l with st := .active }))) s

/-- RESUME: a pre-empted queue goes on, and an operator held by TAP_MISSED is released (R179, R453). -/
def execResume (p : Pkt) (s : State) : Host.Outcome State Fault Refusal :=
  perform1 p (checked p (fun s =>
    let q := bits (payN p 0) 5 0
    if cqPart s q != cqPart s p.q then done stDenied s
    else
      let s := modCq s q (fun c => { c with ctl := if c.ctl = 1 then 0 else c.ctl, chain := { c.chain with hold := false } })
      done stOk (returnLaunches q s))) s

/-- The packet that a queue has parsed may be performed. -/
def packetDue (s : State) (q : Nat) : Bool :=
  match (cmdq s q).ready with | some p => mayPerform s p | none => false

/-! ## QUERY (R479) -/

/-- The control-pair status word of a partition. -/
def pairStatus (s : State) (part : Nat) : Word :=
  w64 (min s.dev.mism (2 ^ 32 - 1) * 2 ^ 32 + s.dev.runm % 256 * 2 ^ 24 + s.dev.workers % 256 * 2 ^ 16 +
    (decide (part ∈ s.dev.fatal)).toNat)

/-- Eight words: those given, zeros after them. -/
def eightWords (ws : List Word) : List Word := (ws ++ List.replicate 8 0).take 8

/-- QUERY SEL 0. -/
def execQueryStatus (p : Pkt) (s : State) : Host.Outcome State Fault Refusal :=
  perform1 p (checked p (fun s => storeAt p 1 (wordBytes (eightWords [pairStatus s (cqPart s p.q)])) 0 s)) s

/-- QUERY SEL 1: the layout of head, tail, state and chain words in the 64 bytes is free. -/
def execQueryQueue (p : Pkt) (s : State) : Host.Outcome State Fault Refusal :=
  perform1 p (checked p (fun s =>
    let c := cmdq s p.q
    let ws := [w64 c.head, w64 c.tail, w64 c.ctl] ++ (List.range 8).map (fun k => rget 0 c.cw k)
    storeAt p 1 (wordBytes (eightWords (Config.queryLayout ws))) 0 s)) s

/-- QUERY SEL 2: the launch slots in use. -/
def execQuerySlots (p : Pkt) (s : State) : Host.Outcome State Fault Refusal :=
  perform1 p (checked p (fun s =>
    let m := ((List.range 64).map (fun n => if (launchOf s n).st == .empty then 0 else 2 ^ n)).sum
    storeAt p 1 (wordBytes (eightWords [w64 m])) 0 s)) s

/-- QUERY SEL 3. -/
def execQueryRefused (p : Pkt) (s : State) : Host.Outcome State Fault Refusal := perform1 p (done stRefused) s

/-! ## PATCH and ATTEST (R534, R535) -/

/-- A little-endian 32-bit field of an image. -/
def imageField (bs : List Byte) (off : Nat) : Nat := leNat ((bs.drop off).take 4)

/-- RDLIM for the eight stacks in the payload of a TYPE 2 image. -/
def rdlims (bs : List Byte) : List Nat := (List.range 8).map (fun k => leNat ((bs.drop (512 + 8 * k)).take 8))

/-- The image is accepted (R534). -/
def imageAccepted (bs : List Byte) : Bool :=
  let typ := imageField bs 4
  decide (512 ≤ bs.length) && imageField bs 0 == 0x5A534C50 && (typ == 1 || typ == 2) &&
  imageField bs 12 == bs.length && decide (Config.minSvn typ ≤ imageField bs 8) &&
  sha256 (bs.drop 512) == (bs.drop 16).take 32 && ((bs.drop 48).take 80).all (fun b => b == 0) &&
  (typ == 1 || (bs.length == 576 && (rdlims bs).all (fun n => decide (1 ≤ n) && decide (n ≤ 100000)))) &&
  Config.signatureValid (bs.take 512)

/-- The highest k for which Mk is non-zero, or 0. -/
def lastMeasure (s : State) : Nat := ((List.range 64).filter (fun k => rget 0 s.dev.meas k != 0)).foldl max 0

/-- An image measured: the chain extended into the next register. -/
def measure (bs : List Byte) (s : State) : State :=
  let k := lastMeasure s
  let m := digestNum (sha256 (digestBytes (rget 0 s.dev.meas k) ++ sha256 bs))
  if k < 63 then modDev s (fun d => { d with meas := rset 0 d.meas (k + 1) m }) else s

/-- The effect of an accepted image: TYPE 2 sets RDLIM; the firmware of TYPE 1 has no state here. -/
def applyImage (bs : List Byte) (s : State) : State :=
  if imageField bs 4 = 2 then
    (List.range 8).foldl (fun s k => modStack s k (fun t => { t with rdlim := (rdlims bs).getD k 0 })) s
  else s

/-- PATCH: verified, stored in the Orchard system area, measured. -/
def execPatch (p : Pkt) (s : State) : Host.Outcome State Fault Refusal :=
  perform1 p (checked p (fun s =>
    if payN p 0 % 8 != 0 then done stFaulted s
    else
      match devLoad (cqPart s p.q) (payN p 0) (payN p 1) s with
      | (none, s) => done stFaulted s
      | (some bs, s) =>
        if !imageAccepted bs then done stSigBad s
        else
          let s := modDev s (fun d => { d with patches := d.patches ++ [bs] })
          done stOk (applyImage bs (measure bs s)) (w64 bs.length))) s

/-- The first n bytes of a list, zeros after it. -/
def padTo (n : Nat) (bs : List Byte) : List Byte := (bs ++ List.replicate n 0).take n

/-- Word k of a partition's table entry as it reads: LIVE is bit 62 of word 0 (R521). -/
def ptabWord (s : State) (part k : Nat) : Word :=
  let w := rget 0 s.dev.ptab (16 * part + k)
  if k = 0 then withField w 62 1 (decide (part ∈ s.dev.live)).toNat else w

/-- The report of ATTEST without its signature (R535). -/
def reportBody (s : State) (part pseq : Nat) (nonce : List Byte) : List Byte :=
  wordBytes [w64 (4096 * 2 ^ 32 + 1), w64 pseq, w64 s.dev.mgmtctr, w64 (lastMeasure s)] ++
  natLe 16 Config.serial.toNat ++ List.replicate 16 0 ++ padTo 32 nonce ++ List.replicate 32 0 ++
  wordBytes ((List.range 16).map (ptabWord s part)) ++
  (List.range 64).flatMap (fun k => digestBytes (rget 0 s.dev.meas k)) ++ List.replicate 1408 0

/-- ATTEST. -/
def execAttest (p : Pkt) (s : State) : Host.Outcome State Fault Refusal :=
  perform1 p (checked p (fun s =>
    if payN p 0 % 8 != 0 then done stFaulted s
    else
      match devLoad (cqPart s p.q) (payN p 0) 32 s with
      | (none, s) => done stFaulted s
      | (some nonce, s) =>
        let body := reportBody s (cqPart s p.q) (cmdq s p.q).pseq nonce
        storeAt p 1 (body ++ padTo 384 (Config.signReport body)) (w64 4096) s)) s

/-! ## The packet of a queue -/

/-- The packet that a queue has parsed performed, by its code (R466). -/
def performPacket (p : Pkt) (s : State) : Host.Outcome State Fault Refusal :=
  match p.opc with
  | 0x00 => execNop p s
  | 0x01 => execLaunch p s
  | 0x02 => execPred p s
  | 0x03 =>
    (match bits (payN p 1) 63 62 with
     | 0 => execSignalAdd p s
     | 1 => execSignalStore p s
     | 2 => execSignalChainWord p s
     | _ => execSignalRefused p s)
  | 0x04 => execWaitc p s
  | 0x05 => execHcopy p s
  | 0x06 => execCqFence p s
  | 0x10 => execSeqcfg p s
  | 0x11 => execSeedseq p s
  | 0x12 => if bit (payN p 0) 0 then execTapcfgSteer p s else execTapcfgPoint p s
  | 0x13 => execSptcfg p s
  | 0x14 => execQcfg p s
  | 0x15 =>
    (match bits (payN p 0) 15 14 with
     | 0 => execHbindBind p s
     | 1 => execHbindClear p s
     | 2 => execHbindRebind p s
     | _ => execHbindRefused p s)
  | 0x16 => execEvqcfg p s
  | 0x18 => execPreempt p s
  | 0x19 => execResume p s
  | 0x1A =>
    (match bits (payN p 0) 1 0 with
     | 0 => execQueryStatus p s
     | 1 => execQueryQueue p s
     | 2 => execQuerySlots p s
     | _ => execQueryRefused p s)
  | 0x20 => execPatch p s
  | 0x21 => execAttest p s
  | _ => .next s

/-- The current packet of a queue waits for what its own rule names, and may go on. -/
def waitOver (s : State) (q : Nat) : Bool :=
  match (cmdq s q).cur with
  | none => false
  | some p =>
    match p.opc with
    | 0x06 => fenceOpen s p
    | 0x12 => if bit (payN p 0) 0 then !tableWaits s (cqPart s q) (rget 0 s.dev.steerCur (cqPart s q)) (fun l => l.steerVer)
              else !tableWaits s (cqPart s q) (rget 0 s.dev.tapCur (cqPart s q)) (fun l => l.tapVer)
    | 0x13 => !tableWaits s (cqPart s q) (rget 0 s.dev.sptCur (cqPart s q)) (fun l => l.sptVer)
    | 0x18 => evictionDone s (cqPart s q)
    | _ => false

/-! ## The control pair (R482, R483) -/

/-- The launches of a partition that have started. -/
def partLaunches (s : State) (part : Nat) : List Nat :=
  (List.range 64).filter (fun n => (launchOf s n).part == part && (launchOf s n).st != .empty && (launchOf s n).st != .loaded)

/-- A partition's command queues go to ERROR: what they performed is dropped, their shadow banks discarded. -/
def stopQueues (part : Nat) (s : State) : State :=
  ((List.range 63).filter (fun q => (cmdq s q).part == part)).foldl (fun s q =>
    modCq (discardShadow q s) q (fun c => { c with
      ctl := 2, ready := none, cur := none, pseq := 0, chain := {}, armLeft := 0, skipNow := 0, skipLater := 0 })) s

/-- A control event of a partition (R480). -/
def pairEvent (part code info : Nat) (s : State) : State :=
  ringSend (ringKey part 0 0) (recWords { code := code, info := info, ctx := 0 }) s

/-- CTRL_MISMATCH: recovered, or, the third in a row without a checkpoint, the end of the partition. -/
def execCtrlMismatch (part : Nat) (s : State) : Host.Outcome State Fault Refusal :=
  .next (
    if 16 ≤ part then s
    else if s.dev.runm < 2 then
      let s := modDev s (fun d => { d with mism := min (2 ^ 32 - 1) (d.mism + 1), runm := d.runm + 1, recovering := true })
      pairEvent part 0x91 s.dev.runm s
    else
      let s := (partLaunches s part).foldl (fun s n => failLaunch n s) s
      let s := modDev s (fun d => { d with runm := 0, fatal := if part ∈ d.fatal then d.fatal else d.fatal ++ [part] })
      stopQueues part (pairEvent part 0x92 0 s))

/-- CTRL_RECOVERY_DONE: operators may become ACTIVE again. -/
def execCtrlRecoveryDone (s : State) : Host.Outcome State Fault Refusal := .next (modDev s (fun d => { d with recovering := false }))

/-- WORKER_SELFCHECK_FAIL: a parse worker is taken out of service. -/
def execWorkerSelfcheckFail (s : State) : Host.Outcome State Fault Refusal :=
  .next (modDev s (fun d => { d with workers := d.workers - 1 }))

end Sys2Proof.Machine
end

