-- ==== Sys2Proof/Machine/Hbm.lean ====
section
/-!
DEFINITION. The events of the HBM4E controllers and of the thermal controller (spec/24, R499 to R512; R537). The
Grove's own requests reach a bank where the LLC does not hold their lines; an access of another agent, or a write-back of the
LLC, is an event of its own.
-/

namespace Sys2Proof.Machine

/-! ## Pseudo-channels -/

/-- Understory cycles since power-on: 1.25 GHz against 1.5 GHz (R4). -/
def understory (now : Nat) : Nat := now * 5 / 6

/-- A pseudo-channel. -/
def pcOf (s : State) (st pc : Nat) : Pc := rget {} s.dev.hbm (128 * st + pc)

/-- A pseudo-channel changed. -/
def modPc (s : State) (st pc : Nat) (f : Pc → Pc) : State :=
  modDev s (fun d => { d with hbm := rmod {} d.hbm (128 * st + pc) f })

/-- The entry that holds the state of a pseudo-channel's channel: channel c carries 2c and 2c + 1 (R499). -/
def chanPc (pc : Nat) : Nat := pc / 2 * 2

/-- The rows that a management action refreshes (R504). -/
def nearRows (row : Nat) : List Nat :=
  ((if 2 ≤ row then [row - 2] else []) ++ (if 1 ≤ row then [row - 1] else []) ++ [row + 1, row + 2]).filter (fun r => decide (r < 8192))

/-- One activation of a row (R500, R504), with the counters of R507. -/
def activate (bank row : Nat) (p : Pc) : Pc :=
  { p with openRow := rset 0 p.openRow bank (row + 1), actcnt := satAdd (2 ^ 48 - 1) p.actcnt 1,
           wcnt := if p.wen && p.wbank == bank && p.wrow == row then satAdd (2 ^ 32 - 1) p.wcnt 1 else p.wcnt,
           mc := rmod 0 p.mc (8192 * bank + row) (· + 1) }

/-- The management action on a row whose MC has come to MAT (R504). -/
def manage (u bank row : Nat) (p : Pc) : Pc :=
  { p with busy := rset 0 p.busy bank (u + 320), openRow := rset 0 p.openRow bank 0,
           mc := rset 0 p.mc (8192 * bank + row) 0, mgmtcnt := satAdd (2 ^ 32 - 1) p.mgmtcnt 1,
           rfmrows := satAdd (2 ^ 32 - 1) p.rfmrows (nearRows row).length }

/-- An access served by its bank at Understory cycle u: an activation where its row is not open, then the management
action where MC has come to MAT. -/
def touchRow (u bank row : Nat) (p : Pc) : Pc :=
  if rget 0 p.openRow bank = row + 1 then { p with lastUse := rset 0 p.lastUse bank u }
  else
    let p := activate bank row { p with lastUse := rset 0 p.lastUse bank u }
    if rget 0 p.mc (8192 * bank + row) ≥ p.mat then manage u bank row p else p

/-- The device address of a row of a bank (R499). -/
def hbmAddr (st pc bank row : Nat) : Nat := (((row * 32 + bank) * 128 + pc) * 8 + st) * 2048

/-- The poisoned bank that Glikor reloads next: the one that was poisoned first and is not retired (R506). -/
def reloadBank (p : Pc) : Option Nat := p.poison.find? (fun b => !p.retiredBanks.contains b)

/-- RELOADING follows the poisoned banks that are not retired. -/
def setReloading (p : Pc) : Pc := { p with reloading := (reloadBank p).isSome, reloadTries := 0 }

/-- The effect of an access's kind: array ECC corrects, or finds a line uncorrectable, or the row-remap table is
uncorrectable and its bank is poisoned (R502, R506). -/
def hbmData (st pc bank row : Nat) (evt : HbmEvt) (s : State) : State :=
  match evt with
  | .ok | .write => s
  | .ecc => modPc s st pc (fun p => { p with cecnt := satAdd (2 ^ 32 - 1) p.cecnt 1 })
  | .uncorrectable n =>
    let l := hbmAddr st pc bank row / 128 + n % 16
    modPc { s with ue := if l ∈ s.ue then s.ue else l :: s.ue, llc := s.llc.filter (fun e => e.1 != l), l2 := s.l2.filter (· != l) } st pc (fun p => { p with uecnt := satAdd (2 ^ 16 - 1) p.uecnt 1 })
  | .remapUe =>
    modPc s st pc (fun p =>
      let q := { p with remapue := satAdd (2 ^ 16 - 1) p.remapue 1,
                        poison := if bank ∈ p.poison then p.poison else p.poison ++ [bank] }
      { q with reloading := (reloadBank q).isSome })

/-- The results, the reads of an issue and the job attempts that wait for a request have met an uncorrectable error in the lines wanted
(R385, R444, R502). -/
def loseReq (id : Nat) (want : List Nat) (s : State) : State :=
  let mark (c : Stream) : Stream :=
    { c with pend := c.pend.map (fun p => if p.asks.contains id then { p with ue := true } else p)
             hand := c.hand.map (fun h => if h.id == id then { h with lost := true } else h) }
  if id = 0 then s
  else { s with st0 := mark s.st0, st1 := mark s.st1, gv := { s.gv with
    heldTasks := s.gv.heldTasks.map mark
    jobs := s.gv.jobs.map (fun j => if j.asks.contains id then { j with lost := true, lostLines := j.lostLines ++ want } else j) } }

/-- The lines that a read wants reach no reader: its results are lost, and the L1 holds nothing of them. -/
def loseLines (q : HbmReq) (s : State) : State :=
  modGv (loseReq q.id q.want s) (fun g => { g with l1 := g.l1.filter (fun l => !q.want.contains l.home) })

/-- What a served read brings: a line that is uncorrectable is counted where array ECC finds it again, and lost to who wants it; of
a bank whose table is poisoned every line is; the others come to the LLC, and those of a request through the L2 to the L2 (R16, R500, R502, R506). -/
def bringLines (st pc : Nat) (q : HbmReq) (s : State) : State :=
  let lines := if q.take.isEmpty then (List.range 16).map (fun k => hbmAddr st pc q.bank q.row / 128 + k) else q.take
  let bad := q.own && lines.any (fun l => !llcHolds s l && decide (l ∈ s.ue))
  let found := match q.evt with | .uncorrectable _ => true | _ => false
  let s := if bad && !found then modPc s st pc (fun p => { p with uecnt := satAdd (2 ^ 16 - 1) p.uecnt 1 }) else s
  let dead := (pcOf s st pc).poison.contains q.bank
  let s := if dead || q.want.any (fun l => decide (l ∈ s.ue)) then loseLines q s else s
  if dead then s
  else (q.take.filter (fun l => decide (l ∉ s.ue))).foldl (fun s l => (if q.l2 then takeL2 l else id) (takeLine q.own l s)) s

/-- An access served (R500): its transfer has succeeded. -/
def serveHbm (st pc : Nat) (q : HbmReq) (s : State) : State :=
  let s := hbmData st pc q.bank q.row q.evt (modPc s st pc (fun p => touchRow (understory s.now) q.bank q.row { p with replays := 0 }))
  bringLines st pc q (modPc s st (chanPc pc) (fun p => { p with retries := 0 }))

/-- The bank is in its management window (R505). -/
def inWindow (s : State) (st pc bank : Nat) : Bool := decide (understory s.now < rget 0 (pcOf s st pc).busy bank)

/-- An access must wait: its channel is retrained, a failed transfer of its pseudo-channel is still to be sent again, its
bank is in its management window, it follows an access that waits to the same bank, or it is a write to a poisoned bank that
is not retired (R503, R505, R506). -/
def mustWait (s : State) (st pc : Nat) (q : HbmReq) : Bool :=
  let p := pcOf s st pc
  (pcOf s st (chanPc pc)).retraining || p.replay.isSome || inWindow s st pc q.bank || p.wait.any (fun x => x.bank == q.bank) ||
  (p.poison.contains q.bank && !p.retiredBanks.contains q.bank && q.evt == .write)

/-- An access performed, or dropped: a failed channel serves nothing, a write to a retired bank is discarded and counted,
and a read of a bank whose table is poisoned is uncorrectable (R502, R506). -/
def performHbm (st pc : Nat) (q : HbmReq) (s : State) : State :=
  let p := pcOf s st pc
  if (pcOf s st (chanPc pc)).failed then loseLines q s
  else if p.retiredBanks.contains q.bank && q.evt == .write then
    modPc s st pc (fun p => { p with remapdrop := satAdd (2 ^ 16 - 1) p.remapdrop 1 })
  else serveHbm st pc q s

/-- An access waits; where it waits for a management window it is counted, once (R505). -/
def queueHbm (st pc : Nat) (q : HbmReq) (s : State) : State :=
  let n := (inWindow s st pc q.bank && !q.counted).toNat
  modPc s st pc (fun p => { p with
    wait := p.wait ++ [{ q with counted := q.counted || inWindow s st pc q.bank }], bocnt := satAdd (2 ^ 32 - 1) p.bocnt n })

/-- An access reaches its bank: it is performed or waits. -/
def arriveHbm (st pc : Nat) (q : HbmReq) (s : State) : State :=
  if (pcOf s st (chanPc pc)).failed || !mustWait s st pc q then performHbm st pc q s else queueHbm st pc q s

/-- The request of the modelled Grove that an access to a row is, where one is on its way to it: the first that asks for the row
and that the LLC does not serve. -/
def askOf (s : State) (st pc bank row : Nat) : Option Ask :=
  s.asked.find? (fun q => hbmPlace (128 * q.line) == (st, pc, bank, row) &&
    (List.range q.n).any (fun k => !askHeld s q (q.line + k)))

/-- The kind of an access as it meets a request: a request for one line meets an uncorrectable error in that line. -/
def ownEvt (q : Ask) (evt : HbmEvt) : HbmEvt :=
  match evt with
  | .uncorrectable n => .uncorrectable (if q.n = 1 then q.line % 16 else n)
  | e => e

/-- A request as an access to its bank. A line that is fetched alone, for a cached or streaming path, comes to the LLC; a tile for
path 0x3 does not (R112, R500, R501). -/
def ownReq (s : State) (q : Ask) (evt : HbmEvt) : HbmReq :=
  let (_, _, bank, row) := hbmPlace (128 * q.line)
  { bank := bank, row := row, evt := ownEvt q evt, id := q.id, own := true, take := if q.n = 1 then [q.line] else [],
    l2 := q.l2, want := q.want.filter (fun l => !askHeld s q l) }

/-- An access of another agent. The lines that a read brings may be in the LLC from then on: those of the row's tile. -/
def otherReq (st pc bank row : Nat) (evt : HbmEvt) : HbmReq :=
  { bank := bank, row := row, evt := evt,
    take := if evt = .write then [] else (List.range 16).map (fun k => hbmAddr st pc bank row / 128 + k) }

/-- The access is one in which an error is met. -/
def evtError : HbmEvt → Bool
  | .ok => false | .write => false | .ecc => true | .uncorrectable _ => true | .remapUe => true

/-- HBM_ACCESS: an access reaches a bank: one of another agent, or the LLC's write-back; or, where an error is met in a row for
which the modelled Grove's own request is on its way, that request (R500, R502). -/
def execHbmAccess (stack pc bank row : Nat) (evt : HbmEvt) (s : State) : Host.Outcome State Fault Refusal :=
  .next (
    if 8 ≤ stack || 128 ≤ pc || 32 ≤ bank || 8192 ≤ row then s
    else
      match if evtError evt then askOf s stack pc bank row else none with
      | some q => arriveHbm stack pc (ownReq s q evt) { s with asked := s.asked.erase q }
      | none => arriveHbm stack pc (otherReq stack pc bank row evt) s)

/-- The accesses of a list tried in order: those that may go are performed, the others wait on. -/
def releaseHbm (st pc : Nat) (qs : List HbmReq) (s : State) : State := qs.foldl (fun s q => arriveHbm st pc q s) s

/-- The waiting accesses of a pseudo-channel tried again, in order. -/
def retryHbm (st pc : Nat) (s : State) : State :=
  releaseHbm st pc (pcOf s st pc).wait (modPc s st pc (fun p => { p with wait := [] }))

/-! ## The modelled Grove's own requests (R500, R501) -/

/-- The next request is served: where no cache holds its lines it is an access to their row (R500, R501). -/
def serveAsk (s : State) : State :=
  match s.asked with
  | [] => s
  | q :: r =>
    let (st, pc, _, _) := hbmPlace (128 * q.line)
    if reachesArray s q then arriveHbm st pc (ownReq s q .ok) { s with asked := r }
    else (if q.l2 then takeL2 q.line else id) { s with asked := r }

/-- A management window is over: some bank's end has come. -/
def windowOver (s : State) (st pc bank : Nat) : Bool :=
  let e := rget 0 (pcOf s st pc).busy bank
  e != 0 && decide (e ≤ understory s.now)

/-- HBM_MGMT_WINDOW_END: the window of a bank ends and its waiting accesses proceed (R505). -/
def execHbmMgmtWindowEnd (stack pc bank : Nat) (s : State) : Host.Outcome State Fault Refusal :=
  .next (
    if windowOver s stack pc bank then retryHbm stack pc (modPc s stack pc (fun p => { p with busy := rset 0 p.busy bank 0 }))
    else s)

/-- A row is open and has not been used for 64 Understory cycles (R500). -/
def rowIdle (s : State) (st pc bank : Nat) : Bool :=
  rget 0 (pcOf s st pc).openRow bank != 0 && decide (rget 0 (pcOf s st pc).lastUse bank + 64 ≤ understory s.now)

/-- HBM_ROW_IDLE_CLOSE (R500). -/
def execHbmRowIdleClose (stack pc bank : Nat) (s : State) : Host.Outcome State Fault Refusal :=
  .next (
    if rowIdle s stack pc bank then modPc s stack pc (fun p => { p with openRow := rset 0 p.openRow bank 0 }) else s)

/-- REMAP_RELOAD: a reload of a poisoned bank's table succeeds, and the held accesses are performed in their order; or it
fails, and the third failure retires the bank: its held writes are discarded and counted, its held reads are uncorrectable
(R506). -/
def execRemapReload (stack pc : Nat) (ok : Bool) (s : State) : Host.Outcome State Fault Refusal :=
  .next (
    match reloadBank (pcOf s stack pc) with
    | none => s
    | some b =>
      if ok then
        retryHbm stack pc (modPc s stack pc (fun p =>
          setReloading { p with poison := p.poison.filter (fun x => x != b), reloads := satAdd (2 ^ 16 - 1) p.reloads 1 }))
      else if (pcOf s stack pc).reloadTries < 2 then
        modPc s stack pc (fun p => { p with reloadTries := p.reloadTries + 1 })
      else retryHbm stack pc (modPc s stack pc (fun p => setReloading { p with retiredBanks := p.retiredBanks ++ [b] })))

/-! ## Channels (R502, R503) -/

/-- The channel is retrained: counted in the pseudo-channel of the transfer. -/
def retrain (st pc : Nat) (s : State) : State :=
  let s := modPc s st pc (fun p => { p with retrain := satAdd (2 ^ 16 - 1) p.retrain 1, replays := 0 })
  modPc s st (chanPc pc) (fun p => { p with retraining := true })

/-- LINK_CRC: a CRC error on a transfer of the pseudo-channel: of the one that is sent again, or else of an access to the row
named, which is from then on to be sent again and keeps its place. When eight consecutive replays have failed, the channel is
retrained. A failed or retraining channel transfers nothing, and an access that must wait has no transfer. -/
def execLinkCrc (stack : Nat) (site : CrcSite) (s : State) : Host.Outcome State Fault Refusal :=
  .next (
    let ⟨pc, bank, row, evt⟩ := site
    let c := pcOf s stack (chanPc pc)
    let p := pcOf s stack pc
    let own := askOf s stack pc bank row
    let q : HbmReq := match own with | some o => ownReq s o evt | none => otherReq stack pc bank row evt
    if 8 ≤ stack || 128 ≤ pc || 32 ≤ bank || 8192 ≤ row || c.failed || c.retraining then s
    else if p.replay.isSome then
      let s := modPc s stack pc (fun p => { p with crcerr := satAdd (2 ^ 32 - 1) p.crcerr 1 })
      if p.replays < 8 then modPc s stack pc (fun p => { p with replays := p.replays + 1 }) else retrain stack pc s
    else if mustWait s stack pc q then s
    else
      let s := { s with asked := match own with | some o => s.asked.erase o | none => s.asked }
      modPc s stack pc (fun p => { p with crcerr := satAdd (2 ^ 32 - 1) p.crcerr 1, replay := some q, replays := 1 }))

/-- The transfer that is sent again succeeds, and what waited behind it goes on (R503, R512). -/
def replayDone (st pc : Nat) (s : State) : State :=
  match (pcOf s st pc).replay with
  | none => s
  | some q => retryHbm st pc (performHbm st pc q (modPc s st pc (fun p => { p with replay := none })))

/-- A transfer waits to be sent again and its channel is not retraining. -/
def replayDue (s : State) (key : Nat) : Bool :=
  (rget {} s.dev.hbm key).replay.isSome && !(rget {} s.dev.hbm (key / 2 * 2)).retraining

/-- LINK_RETRAIN_DONE: a retraining ends and the transfer is sent again; or it fails, and the channel is retrained again,
or fails for good at the third failure without a successful transfer between: every transfer that waits is uncorrectable. -/
def execLinkRetrainDone (stack pc : Nat) (ok : Bool) (s : State) : Host.Outcome State Fault Refusal :=
  .next (
    let c := pcOf s stack (chanPc pc)
    let both (f : Nat → State → State) (s : State) : State := f (chanPc pc + 1) (f (chanPc pc) s)
    if !c.retraining then s
    else if ok then both (retryHbm stack) (modPc s stack (chanPc pc) (fun p => { p with retraining := false }))
    else if c.retries < 2 then retrain stack pc (modPc s stack (chanPc pc) (fun p => { p with retries := p.retries + 1 }))
    else
      let s := modPc s stack pc (fun p => { p with linkfail := satAdd (2 ^ 16 - 1) p.linkfail 1 })
      let s := modPc s stack (chanPc pc) (fun p => { p with retraining := false, failed := true, retries := 0 })
      both (fun k s => retryHbm stack k (replayDone stack k s)) s)

/-- Some access of a pseudo-channel waits for a management window at this cycle (R505). -/
def backOff (now : Nat) (p : Pc) : Bool := p.wait.any (fun x => decide (understory now < rget 0 p.busy x.bank))

/-- BOCYC follows the core cycle that ends: one for an Understory cycle in which a request of the pseudo-channel waits. -/
def tickHbm (s : State) : State :=
  if understory (s.now + 1) = understory s.now then s
  else modDev s (fun d => { d with hbm := d.hbm.map (fun x => (x.1,
    if backOff s.now x.2 then { x.2 with bocyc := satAdd (2 ^ 32 - 1) x.2.bocyc 1 } else x.2)) })

/-! ## Thermal control (R508, R537) -/

/-- The step of one reading: the gap G and the cap MCAP; hot where the module draws more than PCAP (R508, R537). -/
def thermStep (temp tg tm : Nat) (hot : Bool) (g m : Nat) : Nat × Nat :=
  if (tg ≤ temp || hot) && g < 448 then (g + 64, m)
  else if g = 448 && (tm ≤ temp || hot) then (g, min 2 (m + 1))
  else if 0 < m && temp + 3 < tm then (g, m - 1)
  else if m = 0 && temp + 3 < tg && 0 < g then (g - 64, m)
  else (g, m)

/-- A column's G and MCAP. The Grove follows its column from the next cycle: what issues in this one is judged by the
values before the change (R512). -/
def setColumn (col : Nat) (gm : Nat × Nat) (s : State) : State :=
  modDev s (fun d => { d with colGap := rset 0 d.colGap col gm.1, colMcap := rset 0 d.colMcap col gm.2 })

/-- The Grove's G and MCAP at the end of a cycle (R508, R512). -/
def followColumn (s : State) : State :=
  modGv s (fun g => { g with gap := rget 0 s.dev.colGap (g.id % 16), mcap := rget 0 s.dev.colMcap (g.id % 16) })

/-- Every column's G and MCAP. -/
def setColumns (gm : Nat × Nat) (s : State) : State := (List.range 16).foldl (fun s c => setColumn c gm s) s

/-- The inlet as a reading finds it: above 45 °C it holds G at 448 and MCAP at 2 in every column, below 40 °C the hold ends (R537). -/
def readInlet (celsius : Nat) (s : State) : State :=
  if 45 < celsius then setColumns (448, 2) (modDev s (fun d => { d with inletHot := true }))
  else if celsius < 40 then modDev s (fun d => { d with inletHot := false })
  else s

/-- THERMAL_READING: the reading of a column's sensor, with the module power and the coolant temperatures that the
controller reads: an inlet above 45 °C begins the hold of every column, one below 40 °C ends it (R508, R537). -/
def execThermalReading (col temp watts tin tout : Nat) (s : State) : Host.Outcome State Fault Refusal :=
  .next (
    if 16 ≤ col then s
    else
      let t := temp % 256
      let s := modDev s (fun d => { d with colTemp := rset 0 d.colTemp col t, pnow := watts % 65536, tin := tin % 256,
                                           tout := tout % 256, capon := decide (d.pcap < watts % 65536) })
      let s := readInlet (tin % 256) s
      if s.dev.inletHot then s
      else setColumn col (thermStep t s.dev.tg s.dev.tm s.dev.capon (rget 0 s.dev.colGap col) (rget 0 s.dev.colMcap col)) s)

/-- INLET_OVERTEMP: an inlet above 45 °C holds G at 448 and MCAP at 2 in every column (R537). -/
def execInletOvertemp (celsius : Nat) (s : State) : Host.Outcome State Fault Refusal :=
  .next (
    if celsius ≤ 45 then s else readInlet celsius (modDev s (fun d => { d with tin := celsius % 256 })))

/-- INLET_FALLS_BELOW_40: the hold ends, and R508 resumes from those values (R537). -/
def execInletFallsBelow40 (celsius : Nat) (s : State) : Host.Outcome State Fault Refusal :=
  .next (if 40 ≤ celsius then s else readInlet celsius (modDev s (fun d => { d with tin := celsius % 256 })))

end Sys2Proof.Machine
end

