-- ==== Sys2Proof/Machine/Boot.lean ====
section
/-!
DEFINITION. Partitions, BAR0, inbound fabric writes, the image loader, bring-up and reset (spec/27), and the register
writes that are events of their own (R43, R48, R81, R269, R425, R507, R510).
-/

namespace Sys2Proof.Machine

/-! ## The partition table (R521 to R523) -/

/-- The named bits of each word of an entry (R521). -/
def ptabMask (k : Nat) : Nat :=
  match k with
  | 0 => 2 ^ 63 + 0xFFFF
  | 1 => 0x1FF * 2 ^ 32 + 0x3FF
  | 2 => 0xFFF * 2 ^ 32 + 0x1FFF
  | 3 => 0x1FFF * 2 ^ 32 + 0x3FFF
  | 4 => 0xFFF * 2 ^ 32 + 0x1FFF
  | 5 => 0xFF * 2 ^ 32 + 0x1FF
  | 8 => 2 ^ 52 - 64
  | 10 => 0xFFFF * 2 ^ 32 + 0x1FFF * 2 ^ 16 + 0xFFF
  | 11 => 0x1FFFF * 2 ^ 32 + 0x3FFFF * 2 ^ 8 + 0xFF
  | 12 => 0x3FF * 2 ^ 32 + 0x7FF
  | 15 => 2 ^ 32 - 1
  | _ => 2 ^ 64 - 1

/-- A word of an entry written: ignored, with BUSYWR set, while the partition is LIVE; reserved bits stay zero. -/
def writePtab (entry word : Nat) (v : Word) (s : State) : State :=
  if entry ∈ s.dev.live then modDev s (fun d => { d with pctl := d.pctl ||| w64 (2 ^ 63) })
  else modDev s (fun d => { d with ptab := rset 0 d.ptab (16 * entry + word) (v &&& w64 (ptabMask word)) })

/-- PARTITION_TABLE_WRITE. -/
def execPartitionTableWrite (entry word : Nat) (value : Word) (s : State) : Host.Outcome State Fault Refusal :=
  .next (if entry < 16 && word < 16 then writePtab entry word value s else s)

/-- The shares of an entry that are ranges: base, count and device total, by kind (R521, R523). -/
def ptabRanges (s : State) (p : Nat) : List (Nat × Nat × Nat) :=
  let w := ptw s p
  [(bits (w 1) 40 32, bits (w 1) 9 0, 512), (bits (w 2) 43 32, bits (w 2) 12 0, 4096), (bits (w 3) 44 32, bits (w 3) 13 0, 8192),
   (bits (w 4) 43 32, bits (w 4) 12 0, 4096), (bits (w 5) 39 32, bits (w 5) 8 0, 256), (bits (w 12) 41 32, bits (w 12) 10 0, 1024),
   (bits (w 11) 48 32, bits (w 11) 25 8, 131072)]

/-- V is set and every field is in its range (R521, R523); a staging pool that is not empty lies on path 0x1. -/
def ptabValid (s : State) (p : Nat) : Bool :=
  let w := ptw s p
  bit (w 0) 63 && (ptabRanges s p).all (fun r => decide (r.1 + r.2.1 ≤ r.2.2)) && bits (w 1) 9 0 != 0 &&
  decide (1 ≤ bits (w 10) 28 16) && decide (bits (w 10) 28 16 ≤ 4096) && w 7 % 16384 == 0 &&
  (w 7 == 0 || bits (w 6) 63 57 == 8) && w 13 % 4096 == 0 && w 14 % 4096 == 0 &&
  bits (w 15) 31 0 != 0

/-- Two ranges overlap. -/
def rangeClash (a b : Nat × Nat × Nat) : Bool :=
  a.2.1 != 0 && b.2.1 != 0 && decide (a.1 < b.1 + b.2.1) && decide (b.1 < a.1 + a.2.1)

/-- A share of entry p overlaps the same share of entry q; Orchard blocks are compared in the stacks that both name. -/
def ptabClash (s : State) (p q : Nat) : Bool :=
  (ptw s p 0 &&& ptw s q 0) % 2 ^ 16 != 0 || bits (ptw s p 10) 47 32 &&& bits (ptw s q 10) 47 32 != 0 ||
  (((ptabRanges s p).take 6).zip ((ptabRanges s q).take 6)).any (fun x => rangeClash x.1 x.2) ||
  (bits (ptw s p 11) 7 0 &&& bits (ptw s q 11) 7 0 != 0 &&
   rangeClash ((ptabRanges s p).getD 6 (0, 0, 0)) ((ptabRanges s q).getD 6 (0, 0, 0)))

/-- The Groves of a partition, in ascending number. -/
def partGroves (s : State) (p : Nat) : List Nat := (List.range 256).filter (fun g => gladeShare s p (gladeOf g))

/-- The canopy pool list of a partition: n_b by Grove and bank; none where it cannot be read or a count is above 512 (R522). -/
def readPools (s : State) (p : Nat) : Option (List (Nat × Nat)) :=
  let gs := partGroves s p
  let a := ptw s p 8
  if a + 64 * gs.length > 0x8000000000 || ueIn s .dev a (64 * gs.length) then none
  else
    let ns := (List.range gs.length).flatMap (fun i => (List.range 32).map (fun b =>
      (32 * gs.getD i 0 + b, homeNat s .dev (a + 64 * i + 2 * b) 2)))
    if ns.all (fun x => decide (x.2 ≤ 512)) then some ns else none

/-- The slots of a partition's share. -/
def partSlots (s : State) (p : Nat) : List Nat := (List.range 4096).filter (slotShare s p)

/-- The slot records of a partition's share as R203 states. -/
def startSlots (p : Nat) (s : State) : State :=
  let mine := slotShare s p
  modDev s (fun d => { d with
    slots := d.slots.filter (fun x => !mine (x.1 / 4)), seeds := d.seeds.filter (fun x => !mine (x.1 / 8)),
    rings := d.rings.filter (fun x => !mine x.1), slotSteer := d.slotSteer.filter (fun x => !mine x.1),
    slotAlpha := d.slotAlpha.filter (fun x => !mine x.1), slotPend := d.slotPend.filter (fun x => x.1 != p),
    slotDue := d.slotDue.filter (fun x => x.1 != p),
    fired := d.fired.filter (fun a => a / 2 ^ 21 != p) })

/-- START (R523): the partition LIVE with fresh counters, slots and pools; or REFUSED set. -/
def startPart (p : Nat) (s : State) : State :=
  match readPools s p with
  | some ns =>
    let s := touchHome .dev (ptw s p 8) (64 * (partGroves s p).length) s
    if p ∉ s.dev.live && ptabValid s p && s.dev.live.all (fun q => !ptabClash s p q) then
      let s := startSlots p s
      let s := modDev s (fun d => { d with
        live := d.live ++ [p], seqctr := rset 0 d.seqctr p 0, jobctr := rset 0 d.jobctr p 0,
        pools := ns.foldl (fun m x => rset 0 m x.1 x.2) d.pools, pctl := withField d.pctl 62 1 0 })
      if gladeShare s p (gladeOf s.gv.id) then modGv s (fun g => { g with part := p }) else s
    else modDev s (fun d => { d with pctl := withField d.pctl 62 1 1 })
  | none => modDev s (fun d => { d with pctl := withField d.pctl 62 1 1 })

/-- PCTL_START. -/
def execPctlStart (part : Nat) (s : State) : Host.Outcome State Fault Refusal := .next (if part < 16 then startPart part s else s)

/-- A job cancelled: it fails for good with reason CANCELLED, without a record, its counter not poisoned (R385, R523). -/
def cancelJob (j : Job) (s : State) : State := dropJob j s

/-- STOP (R523), in its order. -/
def stopPart (p : Nat) (s : State) : State :=
  let s := (partLaunches s p).foldl (fun s n => failLaunch n s) s
  let s := (s.gv.jobs.filter (fun j => (launchOf s j.launch).part == p)).foldl (fun s j => cancelJob j s) s
  let s := modDev s (fun d => { d with wh := d.wh.filter (fun x => !handleShare s p x.1) })
  let s := (partSlots s p).foldl (fun s q => putSlotWord s q 0 (withField (slotWord s q 0) 31 1 0)) s
  let s := stopQueues p s
  modDev s (fun d => { d with live := d.live.filter (fun q => q != p) })

/-- PCTL_STOP. -/
def execPctlStop (part : Nat) (s : State) : Host.Outcome State Fault Refusal :=
  .next (if part ∈ s.dev.live then stopPart part s else s)

/-- BUSYWR and REFUSED cleared where a 1 is written. -/
def clearFlags (v : Word) (s : State) : State := modDev s (fun d => { d with pctl := d.pctl &&& ~~~(v &&& w64 (3 * 2 ^ 62)) })

/-- PCTL_FLAG_CLEAR. -/
def execPctlFlagClear (value : Word) (s : State) : Host.Outcome State Fault Refusal := .next (clearFlags value s)

/-! ## The image loader (R536) -/

/-- The logical blocks that a load touches. -/
def loadBlocks (lpn npg : Nat) : List Nat :=
  (List.range ((lpn + npg - 1) / blockPages + 1 - lpn / blockPages)).map (fun i => lpn / blockPages + i)

/-- A bound handle names a page of one of the blocks, or a queued read does. -/
def loadBusy (s : State) (stack : Nat) (bs : List Nat) : Bool :=
  s.dev.wh.any (fun x => x.2.st != whInvalid && laddrStack x.2.laddr == stack &&
    (loadBlocks (laddrPage x.2.laddr) x.2.npage).any (fun b => decide (b ∈ bs))) ||
  (stackOf s stack).reads.any (fun r => decide (r.lpn / blockPages ∈ bs))

/-- The words of the loader. -/
def loaderN (s : State) (k : Nat) : Nat := (rget 0 s.dev.loader k).toNat

/-- GO written: the load starts, or GO reads back 2. -/
def startLoad (s : State) : State :=
  let st := laddrStack (loaderN s 1)
  let lpn := laddrPage (loaderN s 1)
  let n := loaderN s 2
  if s.dev.loading then s
  else if loaderN s 1 / 2 ^ 42 != 0 || loaderN s 1 % pageBytes != 0 || n = 0 || lpn + n > 2 ^ 25 || loadBusy s st (loadBlocks lpn n) then
    modDev s (fun d => { d with loader := rset 0 d.loader 3 2 })
  else modDev s (fun d => { d with loading := true, loader := rset 0 d.loader 3 0 })

/-- IMAGE_LOAD: SRC, LPN0 and NPG as written, and GO. -/
def execImageLoad (src lpn0 npg : Word) (s : State) : Host.Outcome State Fault Refusal :=
  .next (
    if s.dev.loading then s
    else startLoad (modDev s (fun d => { d with loader := rsetAll 0 d.loader 0 [src, lpn0, npg] })))

/-- A logical block erased for a load: its physical block's erase is counted (R493, R494). -/
def eraseFor (stack b : Nat) (s : State) : State :=
  modStack s stack (fun k => wearCheck { k with
    erase := rmod 0 k.erase (physOf k b) (fun n => n + 1), rdc := rset 0 k.rdc (physOf k b) 0 })

/-- One page programmed from host memory; it is no longer lost. -/
def loadPage (stack lpn src : Nat) (s : State) : State :=
  let bs := homeBytes s .host src pageBytes
  let s := modDev s (fun d => { d with orch := rsetAll 0 d.orch (orchKey stack lpn) bs })
  modStack s stack (fun k => { k with lost := k.lost.filter (fun p => p != lpn) })

/-- IMAGE_LOAD_DONE: the load is complete and GO reads back 1. -/
def execImageLoadDone (s : State) : Host.Outcome State Fault Refusal :=
  .next (
    if !s.dev.loading then s
    else
      let st := laddrStack (loaderN s 1)
      let lpn := laddrPage (loaderN s 1)
      let n := loaderN s 2
      let s := (loadBlocks lpn n).foldl (fun s b => eraseFor st b s) s
      let s := (List.range n).foldl (fun s i => loadPage st (lpn + i) (loaderN s 0 + pageBytes * i) s) s
      modDev s (fun d => { d with loading := false, loader := rset 0 d.loader 3 1 }))

/-! ## Inbound fabric writes (R531) -/

/-- Entry i of a partition names the sender: an entry of kind peer with its address and its JOB (R529). -/
def sentBy (s : State) (p i : Nat) (who : FabricSender) : Bool :=
  bits (peerWord s p i 0) 63 62 == 1 && bits (peerWord s p i 0) 31 0 == who.job &&
  peerWord s p i 1 == who.addrLow.toNat && peerWord s p i 2 == who.addrHigh.toNat

/-- The LIVE partition whose share of the peer table holds an entry that matches the sender (R531). -/
def peerPart (s : State) (who : FabricSender) : Option Nat :=
  s.dev.live.find? (fun p => (List.range (bits (ptw s p 12) 10 0)).any (fun i => sentBy s p i who))

/-- INBOUND_RMA_WRITE: bytes land in the inbound window of the partition that has an entry for the sender, or the write is
refused. -/
def execInboundRmaWrite (who : FabricSender) (off : Nat) (data : List Byte) (s : State) : Host.Outcome State Fault Refusal :=
  .next (
    match peerPart s who with
    | none => s
    | some p => if off + data.length ≤ ptw s p 14 then (devStore p (ptw s p 13 + off) data s).getD s else s)

/-! ## Bring-up and reset (R533, R534) -/

/-- Step 1: the ROM measured. Step 6: the patches of the Orchard system area applied in order. -/
def measureRom (s : State) : State := modDev s (fun d => { d with meas := rset 0 [] 0 Config.romDigest })
def applyPatches (s : State) : State := s.dev.patches.foldl (fun s bs => applyImage bs (measure bs s)) s

/-- The effects of the bring-up steps before step k. -/
def bringUp (k : Nat) (salvaged : Bool) (s : State) : State :=
  let s := if 1 < k then measureRom s else s
  let s := if 3 < k then modGv s (fun g => { g with salvaged := salvaged }) else s
  if 6 < k then applyPatches s else s

/-- POWER_ON: the bring-up steps in order; a step that fails stops it with FAIL. -/
def execPowerOn (failStep : Option Nat) (salvaged : Bool) (s : State) : Host.Outcome State Fault Refusal :=
  .next (
    if s.dev.boot = 7 || s.dev.bootFail then s
    else
      match failStep with
      | some k => modDev (bringUp (max 1 (min 6 k)) salvaged s) (fun d => { d with boot := max 1 (min 6 k), bootFail := true })
      | none => modDev (bringUp 7 salvaged s) (fun d => { d with boot := 7 }))

/-- What a stack keeps across reset: its map, its erase counts, its free and retired blocks and its lost pages; a
relocation under way is dropped and its spare block is free again (R493, R496, R498). -/
def keepStack (k : Stack) : Stack :=
  let back := match running k with
    | some r => [if r.stage = 1 then r.new else r.old]
    | none => []
  { map := k.map, erase := k.erase, free := k.free ++ back, freeFrom := k.freeFrom, retired := k.retired, lost := k.lost }

/-- What the device keeps across reset beside the Orchard's content: the patches, and what its sensors read. -/
def keepDev (d : Dev) : Dev :=
  { orstk := d.orstk.map (fun x => (x.1, keepStack x.2)), orch := d.orch, patches := d.patches,
    colTemp := d.colTemp, inletHot := d.inletHot, pnow := d.pnow, tin := d.tin, tout := d.tout }

/-- The device reset: bring-up runs again (R533). Home memory and host memory keep their bytes. -/
def resetDevice (s : State) : State :=
  let t : State := { now := s.now, free := s.free, agenda := s.agenda, gv := { id := s.gv.id }, dev := keepDev s.dev,
                     mem := s.mem, hmem := s.hmem, ue := s.ue }
  if s.dev.inletHot then setColumns (448, 2) t else t

/-- DEVICE_RESET: a write to BOOTSTAT[7:0]. -/
def execDeviceReset (value : Byte) (s : State) : Host.Outcome State Fault Refusal :=
  .next (if value = 0xA5 then resetDevice s else s)

/-! ## Register writes as events -/

/-- ARB_SLICE_WRITE (R43, R48). -/
def execArbSliceWrite (value : Word) (s : State) : Host.Outcome State Fault Refusal := .next (writeArb s value)

/-- ARB_OVRCNT_CLEAR: an ARB write with bit 32 set (R48). -/
def execArbOvrcntClear (value : Word) (s : State) : Host.Outcome State Fault Refusal :=
  .next (if bit value.toNat 32 then writeArb s value else s)

/-- PORTMAP_WRITE (R81). -/
def execPortmapWrite (value : Word) (s : State) : Host.Outcome State Fault Refusal := .next (modCur s (fun c => writePortmap c value))

/-- PS_WRITE (R81). -/
def execPsWrite (set word : Nat) (value : Word) (s : State) : Host.Outcome State Fault Refusal :=
  .next (if set < 16 && word < 8 then modCur s (fun c => writePs c set word value) else s)

/-- CANOPY_DEBT_CLEAR: a CANOPY write with bit 32 set (R510). -/
def execCanopyDebtClear (value : Word) (s : State) : Host.Outcome State Fault Refusal :=
  .next (if bit value.toNat 32 then writeCanopy s value else s)

/-- HINTDROP_CLEAR (R425): the written value does not matter. -/
def execHintdropClear (_value : Word) (s : State) : Host.Outcome State Fault Refusal :=
  .next (modGv s (fun g => { g with hintdrop := 0 }))

/-- HBM_WATCH_WRITE (R507). -/
def execHbmWatchWrite (stack pc : Nat) (value : Word) (s : State) : Host.Outcome State Fault Refusal :=
  .next (if stack < 8 && pc < 128 then modPc s stack pc (fun p => hbmStore p 8 value.toNat) else s)

/-- HBM_COUNTER_CLEAR: a store to an RS word (R507). -/
def execHbmCounterClear (stack pc off : Nat) (s : State) : Host.Outcome State Fault Refusal :=
  .next (if stack < 8 && pc < 128 && off != 8 then modPc s stack pc (fun p => hbmStore p off 0) else s)

/-! ## BAR0 (R526, R527, R529, R536, R537) -/

/-- A queue holds packets that are not complete. -/
def cqHolds (c : CmdQ) : Bool := cqAvail c != 0 || c.cur.isSome || c.ready.isSome

/-- A write to the block of a command queue by function 0, or by a virtual function (R527). -/
def writeCq (vf : Bool) (q word : Nat) (v : Word) (s : State) : State :=
  let c := cmdq s q
  if word = 2 then modCq s q (fun c => { c with tail := v.toNat % 2 ^ 32 })
  else if word = 4 then resetQueue q s
  else if cqHolds c then s
  else if word = 0 then
    let z := max 12 (min 24 (v.toNat % 32))
    modCq s q (fun c => { c with owner := if vf then c.owner else bit v.toNat 7, log2sz := z,
                                 head := c.head % 2 ^ z, tail := c.head % 2 ^ z })
  else if word = 1 then modCq s q (fun c => { c with base := v })
  else if word = 5 && !vf && q != mgmtQ then modCq s q (fun c => { c with part := v.toNat % 16 })
  else s

/-- A write to PCTL (R523). -/
def writePctl (v : Word) (s : State) : State :=
  let s := clearFlags v s
  let p := v.toNat % 16
  if bits v.toNat 5 4 = 1 then startPart p s
  else if bits v.toNat 5 4 = 2 && p ∈ s.dev.live then stopPart p s
  else s

/-- A write of eight bytes to BAR0 of function 0. -/
def bar0Write (off : Nat) (v : Word) (s : State) : State :=
  if off < 0x800 then writePtab (off / 128) (off / 8 % 16) v s
  else if off = 0x800 then writePctl v s
  else if off = 0x810 then (if v.toNat % 256 = 0xA5 then resetDevice s else s)
  else if off = 0x820 then
    let w := max 600 (min 1800 (v.toNat % 65536))
    modDev s (fun d => { d with pcap := w, capon := decide (w < d.pnow) })
  else if 0x1000 ≤ off && off < 0x2000 then writeCq false ((off - 0x1000) / 64) (off % 64 / 8) v s
  else if 0x2000 ≤ off && off < 0x2018 then
    (if s.dev.loading then s else modDev s (fun d => { d with loader := rset 0 d.loader ((off - 0x2000) / 8) v }))
  else if off = 0x2018 then startLoad s
  else if 0x8000 ≤ off && off < 0x10000 then modDev s (fun d => { d with peers := rset 0 d.peers ((off - 0x8000) / 8) v })
  else s

/-- The queues of a partition, in ascending number (R526). -/
def partQueues (s : State) (p : Nat) : List Nat := (List.range 63).filter (fun q => (cmdq s q).part == p)

/-- A write of eight bytes to BAR0 of the virtual function of partition p (R526). -/
def vfWrite (p off : Nat) (v : Word) (s : State) : State :=
  match (partQueues s p)[off / 64]? with
  | some q => writeCq true q (off % 64 / 8) v s
  | none => s

/-- Word k of a peer-table entry as it reads: its reserved bits are zero (R7, R529). The entry keeps them, for JOB_BAD
(R530). -/
def peerRead (s : State) (e k : Nat) : Word :=
  let w := rget 0 s.dev.peers (4 * e + k)
  let group := bits (rget 0 s.dev.peers (4 * e)).toNat 63 62 == 2
  if k = 0 then w &&& 0xFC000000FFFFFFFF
  else if k = 1 then w
  else if k = 2 then (if group then w &&& 0x3F3F else w)
  else if group then 0 else w &&& 0x7FFFFFFFFFFF

/-- What word k of a command queue's block reads as: the doorbells are write-only (R527). -/
def cqRead (c : CmdQ) (k : Nat) : Word :=
  if k = 0 then w64 (c.ctl * 2 ^ 8 + c.owner.toNat * 2 ^ 7 + c.log2sz)
  else if k = 1 then c.base
  else if k = 3 then w64 c.head
  else if k = 5 then w64 c.part
  else 0

/-- What eight bytes of BAR0 of the virtual function of partition p read as: the blocks of the partition's queues, packed; beyond
them nothing is assigned (R526). -/
def vfRead (s : State) (p off : Nat) : Word :=
  match (partQueues s p)[off / 64]? with
  | some q => cqRead (cmdq s q) (off % 64 / 8)
  | none => 0

/-- What eight bytes of BAR0 of function 0 read as (R526). -/
def bar0Read (s : State) (off : Nat) : Word :=
  if off < 0x800 then ptabWord s (off / 128) (off / 8 % 16)
  else if off = 0x800 then s.dev.pctl
  else if off = 0x810 then w64 (s.dev.bootFail.toNat * 2 ^ 63 + s.dev.boot * 2 ^ 8)
  else if off = 0x820 then w64 s.dev.pcap
  else if off = 0x828 then w64 s.dev.pnow
  else if off = 0x830 then w64 (s.dev.tin * 2 ^ 8 + s.dev.tout)
  else if off = 0x838 then w64 s.dev.capon.toNat
  else if 0x1000 ≤ off && off < 0x2000 then cqRead (cmdq s ((off - 0x1000) / 64)) (off % 64 / 8)
  else if 0x2000 ≤ off && off < 0x2020 then rget 0 s.dev.loader ((off - 0x2000) / 8)
  else if 0x8000 ≤ off && off < 0x10000 then peerRead s ((off - 0x8000) / 32) (off % 32 / 8)
  else if 0x10000 ≤ off && off < 0x10800 then
    leW ((digestBytes (rget 0 s.dev.meas ((off - 0x10000) / 32))).drop (off % 32))
  else 0

/-- REGISTER_WRITE: a register written as its map states (R269, R270, R526). Numbers below 0x1000 are the control
registers of the acting stream; from 2^20 on, byte offsets of BAR0 of function 0; from 2^24 on, byte offsets of BAR0 of
the virtual functions, 4 KiB each. -/
def execRegisterWrite (num : Nat) (value : Word) (s : State) : Host.Outcome State Fault Refusal :=
  .next (
    if num < 0x1000 then ctlWrite s s.sel num value
    else if 2 ^ 20 ≤ num && num < 2 ^ 21 then bar0Write ((num - 2 ^ 20) / 8 * 8) value s
    else if 2 ^ 24 ≤ num && num < 2 ^ 24 + 2 ^ 16 then vfWrite ((num - 2 ^ 24) / 4096) (num % 4096 / 8 * 8) value s
    else s)

end Sys2Proof.Machine
end

