-- ==== Sys2Proof/Machine/Dispatch.lean ====
section
/-!
DEFINITION. The dispatch: one arm for each constructor of Instr, each a direct call of its meaning.
-/

namespace Sys2Proof.Machine

/-- The meaning of an instruction at a state. -/
def exec (i : Instr) (s : State) : Host.Outcome State Fault Refusal :=
  match i with
  | .add q d a b => Sys2Proof.Machine.execAdd q d a b s
  | .sub q d a b => Sys2Proof.Machine.execSub q d a b s
  | .mul q d a b => Sys2Proof.Machine.execMul q d a b s
  | .mulh q d a b => Sys2Proof.Machine.execMulh q d a b s
  | .mulhn q d a b => Sys2Proof.Machine.execMulhn q d a b s
  | .div q d a b => Sys2Proof.Machine.execDiv q d a b s
  | .divn q d a b => Sys2Proof.Machine.execDivn q d a b s
  | .rem q d a b => Sys2Proof.Machine.execRem q d a b s
  | .remn q d a b => Sys2Proof.Machine.execRemn q d a b s
  | .and q d a b => Sys2Proof.Machine.execAnd q d a b s
  | .andn q d a b => Sys2Proof.Machine.execAndn q d a b s
  | .or q d a b => Sys2Proof.Machine.execOr q d a b s
  | .xor q d a b => Sys2Proof.Machine.execXor q d a b s
  | .nor q d a b => Sys2Proof.Machine.execNor q d a b s
  | .shl q d a b => Sys2Proof.Machine.execShl q d a b s
  | .shr q d a b => Sys2Proof.Machine.execShr q d a b s
  | .sra q d a b => Sys2Proof.Machine.execSra q d a b s
  | .rot q d a b => Sys2Proof.Machine.execRot q d a b s
  | .brev q d a => Sys2Proof.Machine.execBrev q d a s
  | .clz q d a => Sys2Proof.Machine.execClz q d a s
  | .ctz q d a => Sys2Proof.Machine.execCtz q d a s
  | .popc q d a => Sys2Proof.Machine.execPopc q d a s
  | .min q d a b => Sys2Proof.Machine.execMin q d a b s
  | .max q d a b => Sys2Proof.Machine.execMax q d a b s
  | .minn q d a b => Sys2Proof.Machine.execMinn q d a b s
  | .maxn q d a b => Sys2Proof.Machine.execMaxn q d a b s
  | .sel q d a b f1 f2 => Sys2Proof.Machine.execSel q d a b f1 f2 s
  | .cmp q d a b bit cond => Sys2Proof.Machine.execCmp q d a b bit cond s
  | .bset q d a b => Sys2Proof.Machine.execBset q d a b s
  | .bclr q d a b => Sys2Proof.Machine.execBclr q d a b s
  | .bins q d a b f1 f2 => Sys2Proof.Machine.execBins q d a b f1 f2 s
  | .extr q d a b w => Sys2Proof.Machine.execExtr q d a b w s
  | .depo q d a b w => Sys2Proof.Machine.execDepo q d a b w s
  | .aadd q d a b => Sys2Proof.Machine.execAadd q d a b s
  | .adiff q d a b => Sys2Proof.Machine.execAdiff q d a b s
  | .achk q d a b => Sys2Proof.Machine.execAchk q d a b s
  | .addImm q d a imm => Sys2Proof.Machine.execAddImm q d a imm s
  | .subImm q d a imm => Sys2Proof.Machine.execSubImm q d a imm s
  | .mulImm q d a imm => Sys2Proof.Machine.execMulImm q d a imm s
  | .andImm q d a imm => Sys2Proof.Machine.execAndImm q d a imm s
  | .andnImm q d a imm => Sys2Proof.Machine.execAndnImm q d a imm s
  | .orImm q d a imm => Sys2Proof.Machine.execOrImm q d a imm s
  | .xorImm q d a imm => Sys2Proof.Machine.execXorImm q d a imm s
  | .shlImm q d a n => Sys2Proof.Machine.execShlImm q d a n s
  | .shrImm q d a n => Sys2Proof.Machine.execShrImm q d a n s
  | .sraImm q d a n => Sys2Proof.Machine.execSraImm q d a n s
  | .rotImm q d a n => Sys2Proof.Machine.execRotImm q d a n s
  | .minImm q d a imm => Sys2Proof.Machine.execMinImm q d a imm s
  | .maxImm q d a imm => Sys2Proof.Machine.execMaxImm q d a imm s
  | .minnImm q d a imm => Sys2Proof.Machine.execMinnImm q d a imm s
  | .maxnImm q d a imm => Sys2Proof.Machine.execMaxnImm q d a imm s
  | .cmpImm q d a imm bit cond => Sys2Proof.Machine.execCmpImm q d a imm bit cond s
  | .bsetImm q d a n => Sys2Proof.Machine.execBsetImm q d a n s
  | .bclrImm q d a n => Sys2Proof.Machine.execBclrImm q d a n s
  | .extrImm q d a lo w => Sys2Proof.Machine.execExtrImm q d a lo w s
  | .depoImm q d a lo w => Sys2Proof.Machine.execDepoImm q d a lo w s
  | .aaddImm q d a imm => Sys2Proof.Machine.execAaddImm q d a imm s
  | .achkImm q d a imm => Sys2Proof.Machine.execAchkImm q d a imm s
  | .movi q d imm => Sys2Proof.Machine.execMovi q d imm s
  | .movhi q d imm => Sys2Proof.Machine.execMovhi q d imm s
  | .movc q d num => Sys2Proof.Machine.execMovc q d num s
  | .movs q a num => Sys2Proof.Machine.execMovs q a num s
  | .br q off => Sys2Proof.Machine.execBr q off s
  | .bri q n off => Sys2Proof.Machine.execBri q n off s
  | .call q n off => Sys2Proof.Machine.execCall q n off s
  | .calli q n link => Sys2Proof.Machine.execCalli q n link s
  | .ret q n => Sys2Proof.Machine.execRet q n s
  | .lset q k src => Sys2Proof.Machine.execLset q k src s
  | .loop q k off => Sys2Proof.Machine.execLoop q k off s
  | .lcld q n off => Sys2Proof.Machine.execLcld q n off s
  | .skset q n => Sys2Proof.Machine.execSkset q n s
  | .skclr q n => Sys2Proof.Machine.execSkclr q n s
  | .cont q n off => Sys2Proof.Machine.execCont q n off s
  | .endTask q => Sys2Proof.Machine.execEndTask q s
  | .trap q code payload => Sys2Proof.Machine.execTrap q code payload s
  | .brk q tag => Sys2Proof.Machine.execBrk q tag s
  | .eret q n => Sys2Proof.Machine.execEret q n s
  | .idle q n => Sys2Proof.Machine.execIdle q n s
  | .idleWake strm => Sys2Proof.Machine.execIdleWake strm s
  | .ldB q d a off => Sys2Proof.Machine.execLdB q d a off s
  | .ldH q d a off => Sys2Proof.Machine.execLdH q d a off s
  | .ldW q d a off => Sys2Proof.Machine.execLdW q d a off s
  | .ldD q d a off => Sys2Proof.Machine.execLdD q d a off s
  | .ldNB q d a off => Sys2Proof.Machine.execLdNB q d a off s
  | .ldNH q d a off => Sys2Proof.Machine.execLdNH q d a off s
  | .ldNW q d a off => Sys2Proof.Machine.execLdNW q d a off s
  | .stB q d a off => Sys2Proof.Machine.execStB q d a off s
  | .stH q d a off => Sys2Proof.Machine.execStH q d a off s
  | .stW q d a off => Sys2Proof.Machine.execStW q d a off s
  | .stD q d a off => Sys2Proof.Machine.execStD q d a off s
  | .loadComplete strm => Sys2Proof.Machine.execLoadComplete strm s
  | .ldv q m a off step => Sys2Proof.Machine.execLdv q m a off step s
  | .stv q m msk a off step => Sys2Proof.Machine.execStv q m msk a off step s
  | .ldvx q m msk a off step => Sys2Proof.Machine.execLdvx q m msk a off step s
  | .stvx q m msk a off step => Sys2Proof.Machine.execStvx q m msk a off step s
  | .amoAdd q d a b off => Sys2Proof.Machine.execAmoAdd q d a b off s
  | .amoMin q d a b off => Sys2Proof.Machine.execAmoMin q d a b off s
  | .amoMax q d a b off => Sys2Proof.Machine.execAmoMax q d a b off s
  | .amoMinn q d a b off => Sys2Proof.Machine.execAmoMinn q d a b off s
  | .amoMaxn q d a b off => Sys2Proof.Machine.execAmoMaxn q d a b off s
  | .amoAnd q d a b off => Sys2Proof.Machine.execAmoAnd q d a b off s
  | .amoOr q d a b off => Sys2Proof.Machine.execAmoOr q d a b off s
  | .amoXor q d a b off => Sys2Proof.Machine.execAmoXor q d a b off s
  | .amoSwap q d a b off => Sys2Proof.Machine.execAmoSwap q d a b off s
  | .amocas q d a b off => Sys2Proof.Machine.execAmocas q d a b off s
  | .amoAddW q d a b off => Sys2Proof.Machine.execAmoAddW q d a b off s
  | .amoMinW q d a b off => Sys2Proof.Machine.execAmoMinW q d a b off s
  | .amoMaxW q d a b off => Sys2Proof.Machine.execAmoMaxW q d a b off s
  | .amoMinnW q d a b off => Sys2Proof.Machine.execAmoMinnW q d a b off s
  | .amoMaxnW q d a b off => Sys2Proof.Machine.execAmoMaxnW q d a b off s
  | .amoAndW q d a b off => Sys2Proof.Machine.execAmoAndW q d a b off s
  | .amoOrW q d a b off => Sys2Proof.Machine.execAmoOrW q d a b off s
  | .amoXorW q d a b off => Sys2Proof.Machine.execAmoXorW q d a b off s
  | .amoSwapW q d a b off => Sys2Proof.Machine.execAmoSwapW q d a b off s
  | .amocasW q d a b off => Sys2Proof.Machine.execAmocasW q d a b off s
  | .amofadd q d a b off => Sys2Proof.Machine.execAmofadd q d a b off s
  | .fence q pred succ scope => Sys2Proof.Machine.execFence q pred succ scope s
  | .pref q lvl a off => Sys2Proof.Machine.execPref q lvl a off s
  | .barArrive q shp => Sys2Proof.Machine.execBarArrive q shp s
  | .barWait q shp => Sys2Proof.Machine.execBarWait q shp s
  | .barPhase q => Sys2Proof.Machine.execBarPhase q s
  | .barr q d a shp rop phm => Sys2Proof.Machine.execBarr q d a shp rop phm s
  | .barrierNodeComplete launch shape others => Sys2Proof.Machine.execBarrierNodeComplete launch shape others s
  | .cwait q d a b off => Sys2Proof.Machine.execCwait q d a b off s
  | .cwaitSatisfied strm => Sys2Proof.Machine.execCwaitSatisfied strm s
  | .cread q d a off => Sys2Proof.Machine.execCread q d a off s
  | .cadd q d a b off => Sys2Proof.Machine.execCadd q d a b off s
  | .wqenq q m d a => Sys2Proof.Machine.execWqenq q m d a s
  | .wqdeq q m d a => Sys2Proof.Machine.execWqdeq q m d a s
  | .wqpeek q m d a => Sys2Proof.Machine.execWqpeek q m d a s
  | .jdec q d a => Sys2Proof.Machine.execJdec q d a s
  | .talloc q d a canopy launchLife fbank wcode => Sys2Proof.Machine.execTalloc q d a canopy launchLife fbank wcode s
  | .tfree q a => Sys2Proof.Machine.execTfree q a s
  | .tqry q d a sel => Sys2Proof.Machine.execTqry q d a sel s
  | .balloc q d a => Sys2Proof.Machine.execBalloc q d a s
  | .cact q a => Sys2Proof.Machine.execCact q a s
  | .cpre q a => Sys2Proof.Machine.execCpre q a s
  | .cref q a => Sys2Proof.Machine.execCref q a s
  | .cld q m a off step => Sys2Proof.Machine.execCld q m a off step s
  | .cst q m a off step => Sys2Proof.Machine.execCst q m a off step s
  | .cldDelivery => Sys2Proof.Machine.execCldDelivery s
  | .backgroundRefresh bank => Sys2Proof.Machine.execBackgroundRefresh bank s
  | .emergencyRefresh bank => Sys2Proof.Machine.execEmergencyRefresh bank s
  | .htest q d a sel => Sys2Proof.Machine.execHtest q d a sel s
  | .hreq q a => Sys2Proof.Machine.execHreq q a s
  | .hpin q a => Sys2Proof.Machine.execHpin q a s
  | .hrel q a => Sys2Proof.Machine.execHrel q a s
  | .xcopy q gb gc inc exch => Sys2Proof.Machine.execXcopy q gb gc inc exch s
  | .xgath q gb gc inc exch => Sys2Proof.Machine.execXgath q gb gc inc exch s
  | .xscat q gb gc inc exch => Sys2Proof.Machine.execXscat q gb gc inc exch s
  | .xred q gb gc inc exch => Sys2Proof.Machine.execXred q gb gc inc exch s
  | .xconv q gb gc inc exch => Sys2Proof.Machine.execXconv q gb gc inc exch s
  | .xfill q gb gc inc exch => Sys2Proof.Machine.execXfill q gb gc inc exch s
  | .xcoll q gb gc inc => Sys2Proof.Machine.execXcoll q gb gc inc s
  | .xpeer q gb gc inc => Sys2Proof.Machine.execXpeer q gb gc inc s
  | .xcanw q gb gc inc => Sys2Proof.Machine.execXcanw q gb gc inc s
  | .rtsub q gb gc inc => Sys2Proof.Machine.execRtsub q gb gc inc s
  | .spalloc q gb gc inc => Sys2Proof.Machine.execSpalloc q gb gc inc s
  | .gcmt q gb gc inc => Sys2Proof.Machine.execGcmt q gb gc inc s
  | .tapx q gb => Sys2Proof.Machine.execTapx q gb s
  | .shres q gb => Sys2Proof.Machine.execShres q gb s
  | .tapq q d a => Sys2Proof.Machine.execTapq q d a s
  | .shprd q d => Sys2Proof.Machine.execShprd q d s
  | .tlbi q d a kind => Sys2Proof.Machine.execTlbi q d a kind s
  | .l1inv q a kind => Sys2Proof.Machine.execL1inv q a kind s
  | .ctxsv q d a => Sys2Proof.Machine.execCtxsv q d a s
  | .ctxld q d a => Sys2Proof.Machine.execCtxld q d a s
  | .mldw q src wt => Sys2Proof.Machine.execMldw q src wt s
  | .mldwc q gr wt half => Sys2Proof.Machine.execMldwc q gr wt half s
  | .planeReady => Sys2Proof.Machine.execPlaneReady s
  | .mstrm q acc src arow gr sw step => Sys2Proof.Machine.execMstrm q acc src arow gr sw step s
  | .mbatch q acc src arow gr sw step => Sys2Proof.Machine.execMbatch q acc src arow gr sw step s
  | .mdrain q acc dst chk cmask tt rs cs pack step => Sys2Proof.Machine.execMdrain q acc dst chk cmask tt rs cs pack step s
  | .mzero q acc => Sys2Proof.Machine.execMzero q acc s
  | .mfree q acc => Sys2Proof.Machine.execMfree q acc s
  | .mscl q src col => Sys2Proof.Machine.execMscl q src col s
  | .mcall q entry acc => Sys2Proof.Machine.execMcall q entry acc s
  | .mmpw q src gr tbl => Sys2Proof.Machine.execMmpw q src gr tbl s
  | .mstat q gr wait => Sys2Proof.Machine.execMstat q gr wait s
  | .wload px typ => Sys2Proof.Machine.execWload px typ s
  | .wswap => Sys2Proof.Machine.execWswap s
  | .stream px imm => Sys2Proof.Machine.execStream px imm s
  | .accum acc imm batch => Sys2Proof.Machine.execAccum acc imm batch s
  | .drain acc px typ imm cmask rs cs pack => Sys2Proof.Machine.execDrain acc px typ imm cmask rs cs pack s
  | .mask mpx => Sys2Proof.Machine.execMask mpx s
  | .microLoop lx tgt => Sys2Proof.Machine.execMicroLoop lx tgt s
  | .microStep px imm => Sys2Proof.Machine.execMicroStep px imm s
  | .param px lx mpx opd imm flg => Sys2Proof.Machine.execParam px lx mpx opd imm flg s
  | .branchz lx tgt => Sys2Proof.Machine.execBranchz lx tgt s
  | .waitw => Sys2Proof.Machine.execWaitw s
  | .scale px col => Sys2Proof.Machine.execScale px col s
  | .nopm imm => Sys2Proof.Machine.execNopm imm s
  | .endm => Sys2Proof.Machine.execEndm s
  | .vadd q ty d a b step => Sys2Proof.Machine.execVadd q ty d a b step s
  | .vsub q ty d a b step => Sys2Proof.Machine.execVsub q ty d a b step s
  | .vmul q ty d a b step => Sys2Proof.Machine.execVmul q ty d a b step s
  | .vfma q ty d a b step => Sys2Proof.Machine.execVfma q ty d a b step s
  | .vfms q ty d a b step => Sys2Proof.Machine.execVfms q ty d a b step s
  | .vmax q ty d a b step => Sys2Proof.Machine.execVmax q ty d a b step s
  | .vmin q ty d a b step => Sys2Proof.Machine.execVmin q ty d a b step s
  | .vabs q ty d a step => Sys2Proof.Machine.execVabs q ty d a step s
  | .vneg q ty d a step => Sys2Proof.Machine.execVneg q ty d a step s
  | .vrcp q ty d a step => Sys2Proof.Machine.execVrcp q ty d a step s
  | .vrsq q ty d a step => Sys2Proof.Machine.execVrsq q ty d a step s
  | .vexp2 q ty d a step => Sys2Proof.Machine.execVexp2 q ty d a step s
  | .vlog2 q ty d a step => Sys2Proof.Machine.execVlog2 q ty d a step s
  | .vcmp q ty d a cond step => Sys2Proof.Machine.execVcmp q ty d a cond step s
  | .vsel q ty d a b step => Sys2Proof.Machine.execVsel q ty d a b step s
  | .vand q ty d a b step => Sys2Proof.Machine.execVand q ty d a b step s
  | .vor q ty d a b step => Sys2Proof.Machine.execVor q ty d a b step s
  | .vxor q ty d a b step => Sys2Proof.Machine.execVxor q ty d a b step s
  | .vnot q ty d a step => Sys2Proof.Machine.execVnot q ty d a step s
  | .vshl q ty d a sh step => Sys2Proof.Machine.execVshl q ty d a sh step s
  | .vshr q ty d a sh step => Sys2Proof.Machine.execVshr q ty d a sh step s
  | .vsra q ty d a sh step => Sys2Proof.Machine.execVsra q ty d a sh step s
  | .vcvt q ty d a dt sf part step => Sys2Proof.Machine.execVcvt q ty d a dt sf part step s
  | .vpack q ty d a w sat part step => Sys2Proof.Machine.execVpack q ty d a w sat part step s
  | .vunpk q ty d a w part step => Sys2Proof.Machine.execVunpk q ty d a w part step s
  | .vbcst q ty d a idx step => Sys2Proof.Machine.execVbcst q ty d a idx step s
  | .vmov q ty d a step => Sys2Proof.Machine.execVmov q ty d a step s
  | .vperm q ty d a b step => Sys2Proof.Machine.execVperm q ty d a b step s
  | .vrot q ty d a sh step => Sys2Proof.Machine.execVrot q ty d a sh step s
  | .vred q ty d a rop len step => Sys2Proof.Machine.execVred q ty d a rop len step s
  | .vscan q ty d a rop excl len step => Sys2Proof.Machine.execVscan q ty d a rop excl len step s
  | .vnorm q ty d a len step => Sys2Proof.Machine.execVnorm q ty d a len step s
  | .vclamp q ty d a b step => Sys2Proof.Machine.execVclamp q ty d a b step s
  | .vlut q ty d a b step => Sys2Proof.Machine.execVlut q ty d a b step s
  | .vbmt q ty d a b step => Sys2Proof.Machine.execVbmt q ty d a b step s
  | .vscatx q ty d a b step => Sys2Proof.Machine.execVscatx q ty d a b step s
  | .vgathx q ty d a b step => Sys2Proof.Machine.execVgathx q ty d a b step s
  | .vcnt q ty d a step => Sys2Proof.Machine.execVcnt q ty d a step s
  | .vmatch q ty d a b step => Sys2Proof.Machine.execVmatch q ty d a b step s
  | .vpsum q ty d a lane lv step => Sys2Proof.Machine.execVpsum q ty d a lane lv step s
  | .vdsc q ty d a hnd last first step => Sys2Proof.Machine.execVdsc q ty d a hnd last first step s
  | .vrng q ty d a step => Sys2Proof.Machine.execVrng q ty d a step s
  | .vstat q ty d form => Sys2Proof.Machine.execVstat q ty d form s
  | .rweRingRefill slot => Sys2Proof.Machine.execRweRingRefill slot s
  | .bundleIssue strm hdr ops => Sys2Proof.Machine.execBundleIssue strm hdr ops s
  | .secondaryForcedIssue hdr ops => Sys2Proof.Machine.execSecondaryForcedIssue hdr ops s
  | .segmentOverrun strm => Sys2Proof.Machine.execSegmentOverrun strm s
  | .sliceBoundary => Sys2Proof.Machine.execSliceBoundary s
  | .arbitrate told => Sys2Proof.Machine.execArbitrate told s
  | .urgentSave strm => Sys2Proof.Machine.execUrgentSave strm s
  | .phaseNodeComplete launch arrived others => Sys2Proof.Machine.execPhaseNodeComplete launch arrived others s
  | .phaseDrainDone launch => Sys2Proof.Machine.execPhaseDrainDone launch s
  | .phaseExchangeDone launch => Sys2Proof.Machine.execPhaseExchangeDone launch s
  | .settlement launch => Sys2Proof.Machine.execSettlement launch s
  | .tapCompare launch others => Sys2Proof.Machine.execTapCompare launch others s
  | .phaseFlip launch => Sys2Proof.Machine.execPhaseFlip launch s
  | .phaseStall launch => Sys2Proof.Machine.execPhaseStall launch s
  | .operatorExpand cq => Sys2Proof.Machine.execOperatorExpand cq s
  | .shapeResolution launch => Sys2Proof.Machine.execShapeResolution launch s
  | .jobStart job memErr => Sys2Proof.Machine.execJobStart job memErr s
  | .jobComplete job peers => Sys2Proof.Machine.execJobComplete job peers s
  | .fabricTimeout job => Sys2Proof.Machine.execFabricTimeout job s
  | .routerSubmission job => Sys2Proof.Machine.execRouterSubmission job s
  | .orchardReadIssue stack => Sys2Proof.Machine.execOrchardReadIssue stack s
  | .orchardPageLand stack corrected lost => Sys2Proof.Machine.execOrchardPageLand stack corrected lost s
  | .evictionEnd handle => Sys2Proof.Machine.execEvictionEnd handle s
  | .relocationStart stack => Sys2Proof.Machine.execRelocationStart stack s
  | .relocationCommit stack copied => Sys2Proof.Machine.execRelocationCommit stack copied s
  | .blockErase stack ok => Sys2Proof.Machine.execBlockErase stack ok s
  | .hbmAccess stack pc bank row evt => Sys2Proof.Machine.execHbmAccess stack pc bank row evt s
  | .hbmMgmtWindowEnd stack pc bank => Sys2Proof.Machine.execHbmMgmtWindowEnd stack pc bank s
  | .hbmRowIdleClose stack pc bank => Sys2Proof.Machine.execHbmRowIdleClose stack pc bank s
  | .remapReload stack pc ok => Sys2Proof.Machine.execRemapReload stack pc ok s
  | .linkCrc stack site => Sys2Proof.Machine.execLinkCrc stack site s
  | .linkRetrainDone stack pc ok => Sys2Proof.Machine.execLinkRetrainDone stack pc ok s
  | .thermalReading col temp watts tin tout => Sys2Proof.Machine.execThermalReading col temp watts tin tout s
  | .inletOvertemp celsius => Sys2Proof.Machine.execInletOvertemp celsius s
  | .inboundRmaWrite who off data => Sys2Proof.Machine.execInboundRmaWrite who off data s
  | .cqTailDoorbell cq value => Sys2Proof.Machine.execCqTailDoorbell cq value s
  | .cqResetDoorbell cq => Sys2Proof.Machine.execCqResetDoorbell cq s
  | .packetParse cq => Sys2Proof.Machine.execPacketParse cq s
  | .nop p => Sys2Proof.Machine.execNop p s
  | .launch p => Sys2Proof.Machine.execLaunch p s
  | .pred p => Sys2Proof.Machine.execPred p s
  | .predTest cq => Sys2Proof.Machine.execPredTest cq s
  | .signalAdd p => Sys2Proof.Machine.execSignalAdd p s
  | .signalStore p => Sys2Proof.Machine.execSignalStore p s
  | .signalChainWord p => Sys2Proof.Machine.execSignalChainWord p s
  | .signalRefused p => Sys2Proof.Machine.execSignalRefused p s
  | .waitc p => Sys2Proof.Machine.execWaitc p s
  | .waitcSatisfied cq => Sys2Proof.Machine.execWaitcSatisfied cq s
  | .hcopy p => Sys2Proof.Machine.execHcopy p s
  | .cqFence p => Sys2Proof.Machine.execCqFence p s
  | .seqcfg p => Sys2Proof.Machine.execSeqcfg p s
  | .seedseq p => Sys2Proof.Machine.execSeedseq p s
  | .tapcfgPoint p => Sys2Proof.Machine.execTapcfgPoint p s
  | .tapcfgSteer p => Sys2Proof.Machine.execTapcfgSteer p s
  | .sptcfg p => Sys2Proof.Machine.execSptcfg p s
  | .qcfg p => Sys2Proof.Machine.execQcfg p s
  | .hbindBind p => Sys2Proof.Machine.execHbindBind p s
  | .hbindClear p => Sys2Proof.Machine.execHbindClear p s
  | .hbindRebind p => Sys2Proof.Machine.execHbindRebind p s
  | .hbindRefused p => Sys2Proof.Machine.execHbindRefused p s
  | .evqcfg p => Sys2Proof.Machine.execEvqcfg p s
  | .eventRingRoom ring => Sys2Proof.Machine.execEventRingRoom ring s
  | .preempt p => Sys2Proof.Machine.execPreempt p s
  | .resume p => Sys2Proof.Machine.execResume p s
  | .queryStatus p => Sys2Proof.Machine.execQueryStatus p s
  | .queryQueue p => Sys2Proof.Machine.execQueryQueue p s
  | .querySlots p => Sys2Proof.Machine.execQuerySlots p s
  | .queryRefused p => Sys2Proof.Machine.execQueryRefused p s
  | .patch p => Sys2Proof.Machine.execPatch p s
  | .attest p => Sys2Proof.Machine.execAttest p s
  | .ctrlMismatch part => Sys2Proof.Machine.execCtrlMismatch part s
  | .workerSelfcheckFail => Sys2Proof.Machine.execWorkerSelfcheckFail s
  | .powerOn failStep salvaged => Sys2Proof.Machine.execPowerOn failStep salvaged s
  | .deviceReset value => Sys2Proof.Machine.execDeviceReset value s
  | .pctlStart part => Sys2Proof.Machine.execPctlStart part s
  | .pctlStop part => Sys2Proof.Machine.execPctlStop part s
  | .pctlFlagClear value => Sys2Proof.Machine.execPctlFlagClear value s
  | .partitionTableWrite entry word value => Sys2Proof.Machine.execPartitionTableWrite entry word value s
  | .imageLoad src lpn0 npg => Sys2Proof.Machine.execImageLoad src lpn0 npg s
  | .imageLoadDone => Sys2Proof.Machine.execImageLoadDone s
  | .arbSliceWrite value => Sys2Proof.Machine.execArbSliceWrite value s
  | .arbOvrcntClear value => Sys2Proof.Machine.execArbOvrcntClear value s
  | .portmapWrite value => Sys2Proof.Machine.execPortmapWrite value s
  | .psWrite set word value => Sys2Proof.Machine.execPsWrite set word value s
  | .canopyDebtClear value => Sys2Proof.Machine.execCanopyDebtClear value s
  | .hintdropClear value => Sys2Proof.Machine.execHintdropClear value s
  | .hbmWatchWrite stack pc value => Sys2Proof.Machine.execHbmWatchWrite stack pc value s
  | .hbmCounterClear stack pc off => Sys2Proof.Machine.execHbmCounterClear stack pc off s
  | .registerWrite num value => Sys2Proof.Machine.execRegisterWrite num value s
  | .stkfail stack => Sys2Proof.Machine.execStkfail stack s
  | .peerReject job => Sys2Proof.Machine.execPeerReject job s
  | .collMismatch job => Sys2Proof.Machine.execCollMismatch job s
  | .inletFallsBelow40 celsius => Sys2Proof.Machine.execInletFallsBelow40 celsius s
  | .ctrlRecoveryDone => Sys2Proof.Machine.execCtrlRecoveryDone s

end Sys2Proof.Machine
end

