-- ==== Sys2Proof/Machine/Sched.lean ====
section
/-!
DEFINITION. What the machine does next where nothing comes from outside: which event is due, in one fixed order; which
stream issues; the end of a cycle; and the machine with a given instruction at the place of its next fetch.
-/

namespace Sys2Proof.Machine

/-- What a step comes to. -/
abbrev Out := Host.Outcome State Fault Refusal

/-- An event that happens where its condition holds. -/
def whenDue (b : Bool) (f : State → Out) (s : State) : Option Out := if b then some (f s) else none

/-- An event that happens where it changes what `seen` reads of the state. -/
def whenMoves [DecidableEq α] (seen : State → α) (f : State → Out) (s : State) : Option Out :=
  match f s with
  | .next t => if seen t = seen s then none else some (.next t)
  | r => some r

/-- An access of the device that belongs to a move of the machine from state s is held back by its bank: the move cannot be made yet
(R505, R506). -/
def heldBack (s : State) (o : Out) : Bool :=
  match o with
  | .next t => t.dev.waits && !s.dev.waits
  | _ => false

/-- An event that happens in state s, unless it is held back. -/
def ready (s : State) (o : Option Out) : Option Out := o.filter (fun r => !heldBack s r)

/-- The first of the keys of a map for which an event is due. -/
def firstKey (s : State) (m : RMap α) (f : Nat → Option Out) : Option Out := m.findSome? (fun x => ready s (f x.1))

/-- The first of two candidates. -/
def orThen (s : State) (a : Option Out) (b : Unit → Option Out) : Option Out :=
  match ready s a with
  | some r => some r
  | none => b ()

/-! ## Bring-up, deliveries, microprograms -/

/-- Bring-up is under way (R533). -/
def bootDue (s : State) : Bool := s.dev.boot != 7 && !s.dev.bootFail

/-- The weights that the idle plane loads are in place (R356). -/
def planeDue (s : State) : Bool := s.gv.idle.st == 1 && decide (s.gv.idle.readyAt ≤ s.now)

/-- A delivery is due (R103). -/
def cldDue (s : State) : Bool := s.gv.clds.any (fun m => decide (m.due ≤ s.now))

/-- The next micro-op of stream b performed, or sub-code 1 where its microword is no micro-op (R375). -/
def microNext (b : Bool) (s : State) : Out :=
  let t := withSel b s
  match decodeMicro (microWord t) with
  | some i =>
    (match exec i t with
     | .next u => .next { u with sel := s.sel }
     | r => r)
  | none => .next { stopMicro (some 1) t with sel := s.sel }

/-- How far the run of stream b has come, with the reads that its next micro-op has made. -/
def microSeen (b : Bool) (s : State) : Bool × Nat × Nat × List Hand :=
  ((strm s b).micro.running, (strm s b).micro.count, (strm s b).micro.prog, (strm s b).hand)

/-- The micro-op of stream b that its run performs next, if it can go on in this cycle (R372, R509). -/
def microDue (b : Bool) (s : State) : Option Out :=
  if (strm s b).micro.running && (strm s b).micro.wait == 0 && capReady s then whenMoves (microSeen b) (microNext b) s else none

/-- The run of a task held with its fault goes on (R192, R377). -/
def heldMicroDue (s : State) : Option Out :=
  match s.gv.heldTasks.find? (fun c => c.micro.running && c.micro.wait == 0) with
  | some c =>
    if capReady s then
      let t := withHeld c (fun s => match microNext c.wasStrm s with | .next u => u | _ => s) s
      if t.gv.heldTasks = s.gv.heldTasks then none else some (.next t)
    else none
  | none => none

/-- A result of stream b, or of a held task that ran there, can land (R286). -/
def loadDue (b : Bool) (s : State) : Bool := (strm s b).pend.any (landReady s) || (heldPend b s).isSome

/-- A task of stream b has ended but for what its last bundle left outstanding, and that has landed (R280). -/
def endDue (b : Bool) (s : State) : Bool := (strm s b).ending && allLanded s (strm s b)

/-! ## The canopy, slices and arbitration -/

/-- A held bank at its due time (R107). A CREF that would issue in that very cycle comes too late (DESIGN CHOICE,
notes/assumptions/79.md). -/
def emergencyDue (s : State) (bank : Nat) : Bool :=
  match (bankOf s bank).holder with
  | none => false
  | some task => decide ((bankOf s bank).lastRef + REFWIN ≤ s.now) && holderHere s task && (bankOf s bank).eng.isNone

/-- A bank that the background refresher serves at its due time (R105). -/
def refreshDue (s : State) (bank : Nat) : Bool :=
  let k := bankOf s bank
  decide (k.lastRef + REFWIN ≤ s.now) && background s k && decide (k.freeAt ≤ s.now)

/-- The refreshes that are due. -/
def canopyDue (s : State) : Option Out :=
  match (List.range 32).find? (emergencyDue s) with
  | some k => some (execEmergencyRefresh k s)
  | none =>
    match (List.range 32).find? (refreshDue s) with
    | some k => some (execBackgroundRefresh k s)
    | none => none

/-- An idle stream for which the arbiter has a candidate: the streams are served after the issues of a cycle, so that two that are idle
in one cycle are served in it, stream 0 first (R46). -/
def arbDue (b : Bool) (s : State) : Bool :=
  s.turn == 3 && s.dev.boot == 7 && !hasTask (strm s b) && (choose s b).isSome

/-! ## Jobs -/

/-- A job as an event moves it. -/
def jobMoves (n : Nat) (f : State → Out) (s : State) : Option Out := whenMoves (fun t => jobOf t n) f s

/-- What job j does next: it starts or goes on, the router takes it, it completes. A collective and a peer put complete
by what comes from outside. -/
def jobDue (s : State) (j : Job) : Option Out :=
  if jobStarts s j then jobMoves j.seq (execJobStart j.seq false) s
  else if submitReady s j then jobMoves j.seq (execRouterSubmission j.seq) s
  else if j.op != 0x106 && j.op != 0x107 && jobFinishes s j then jobMoves j.seq (execJobComplete j.seq []) s
  else none

/-! ## Launches -/

/-- The step that a launch has reached. -/
def launchSt (n : Nat) (s : State) : LaunchStatus := (launchOf s n).st

/-- That step, and the buffered bytes. -/
def launchBuf (n : Nat) (s : State) : LaunchStatus × List BufByte := (launchSt n s, s.gv.wbuf)

/-- A barrier of this Grove whose node is the Grove alone, or whose other Groves of the rectangle have no part (R300). -/
def barrierDue (n : Nat) (s : State) : Option Out :=
  firstKey s (launchOf s n).bars (fun k =>
    let b := barOf (launchOf s n) k
    if b.ag = b.dg then none
    else whenMoves (fun t => (barOf (launchOf t n) k).dg) (execBarrierNodeComplete n k []) s)

/-- A launch's buffered bytes that p selects are not all marked for publication. -/
def unmarked (p : BufByte → Bool) (s : State) : Bool := s.gv.wbuf.any (fun e => p e && !e.pub)

/-- The comparison needs no partial of another Grove (R181). -/
def compareAlone (s : State) (l : Launch) : Bool := opWord l 9 == 0 || rectGroves l == [s.gv.id]

/-- The next step of a launch (R52, R55, R185): what waits for the tasks, partials or values of other Groves comes from
outside. -/
def launchDue (n : Nat) (s : State) : Option Out :=
  let l := launchOf s n
  orThen s (barrierDue n s) (fun _ =>
    match l.st with
    | .active => if awayIn s n (curPhase l) then none else whenMoves (launchSt n) (execPhaseNodeComplete n [] []) s
    | .drain =>
      if unmarked (drainStores n) s then whenMoves (launchBuf n) (execPhaseDrainDone n) s else whenMoves (launchSt n) (execPhaseDrainDone n) s
    | .exchange => whenMoves (launchSt n) (execPhaseExchangeDone n) s
    | .resolve =>
      if unmarked (lateStores n) s then whenMoves (launchBuf n) (fun s => .next (publish (lateStores n) s)) s
      else whenMoves (launchSt n) (execSettlement n) s
    | .compare => if compareAlone s l then some (execTapCompare n ⟨[], []⟩ s) else none
    | .flip => whenDue (tapSent s n) (execPhaseFlip n) s
    | .waitJobs => whenDue (mayEnd s n) (execPhaseFlip n) s
    | .faulted => whenDue (!tasksOf s n && mayEnd s n) (execPhaseFlip n) s
    | _ => none)

/-- A launch whose shape word at home resolves it now: it comes before everything else that is due, so that the launches are tested
against each value written there (R185, R186, R194). -/
def shapeDue (s : State) : Option Out := firstKey s s.dev.launches (fun n => whenDue (shapeArrived s n) (execShapeResolution n) s)

/-- A launch owes tile records and its queue has room (R21, R35). -/
def tilesDue (n : Nat) (s : State) : Bool :=
  let l := launchOf s n
  liveLaunch l && decide (l.tileNext < l.tileEnd) && !queueFull (queueOf s (opQueue l))

/-! ## Saves -/

/-- A stream that waits for its save stands otherwise than it did (R448). -/
def savingDue (b : Bool) (s : State) : Option Out :=
  let t := noteSaving b s
  if (strm t b).status = (strm s b).status then none else some (.next t)

/-- A save that may be made (R447, R448). -/
def saveDue (s : State) : Option Out :=
  if savesNow s.gv.primary s then some (execUrgentSave s.gv.primary s)
  else if savesNow (!s.gv.primary) s then some (execUrgentSave (!s.gv.primary) s)
  else if s.gv.heldTasks.any (fun c => !c.prov && saveReady s c) then some (.next (saveHeld s))
  else orThen s (savingDue false s) fun _ => savingDue true s

/-! ## The Orchard and the router -/

/-- A relocation that may start: NOSPARE is not set again. -/
def relocDue (s : State) (k : Nat) : Bool :=
  let t := stackOf s k
  (nextReloc t).isSome && (!t.nospare || !(freePool t).isEmpty)

/-- A page read that lands now. -/
def landDue (s : State) (k : Nat) : Bool :=
  (stackOf s k).reads.any (fun r => rowsWritten s r || (r.issued && r.writes.isNone && canLand s r))

/-- A relocation whose copy is made. -/
def copyDue (s : State) (k : Nat) : Bool := match running (stackOf s k) with | some r => r.stage == 1 | none => false

/-- A stack issues its next read while none is in flight. -/
def issueDue (s : State) (k : Nat) : Bool :=
  (stackOf s k).reads.all (fun r => !r.issued) && (nextRead s (stackOf s k)).isSome

/-- The next event of a stack. -/
def stackDue (s : State) (k : Nat) : Option Out :=
  if relocDue s k then some (execRelocationStart k s)
  else if landDue s k then some (execOrchardPageLand k [] false s)
  else if copyDue s k then some (execRelocationCommit k {} s)
  else if issueDue s k then some (execOrchardReadIssue k s)
  else if (erasable (stackOf s k)).isSome then some (execBlockErase k true s)
  else none

/-- Some handle that waits for room can take it (R491). -/
def roomDue (s : State) : Bool := s.dev.wh.any (fun x => roomless x.2 && (roomFor x.1 [] s).isSome)

/-! ## The front end -/

/-- The next event of a command queue. -/
def queueDue (s : State) (q : Nat) : Option Out :=
  if packetDue s q then (match (cmdq s q).ready with | some p => some (performPacket p s) | none => none)
  else if waitOver s q then (match (cmdq s q).cur with | some p => some (performPacket p s) | none => none)
  else if waitcDue s q then some (execWaitcSatisfied q s)
  else if predDue s q then some (execPredTest q s)
  else if expandDue s q then some (execOperatorExpand q s)
  else if parseDue s q then some (execPacketParse q s)
  else none

/-- The command queues, from the one that the parse workers look at first (R462). -/
def cqOrder (s : State) : List Nat :=
  let qs := s.dev.cmdqs.map (fun x => x.1)
  qs.filter (fun q => decide (s.dev.cqNext ≤ q)) ++ qs.filter (fun q => decide (q < s.dev.cqNext))

/-- A ring for which a record waits and that has room (R478). -/
def ringsDue (s : State) : Option Out :=
  match s.dev.ringWait.find? (fun w => ringDue s w.ring) with
  | some w => some (execEventRingRoom w.ring s)
  | none => none

/-! ## HBM4E -/

/-- The next event of a pseudo-channel: a transfer sent again, and what the time brings (R500, R503, R505). -/
def hbmDue (s : State) (key : Nat) : Option Out :=
  let p := rget {} s.dev.hbm key
  orThen s (whenDue (replayDue s key) (fun s => .next (replayDone (key / 128) (key % 128) s)) s) fun _ =>
  orThen s (firstKey s p.busy (fun b => whenDue (windowOver s (key / 128) (key % 128) b) (execHbmMgmtWindowEnd (key / 128) (key % 128) b) s))
    (fun _ => firstKey s p.openRow (fun b => whenDue (rowIdle s (key / 128) (key % 128) b) (execHbmRowIdleClose (key / 128) (key % 128) b) s))

/-! ## The event that is due -/

/-- The events of the Grove. -/
def groveDue (s : State) : Option Out :=
  orThen s (whenDue (bootDue s) (execPowerOn none false) s) fun _ =>
  orThen s (whenDue (cldDue s) execCldDelivery s) fun _ =>
  orThen s (whenDue (planeDue s) execPlaneReady s) fun _ =>
  orThen s (whenDue (!s.asked.isEmpty) (fun s => .next (serveAsk s)) s) fun _ =>
  orThen s (whenDue (loadDue false s) (execLoadComplete false) s) fun _ =>
  orThen s (whenDue (loadDue true s) (execLoadComplete true) s) fun _ =>
  orThen s (whenDue (shresReady s).isSome (fun s => .next (shresPerform s)) s) fun _ =>
  orThen s (microDue s.gv.primary s) fun _ =>
  orThen s (microDue (!s.gv.primary) s) fun _ =>
  orThen s (heldMicroDue s) fun _ =>
  orThen s (whenDue (endDue false s) (fun s => .next (settleIssue false s)) s) fun _ =>
  orThen s (whenDue (endDue true s) (fun s => .next (settleIssue true s)) s) fun _ =>
  orThen s (whenDue (overrunDue s.st0) (execSegmentOverrun false) s) fun _ =>
  orThen s (whenDue (overrunDue s.st1) (execSegmentOverrun true) s) fun _ =>
  orThen s (canopyDue s) fun _ =>
  whenDue (decide (s.gv.sliceStart + s.gv.slice ≤ s.now)) execSliceBoundary s

/-- The events of the device-wide units. -/
def deviceDue (s : State) : Option Out :=
  orThen s ((slotsDue s).map (fun p => .next (applySlots p s))) fun _ =>
  orThen s (s.gv.jobs.findSome? (fun j => ready s (jobDue s j))) fun _ =>
  orThen s (firstKey s s.dev.launches (fun n => launchDue n s)) fun _ =>
  orThen s (saveDue s) fun _ =>
  orThen s (ringsDue s) fun _ =>
  orThen s (firstKey s s.dev.launches (fun n => whenDue (tilesDue n s) (fun s => .next (fillLaunch n s)) s)) fun _ =>
  orThen s (firstKey s s.dev.wh (fun h => whenDue (evictionOver s (whOf s h)) (execEvictionEnd h) s)) fun _ =>
  orThen s (whenDue (roomDue s) (fun s => .next (retryRooms s)) s) fun _ =>
  orThen s (firstKey s s.dev.orstk (stackDue s)) fun _ =>
  orThen s (whenDue s.dev.recovering execCtrlRecoveryDone s) fun _ =>
  orThen s ((cqOrder s).findSome? (fun q => ready s (queueDue s q))) fun _ =>
  orThen s (firstKey s s.dev.hbm (hbmDue s)) fun _ =>
  whenDue s.dev.loading execImageLoadDone s

/-- The arbiter serves the idle streams, stream 0 first, once nothing else of this moment is due: a stream that becomes IDLE in the
same cycle is served with the other (R46). -/
def arbitrationDue (s : State) : Option Out :=
  orThen s (whenDue (arbDue false s) (execArbitrate { strm := false }) s) fun _ => whenDue (arbDue true s) (execArbitrate { strm := true }) s

/-- A stream whose CWAIT is satisfied while it waits in it (R305). -/
def cwaitDue (b : Bool) (s : State) : Bool := cwaitMet s (strm s b) && (strm s b).status == .stalled

/-- The wakes of the two streams. -/
def wakeDue (s : State) : Option Out :=
  orThen s (whenDue (idleOver s s.st0) (execIdleWake false) s) fun _ =>
  orThen s (whenDue (idleOver s s.st1) (execIdleWake true) s) fun _ =>
  orThen s (whenDue (cwaitDue false s) (execCwaitSatisfied false) s) fun _ =>
  whenDue (cwaitDue true s) (execCwaitSatisfied true) s

/-- The event that is due, the first in the model's order. -/
def dueEvent (s : State) : Option Out :=
  orThen s (shapeDue s) fun _ => orThen s (groveDue s) fun _ => orThen s (deviceDue s) fun _ => orThen s (arbitrationDue s) fun _ =>
  ready s (wakeDue s)

/-! ## Issue and the end of a cycle -/

/-- A fetch that fails (R223): CANOPY_DEBT is due before the bundle's own cases (R108). -/
def fetchFails (f : FaultInfo) (s : State) : State :=
  faultIssue 0 (if (cur s).debtTrap then ⟨.canopyDebt, 0, 0⟩ else f) s

/-- The stream cannot issue in this cycle. -/
def issueHeld (b : Bool) (s : State) : State := setStrm s b (stallStream (strm s b))

/-- Stream b fetches its next bundle and issues it (R223, R233): BUNDLE_ISSUE of the words that it fetches. It waits for their bytes,
and for an access of the device that its issue makes (R59). While an emergency refresh goes on it stalls at its next issue (R107). -/
def issueTurn (b : Bool) (s : State) : Out :=
  let t := withSel b s
  if canIssue t then
    let r := match fetchBundle t with
      | .ok (h, ops, u) => execBundleIssue b h ops u
      | .error (.fault f) => .next (fetchFails f t)
      | .error (.stall eff) => .next (stallIssue [eff] t)
    if heldBack s r then .next (issueHeld b s) else r
  else .next (if s.now < s.gv.stallTo then issueHeld b s else s)

/-- The forced issue of a secondary that has waited 63 cycles (R39). -/
def forcedTurn (s : State) : Option Out :=
  let t := withSel (!s.gv.primary) s
  if isSecondary t && decide (63 ≤ (cur t).denied) && canIssue t then
    match fetchBundle t with
    | .ok (h, ops, u) => if forcedDue u h ops then ready s (some (execSecondaryForcedIssue h ops u)) else none
    | .error _ => none
  else none

/-- The machine at another point of its cycle. -/
def atTurn (n : Nat) (o : Out) : Out :=
  match o with
  | .next t => .next { t with turn := n }
  | r => r

/-- The end of the issues of a cycle: the results of a two-cycle issue become visible (R234). -/
def shown (o : Out) : Out :=
  match o with
  | .next t => .next (showLate t)
  | r => r

/-- A stream at the end of a cycle: the segment counts it (R40); where the cap acts on it, or will in the next cycle, an overrun of
the segment faults no more (R41, R509); NOPM counts down. -/
def tickStream (cap next : Bool) (c : Stream) : Stream :=
  { c with
    used := if c.segOn && hasTask c then c.used + 1 else c.used
    capped := c.capped || (cap && c.segOn && hasTask c)
    overrun := c.overrun && !cap && !next
    micro := { c.micro with wait := c.micro.wait - 1 } }

/-- The end of a cycle: what is counted and judged in it goes by the gap and the cap before a reading of it (R512). -/
def tick (s : State) : State :=
  let s := showLate (engineTick (tickHbm (markReady s)))
  let cap := capActs s.gv
  let t := followColumn { s with
    now := s.now + 1
    turn := 0
    gv := { s.gv with capcyc := if cap then satAdd (2 ^ 30 - 1) s.gv.capcyc 1 else s.gv.capcyc
                      heldTasks := s.gv.heldTasks.map (fun c => { c with micro := { c.micro with wait := c.micro.wait - 1 } }) } }
  { t with st0 := tickStream cap (capActs t.gv) s.st0, st1 := tickStream cap (capActs t.gv) s.st1 }

/-- What the streams and the clock do next: in each cycle the primary issues, then the other stream, then the cycle ends
(R39, R236). -/
def cycleStep (s : State) : Out :=
  match s.turn with
  | 0 =>
    (match forcedTurn s with
     | some r => r
     | none => atTurn (if s.gv.primary then 1 else 2) (issueTurn s.gv.primary s))
  | 1 => atTurn 3 (shown (issueTurn false s))
  | 2 => atTurn 3 (shown (issueTurn true s))
  | _ => .next (tick s)

/-- What the machine does where nothing comes from outside: the event that is due, else the next part of the cycle. Between the
commit of a two-cycle issue and the other stream's turn in that cycle no event is due: its results are not visible yet (R234). -/
def ownStep (s : State) : Out :=
  if s.late.isSome then cycleStep s
  else
    match dueEvent s with
    | some r => r
    | none => cycleStep s

/-- An input of a machine whose bring-up has failed: only a reset acts (R533). -/
def failedInput (i : Instr) (s : State) : Out :=
  match i with
  | .deviceReset v => execDeviceReset v s
  | _ => .next s

/-- An input from outside, or an event that the agenda names. -/
def inputStep (i : Instr) (s : State) : Out := if s.dev.bootFail then failedInput i s else exec i s

/-- The next input, where it can act; one for which an access of the device is held back stays the next, and the machine goes on of
itself. -/
def agendaStep (i : Instr) (r : List Instr) (s : State) : Out :=
  let o := inputStep i { s with agenda := r }
  if heldBack s o then ownStep s else o

/-! ## An instruction placed for the next fetch -/

/-- The bytes that the placed instruction's code page begins at, and its translation tables. -/
def placedCode : Nat := 0x10000
def placedTables : List (Nat × Nat) := [(0x1000, 0x2000 + 1), (0x2000, 0x3000 + 1), (0x3000, 0x3F)]

/-- The partition entry of the placed program: one Glade, 1 GiB of HBM4E, one ASID, every domain. -/
def placedPtab : RMap Word := [(0, 1), (1, 1), (2, 1), (10, w64 (0xFFFF * 2 ^ 32))]

/-- The operator record of the placed program: its Grove alone, its entry at the code page. -/
def placedOp : List Word := [w64 (2 ^ 32 + 2 ^ 13 + 2 ^ 8), w64 (2 ^ 32 + 2 ^ 16 + 1), w64 placedCode, 0, 0, 0, 0, 0, 0, 0, 0, 0, 0, 0, 0, 0]

/-- The stream of the placed program. -/
def placedStream : Stream := { status := .running, task := 0, pc := w64 placedCode, allow := 65535, r2 := w64 (65535 * 2 ^ 32) }

/-- The lines of home that they lie in: the LLC holds them, so that no fetch waits for the array. -/
def placedLines : List Nat := (placedTables.map (fun x => x.1 / 128)) ++ [placedCode / 128]

/-- The machine with a partition that is LIVE, a launch that is ACTIVE, and a task of it in stream 0 whose next bundle is
the instruction whose bytes are given. -/
def placeBytes (s : State) (bs : List Byte) : State :=
  let t : State := { s with
    agenda := [], turn := 0, sel := false, asked := [], st0 := placedStream, st1 := {}
    gv := { s.gv with part := 0, primary := false, stallTo := 0, clds := [], jobs := [], heldTasks := [], wbuf := [],
                      banks := [], sliceStart := s.now, idle := {}, comp := {}, owner := none, issued := none, shres := [] }
    dev := { launches := [(0, { st := .active, op := placedOp, gx := 1 })], live := [0], ptab := placedPtab,
             asidtab := [(0, w64 (2 ^ 63 + 0x1000))], boot := 7 }
    ue := [], late := none
    llc := placedLines.map (fun l => (l, true)), l2 := [] }
  putBytes (placedTables.foldl (fun s x => putWord s .dev x.1 (w64 x.2)) t) .dev placedCode bs

end Sys2Proof.Machine
end

