-- ==== Sys2Proof/Machine/Step.lean ====
section
/-!
DEFINITION. One step of the machine: the first entry of the agenda (what comes from outside, and events whose time the
spec leaves open), else what the machine does of itself; and the machine with a given instruction at its next fetch.
-/

namespace Sys2Proof.Machine

/-- One step. -/
def step (s : State) : Host.Outcome State Fault Refusal :=
  match s.agenda with
  | i :: r => agendaStep i r s
  | [] => if s.dev.bootFail then .fault .bringUpFailed else ownStep s

/-- The machine whose next step fetches and runs the instruction whose bits are w (notes/assumptions/3.md). -/
def State.withFetchWord (s : State) (nbits w : Nat) : State := placeBytes s (tableBytes nbits w)

end Sys2Proof.Machine
end

