-- ==== Sys2Proof/Safety.lean ====
section
/-!
DEFINITION. What counts as a safe run, and the words in which the statements speak of a state before and after an
instruction: a run is safe while every step answers a next state, which is the only answer of a device whose bring-up
has not failed (R533).
-/

namespace Sys2Proof.Machine

/-- The outcome is a next state. -/
def Continues (o : Host.Outcome State Fault Refusal) : Prop := ∃ t, o = .next t

/-- Both memories are in their canonical form: addresses strictly rising, no byte listed that an unlisted one reads as. -/
def memWf (s : State) : Bool := Memory.wf s.mem && Memory.wf s.hmem

/-- The value that an op of the acting stream reads from a register (R62). -/
def gOf (s : State) (r : Reg) : Word := gRead (cur s) r.toNat

/-- The number that an op of the acting stream reads from a register. -/
def gNat (s : State) (r : Reg) : Nat := (gOf s r).toNat

/-- The context of an op issued alone from a state in which nothing of its issue has acted yet (R234). -/
def ctxAt (p : Pos) (s : State) : OpCtx := { pos := p, j := 0, rd := seen s }

/-- An enabled op issued alone, of a position with that bit in MASK, that meets a fault takes it; one that meets a wait waits. -/
def stopped (mask : Nat) (e : Stop State) (s : State) : Host.Outcome State Fault Refusal :=
  match e with
  | .fault f => .next (takeFault s.sel mask f s)
  | .stall eff => .next (waitOne eff s)

/-- The acting stream stands between two issues: no contribution, transfer, end, return or save of an issue stands over,
and SEQSTAT's reserved bits read zero (R91). -/
def Quiet (s : State) : Prop :=
  (cur s).iflags = 0 ∧ (cur s).imxc = {} ∧ (cur s).iseq = 0 ∧ (cur s).inan = 0 ∧ (cur s).npc = none ∧
  (cur s).ending = false ∧ (cur s).eretTo = none ∧ (cur s).saveWant = none ∧
  (cur s).seqstat &&& 0xFFFF000000000007 = (cur s).seqstat

/-- Every control register of both streams reads as before. -/
def SameCtl (s t : State) : Prop := ∀ b n, ctlRead t b n = ctlRead s b n

/-- Every byte of both memories reads as before. -/
def SameMem (s t : State) : Prop := ∀ sp a, homeByte t sp a = homeByte s sp a

/-- Every G register of the acting stream reads as before. -/
def SameG (s t : State) : Prop := ∀ n, gRead (cur t) n = gRead (cur s) n

/-- The other stream, the Grove's storage, the device-wide units and the clock are as before. -/
def SameRest (s t : State) : Prop :=
  t.sel = s.sel ∧ strm t (!s.sel) = strm s (!s.sel) ∧ t.gv = s.gv ∧ t.dev = s.dev ∧ t.now = s.now ∧ t.ue = s.ue

/-- From s to t the acting stream's G[d] became v, nothing where d is G0, and nothing else of the machine changed but
that a waiting stream runs again: no other register, flag, control register, byte, or unit, and not the pc. -/
def OnlyReg (s t : State) (d : Reg) (v : Word) : Prop :=
  (∀ n, gRead (cur t) n = if n = d.toNat ∧ n ≠ 0 then v else gRead (cur s) n) ∧
  SameCtl s t ∧ SameMem s t ∧ SameRest s t ∧ (cur t).pc = (cur s).pc

/-- The acting stream goes to the bundle at an address when its issue commits; nothing else changed. -/
def OnlyPc (s t : State) (pc : Word) : Prop :=
  (cur t).pc = pc ∧ SameG s t ∧ SameCtl s t ∧ SameMem s t ∧ SameRest s t

/-- From s to t nothing changed but that a waiting stream runs again. -/
def OnlyRuns (s t : State) : Prop := SameG s t ∧ SameCtl s t ∧ SameMem s t ∧ SameRest s t ∧ (cur t).pc = (cur s).pc

/-- From s to t control register n of the acting stream became v; no other of either stream changed, and no G register,
no byte, no unit. -/
def OnlyCtl (s t : State) (n : Nat) (v : Word) : Prop :=
  ctlRead t t.sel n = some v ∧ (∀ b m, b ≠ s.sel ∨ m ≠ n → ctlRead t b m = ctlRead s b m) ∧
  SameG s t ∧ SameMem s t ∧ SameRest s t

/-- What R280 says of the end of the acting stream's task: the stream is IDLE with nothing on its way, and its G registers,
control registers, port walks and accumulator names stand; the task holds no bank, no TASK handle and not the array; jobs,
buffered stores, tap partials, memory and the other stream stand. -/
def EndsTask (s t : State) : Prop :=
  (strm t s.sel).status = .idle ∧ (strm t s.sel).pend = [] ∧ (∀ n, gRead (strm t s.sel) n = gRead (cur s) n) ∧
  (∀ n, n ≤ 4 ∨ 0x10 ≤ n ∧ n ≤ 0xFF → ctlRead t s.sel n = ctlRead s s.sel n) ∧
  (strm t s.sel).walk = (cur s).walk ∧ (strm t s.sel).amap = (cur s).amap ∧ strm t (!s.sel) = strm s (!s.sel) ∧
  (∀ k, (rget {} t.gv.banks k).holder ≠ some (cur s).task) ∧ t.gv.owner ≠ some (cur s).task ∧
  (∀ x ∈ t.gv.handles, isTaskHandle (cur s).task x.2 = false) ∧
  t.gv.jobs = s.gv.jobs ∧ t.gv.wbuf = s.gv.wbuf ∧ t.gv.tapbuf = s.gv.tapbuf ∧ SameMem s t ∧ t.now = s.now

/-! ## The scalar ops as the spec's tables give them -/

/-- The sign-extended 28-bit immediate that takes the place of G[B] (R254). -/
def bImm (i : BitVec 28) : Word := i.signExtend 64

/-- The compare of R261 for a condition code. -/
def condSpec (code : BitVec 6) (a b : Word) : Bool :=
  if code = 0 then decide (a = b) else if code = 1 then decide (a ≠ b)
  else if code = 2 then a.slt b else if code = 3 then !a.slt b
  else if code = 4 then a.sle b else if code = 5 then !a.sle b
  else if code = 6 then a.ult b else if code = 7 then !a.ult b
  else if code = 8 then a.ule b else if code = 9 then !a.ule b
  else if code = 10 then decide (a &&& b ≠ 0) else decide (a &&& b = 0)

/-- a with bit n replaced by v. -/
def bitPut (a : Word) (n : Nat) (v : Bool) : Word := (a &&& ~~~((1 : Word) <<< n)) ||| ((if v then (1 : Word) else 0) <<< n)

/-- EXTR of R264: a field of w bits from lo, of which those above bit 63 are not there. -/
def extrSpec (a : Word) (lo w : Nat) : Word := (a >>> lo) &&& ((BitVec.allOnes 64) >>> (64 - w))

/-- The bits that DEPO writes (R264). -/
def depoMask (lo w : Nat) : Word := ((BitVec.allOnes 64) >>> (64 - w)) <<< lo

/-- DEPO of R264. -/
def depoSpec (d a : Word) (lo w : Nat) : Word := (d &&& ~~~depoMask lo w) ||| ((a <<< lo) &&& depoMask lo w)

/-- ACHK's code for an access of n bytes (R267): the first that applies. -/
def achkSpec (a : Word) (n : Nat) : Word :=
  if n = 0 then 0
  else if 7 ≤ (a >>> 60).toNat then 1
  else if (a >>> 57) &&& 7 ≠ 0 ∧ a >>> 60 ≠ 3 then 2
  else if a >>> 60 = 4 then 3
  else if 2 ^ 57 < (a.toNat % 2 ^ 57) + n then 4
  else if a >>> 60 = 3 ∧ 2048 < a.toNat % 2048 + n then 5
  else 0

/-- The scalar ops that never fault (R257 to R264, R267, R268): an op's guard, its destination register, and the value
it writes there, where g reads the registers as they stood before the issue. -/
def aluSpec (g : Reg → Word) : Instr → Option (Guard × Reg × Word)
  | .add q d a b => some (q, d, g a + g b)
  | .sub q d a b => some (q, d, g a - g b)
  | .mul q d a b => some (q, d, g a * g b)
  | .mulh q d a b => some (q, d, (((g a).signExtend 128 * (g b).signExtend 128) >>> 64).setWidth 64)
  | .mulhn q d a b => some (q, d, (((g a).setWidth 128 * (g b).setWidth 128) >>> 64).setWidth 64)
  | .div q d a b => some (q, d, if g b = 0 then -1 else (g a).sdiv (g b))
  | .divn q d a b => some (q, d, if g b = 0 then -1 else (g a).udiv (g b))
  | .rem q d a b => some (q, d, if g b = 0 then g a else (g a).srem (g b))
  | .remn q d a b => some (q, d, if g b = 0 then g a else (g a).umod (g b))
  | .and q d a b => some (q, d, g a &&& g b)
  | .andn q d a b => some (q, d, g a &&& ~~~(g b))
  | .or q d a b => some (q, d, g a ||| g b)
  | .xor q d a b => some (q, d, g a ^^^ g b)
  | .nor q d a b => some (q, d, ~~~(g a ||| g b))
  | .shl q d a b => some (q, d, g a <<< ((g b).toNat % 64))
  | .shr q d a b => some (q, d, g a >>> ((g b).toNat % 64))
  | .sra q d a b => some (q, d, (g a).sshiftRight ((g b).toNat % 64))
  | .rot q d a b => some (q, d, (g a).rotateLeft ((g b).toNat % 64))
  | .brev q d a => some (q, d, (g a).reverse)
  | .clz q d a => some (q, d, (g a).clz)
  | .ctz q d a => some (q, d, (g a).reverse.clz)
  | .popc q d a => some (q, d, BitVec.ofNat 64 ((List.range 64).countP (fun k => (g a).getLsbD k)))
  | .min q d a b => some (q, d, if (g b).slt (g a) then g b else g a)
  | .max q d a b => some (q, d, if (g a).slt (g b) then g b else g a)
  | .minn q d a b => some (q, d, if (g b).ult (g a) then g b else g a)
  | .maxn q d a b => some (q, d, if (g a).ult (g b) then g b else g a)
  | .sel q d a b f1 f2 => some (q, d, if (g f2).getLsbD f1.toNat then g a else g b)
  | .cmp q d a b k c => some (q, d, bitPut (g d) k.toNat (condSpec c (g a) (g b)))
  | .bset q d a b => some (q, d, bitPut (g a) ((g b).toNat % 64) true)
  | .bclr q d a b => some (q, d, bitPut (g a) ((g b).toNat % 64) false)
  | .bins q d a b f1 f2 => some (q, d, bitPut (g a) f1.toNat ((g b).getLsbD f2.toNat))
  | .extr q d a b w => some (q, d, extrSpec (g a) ((g b).toNat % 64) (w.toNat + 1))
  | .depo q d a b w => some (q, d, depoSpec (g d) (g a) ((g b).toNat % 64) (w.toNat + 1))
  | .achk q d a b => some (q, d, achkSpec (g a) (g b).toNat)
  | .addImm q d a i => some (q, d, g a + bImm i)
  | .subImm q d a i => some (q, d, g a - bImm i)
  | .mulImm q d a i => some (q, d, g a * bImm i)
  | .andImm q d a i => some (q, d, g a &&& bImm i)
  | .andnImm q d a i => some (q, d, g a &&& ~~~(bImm i))
  | .orImm q d a i => some (q, d, g a ||| bImm i)
  | .xorImm q d a i => some (q, d, g a ^^^ bImm i)
  | .shlImm q d a n => some (q, d, g a <<< n.toNat)
  | .shrImm q d a n => some (q, d, g a >>> n.toNat)
  | .sraImm q d a n => some (q, d, (g a).sshiftRight n.toNat)
  | .rotImm q d a n => some (q, d, (g a).rotateLeft n.toNat)
  | .minImm q d a i => some (q, d, if (bImm i).slt (g a) then bImm i else g a)
  | .maxImm q d a i => some (q, d, if (g a).slt (bImm i) then bImm i else g a)
  | .minnImm q d a i => some (q, d, if (bImm i).ult (g a) then bImm i else g a)
  | .maxnImm q d a i => some (q, d, if (g a).ult (bImm i) then bImm i else g a)
  | .cmpImm q d a i k c => some (q, d, bitPut (g d) k.toNat (condSpec c (g a) (i.signExtend 64)))
  | .bsetImm q d a n => some (q, d, bitPut (g a) n.toNat true)
  | .bclrImm q d a n => some (q, d, bitPut (g a) n.toNat false)
  | .extrImm q d a lo w => some (q, d, extrSpec (g a) lo.toNat (w.toNat + 1))
  | .depoImm q d a lo w => some (q, d, depoSpec (g d) (g a) lo.toNat (w.toNat + 1))
  | .achkImm q d a i => some (q, d, achkSpec (g a) i.toNat)
  | .movi q d i => some (q, d, i.signExtend 64)
  | .movhi q d i => some (q, d, (i.setWidth 64 <<< 34) ||| (g d &&& 0x3FFFFFFFF))
  | _ => none

/-! ## The control registers as the spec's map gives them (R84, R422, R451, R510, R511) -/

/-- The numbers to which the map gives a register. -/
def ctlExists (n : Nat) : Prop :=
  n ≤ 6 ∨ 0x10 ≤ n ∧ n ≤ 0x18 ∨ 0x20 ≤ n ∧ n ≤ 0x67 ∨ 0x80 ≤ n ∧ n ≤ 0xFF ∨
  n = 0x800 ∨ n = 0x801 ∨ n = 0x802 ∨ n = 0x810 ∨ n = 0x811 ∨ n = 0x820

/-- The registers that no level writes: FSTAT, GROVEID, PCTX, THERM. -/
def ctlReadOnly (n : Nat) : Prop := n = 2 ∨ n = 6 ∨ n = 0x800 ∨ n = 0x811

/-- The registers that a kernel does not write: ARB, SYSCTL, HINTDROP, CANOPY, CTXAREA. -/
def ctlSupervisor (n : Nat) : Prop := n = 5 ∨ n = 0x801 ∨ n = 0x802 ∨ n = 0x810 ∨ n = 0x820

/-- The bits of word k of a parameter set that are not reserved (R77). -/
def psKept (k : Nat) : Word :=
  match k with
  | 0 => 0xFFFFFFFFFFFFFFFF
  | 1 => 0xFFFFF000FFFFFFFF
  | 6 => 0x000000FFFFFFFFFF
  | 7 => 0x0000FFFFFFFF0000
  | _ => 0x00FFFFFFFFFFFFFF

/-- What a register that stores a written value reads as after the write; reserved bits read zero (R7). -/
def ctlStored (n : Nat) (v : Word) : Option Word :=
  if n = 0 then some (v &&& 0x3F)
  else if n = 1 then some v
  else if n = 3 then some (v &&& 0x8F8F8F8F8F8F8F8F)
  else if n = 4 then some (v &&& 0xFFFF000000000007)
  else if 0x10 ≤ n ∧ n ≤ 0x17 then some (v &&& 0xFFFFFFFF)
  else if n = 0x18 then some v
  else if 0x20 ≤ n ∧ n ≤ 0x2F then some (v &&& 0xFFFFE0)
  else if 0x30 ≤ n ∧ n ≤ 0x5F then some (v &&& 0xFFFE1F)
  else if 0x60 ≤ n ∧ n ≤ 0x67 then some v
  else if 0x80 ≤ n ∧ n ≤ 0xFF then some (v &&& psKept (n % 8))
  else if n = 0x801 then some (v &&& 3)
  else if n = 0x820 then some (v &&& 0xFFFFFFFFFFF00FFF)
  else none

/-! ## Operands and the places that stores reach -/

/-- A row, column or diagonal index lies in the file and its tile in the task's window (R37, R65). -/
def RowOk (s : State) (idx : Nat) : Prop := idx ≤ 1535 ∧ tileIn (cur s) (idx / 32) = true

/-- An n-byte value extended to a register: with its sign or with zeros. -/
def extended (n : Nat) (signed : Bool) (v : Nat) : Word :=
  if signed then BitVec.ofInt 64 (sextI v (8 * n)) else BitVec.ofNat 64 v

/-- The homes of the segments of a store, each translated in the state that the segments before it leave. -/
def homesOf : List (Nat × Nat) → List Byte → State → List (Space × Nat × Nat)
  | [], _, _ => []
  | (a, n) :: r, bs, s =>
    match xlateOp .st a s, storeSeg a (bs.take n) s with
    | .ok (h, _), .ok u => (h.1, h.2.1, n) :: homesOf r (bs.drop n) u
    | _, _ => []

/-- The homes of the lanes of a masked or scattered store, whose addresses addr gives lane by lane. -/
def laneHomes (addr : Nat → Except (Stop State) Nat) : List (Nat × Lane) → State → List (Space × Nat × Nat)
  | [], _ => []
  | (k, v) :: r, s =>
    match addr k with
    | .error _ => []
    | .ok a =>
      homesOf (segsOf a 4) (natLe 4 v.toNat) s ++
        (match storeBytes a (natLe 4 v.toNat) s with | .ok u => laneHomes addr r u | .error _ => [])

/-- A byte lies outside every one of the places. -/
def Outside (hs : List (Space × Nat × Nat)) (sp : Space) (x : Nat) : Prop :=
  ∀ h ∈ hs, h.1 ≠ sp ∨ x < h.2.1 ∨ h.2.1 + h.2.2 ≤ x

/-! ## Results that land after the commit (R117, R190, R286) -/

/-- n more memory requests of the acting stream keep the limits of 1,280 a stream and 1,536 a Grove (R117). -/
def RequestsFit (s : State) (n : Nat) : Prop :=
  n = 0 ∨ outstanding s (cur s) + n ≤ 1280 ∧ groveOut s + n ≤ 1536

/-- The result p of an op that took the state from s to u is on its way to the acting stream, and waits for the requests
that the op made. -/
def onItsWay (s u : State) (p : Pending) : State :=
  modCur u (fun c => { c with pend := c.pend ++ [{ p with asks := asksSince s u }] })

/-- A result for G[d], nothing where d is G0. -/
def forReg (d : Reg) (v : Word) (ue : Bool) (a : Nat) (fl : Word) : Pending :=
  { gdst := if d = 0 then [] else [(d.toNat, v)], ue := ue, addr := BitVec.ofNat 64 a, accs := [a], flags := fl }

/-- An op completes with a result on its way: it commits where its requests keep the limits, and waits where they do not. -/
def CompletesLater (o : Host.Outcome State Fault Refusal) (s u : State) (p : Pending) : Prop :=
  (RequestsFit u (u.reqs - s.reqs) → o = .next (commitOne (onItsWay s u p))) ∧
  (¬ RequestsFit u (u.reqs - s.reqs) → o = .next (waitOne id s))

/-- A load completes so, and from a state between two issues its commit changes no G register, no control register, no byte of memory and
not the pc. -/
def CommitsLoad (o : Host.Outcome State Fault Refusal) (s u : State) (p : Pending) : Prop :=
  CompletesLater o s u p ∧ (Quiet s →
    let t := commitOne (onItsWay s u p)
    SameG s t ∧ SameCtl s t ∧ SameMem s t ∧ (cur t).pc = (cur s).pc)

/-- A vector store commits, and from a state between two issues its commit leaves every byte of memory outside the places, every G
register, every control register and the pc. -/
def CommitsStore (o : Host.Outcome State Fault Refusal) (s u : State) (hs : List (Space × Nat × Nat)) : Prop :=
  o = .next (commitOne u) ∧ (Quiet s →
    (∀ sp x, Outside hs sp x → homeByte (commitOne u) sp x = homeByte s sp x) ∧
    SameG s (commitOne u) ∧ SameCtl s (commitOne u) ∧ (cur (commitOne u)).pc = (cur s).pc)

/-- A provisional task may make the access: a load off path 6, a store off paths 2, 5 and 6 (R190). -/
def MayAccess (s : State) (store : Bool) (a : Nat) : Prop :=
  (cur s).prov = false ∨ pathOf a ≠ 6 ∧ (store = true → pathOf a ≠ 2 ∧ pathOf a ≠ 5)

/-! ## Loads, stores and atomics as the spec's tables give them (R289, R293) -/

/-- The scalar loads: guard, bytes, signed, destination, base, offset. -/
def loadSpec : Instr → Option (Guard × Nat × Bool × Reg × Reg × BitVec 14)
  | .ldB q d a off => some (q, 1, true, d, a, off)
  | .ldH q d a off => some (q, 2, true, d, a, off)
  | .ldW q d a off => some (q, 4, true, d, a, off)
  | .ldD q d a off => some (q, 8, true, d, a, off)
  | .ldNB q d a off => some (q, 1, false, d, a, off)
  | .ldNH q d a off => some (q, 2, false, d, a, off)
  | .ldNW q d a off => some (q, 4, false, d, a, off)
  | _ => none

/-- The scalar stores: guard, bytes, source, base, offset. -/
def storeSpec : Instr → Option (Guard × Nat × Reg × Reg × BitVec 14)
  | .stB q d a off => some (q, 1, d, a, off)
  | .stH q d a off => some (q, 2, d, a, off)
  | .stW q d a off => some (q, 4, d, a, off)
  | .stD q d a off => some (q, 8, d, a, off)
  | _ => none

/-- A number of n bytes as a signed number. -/
def signedOf (n v : Nat) : Int := (BitVec.ofNat (8 * n) v).toInt

/-- An atomic: guard, bytes, whether the host has it, whether the old value is zero-extended, registers, offset, and the
value it writes from the old value, G[D] and G[B]. -/
abbrev AmoRow := Guard × Nat × Bool × Bool × Reg × Reg × Reg × BitVec 14 × (Nat → Nat → Nat → Option Nat)

/-- The atomics (R293, R295, R296). -/
def amoSpec : Instr → Option AmoRow
  | .amoAdd q d a b off => some (q, 8, true, false, d, a, b, off, fun o _ y => some ((o + y) % 2 ^ 64))
  | .amoMin q d a b off => some (q, 8, false, false, d, a, b, off, fun o _ y => some (if signedOf 8 y < signedOf 8 o then y else o))
  | .amoMax q d a b off => some (q, 8, false, false, d, a, b, off, fun o _ y => some (if signedOf 8 o < signedOf 8 y then y else o))
  | .amoMinn q d a b off => some (q, 8, false, true, d, a, b, off, fun o _ y => some (if y < o then y else o))
  | .amoMaxn q d a b off => some (q, 8, false, true, d, a, b, off, fun o _ y => some (if o < y then y else o))
  | .amoAnd q d a b off => some (q, 8, false, false, d, a, b, off, fun o _ y => some (o &&& y))
  | .amoOr q d a b off => some (q, 8, false, false, d, a, b, off, fun o _ y => some (o ||| y))
  | .amoXor q d a b off => some (q, 8, false, false, d, a, b, off, fun o _ y => some (o ^^^ y))
  | .amoSwap q d a b off => some (q, 8, true, false, d, a, b, off, fun _ _ y => some y)
  | .amocas q d a b off => some (q, 8, true, false, d, a, b, off, fun o x y => if o = x then some y else none)
  | .amoAddW q d a b off => some (q, 4, true, false, d, a, b, off, fun o _ y => some ((o + y) % 2 ^ 32))
  | .amoMinW q d a b off => some (q, 4, false, false, d, a, b, off, fun o _ y => some (if signedOf 4 y < signedOf 4 o then y else o))
  | .amoMaxW q d a b off => some (q, 4, false, false, d, a, b, off, fun o _ y => some (if signedOf 4 o < signedOf 4 y then y else o))
  | .amoMinnW q d a b off => some (q, 4, false, true, d, a, b, off, fun o _ y => some (if y < o then y else o))
  | .amoMaxnW q d a b off => some (q, 4, false, true, d, a, b, off, fun o _ y => some (if o < y then y else o))
  | .amoAndW q d a b off => some (q, 4, false, false, d, a, b, off, fun o _ y => some (o &&& y))
  | .amoOrW q d a b off => some (q, 4, false, false, d, a, b, off, fun o _ y => some (o ||| y))
  | .amoXorW q d a b off => some (q, 4, false, false, d, a, b, off, fun o _ y => some (o ^^^ y))
  | .amoSwapW q d a b off => some (q, 4, true, false, d, a, b, off, fun _ _ y => some y)
  | .amocasW q d a b off => some (q, 4, true, false, d, a, b, off, fun o x y => if o = x then some y else none)
  | .amofadd q d a b off => some (q, 4, false, true, d, a, b, off, fun o _ y => some (fAdd fFP32 o y).1)
  | _ => none

/-! ## Launches and barriers -/

/-- From s to t only launch slot n changed. -/
def OnlyLaunch (s t : State) (n : Nat) : Prop :=
  (∀ k, k ≠ n → launchOf t k = launchOf s k) ∧ t.st0 = s.st0 ∧ t.st1 = s.st1 ∧ t.gv = s.gv ∧ t.mem = s.mem ∧ t.hmem = s.hmem ∧
  t.now = s.now ∧ t.dev.queues = s.dev.queues

/-- The Groves of a node in row order. -/
def nodeGroves (n : Node) : List Nat :=
  (List.range (2 ^ n.b)).flatMap (fun j => (List.range (2 ^ n.a)).map (fun i => n.x + i + 16 * (n.y + j)))

/-! ## Handles, banks, weight handles -/

/-- From s to t only tile handle n changed. -/
def OnlyHandles (s t : State) (n : Nat) : Prop :=
  (∀ k, k ≠ n → handleOf t k = handleOf s k) ∧ t.st0 = s.st0 ∧ t.st1 = s.st1 ∧ t.dev = s.dev ∧ t.mem = s.mem ∧ t.hmem = s.hmem ∧
  t.gv.spad = s.gv.spad ∧ t.gv.canopy = s.gv.canopy ∧ t.gv.mrf = s.gv.mrf

/-- From s to t only canopy bank n changed. -/
def OnlyBank (s t : State) (n : Nat) : Prop :=
  (∀ k, k ≠ n → bankOf t k = bankOf s k) ∧ t.st0 = s.st0 ∧ t.st1 = s.st1 ∧ t.dev = s.dev ∧ t.mem = s.mem ∧ t.hmem = s.hmem ∧
  t.gv.canopy = s.gv.canopy ∧ t.gv.mrf = s.gv.mrf ∧ t.gv.clds = s.gv.clds

/-- From s to t only weight handle n changed. -/
def OnlyHandle (s t : State) (n : Nat) : Prop :=
  (∀ k, k ≠ n → whOf t k = whOf s k) ∧ t.st0 = s.st0 ∧ t.st1 = s.st1 ∧ t.gv = s.gv ∧ t.mem = s.mem ∧ t.hmem = s.hmem

/-- d cycles have passed since an optional earlier one. -/
def past (o : Option Nat) (d now : Nat) : Prop := ∀ t, o = some t → t + d ≤ now

/-- The spacings of R101 before CACT and CREF, before CPRE, and before CLD and CST. -/
def pastAct (k : Bank) (now : Nat) : Prop := past k.tPre 16 now ∧ past k.tRef 240 now
def pastPre (k : Bank) (now : Nat) : Prop := past k.tAct 32 now ∧ past k.tCld 1 now ∧ past k.tCst 16 now ∧ past k.tPlane 64 now
def pastUse (k : Bank) (now : Nat) : Prop := past k.tAct 16 now

/-! ## Exact values and the roundings of the formats (R155 to R165, R171) -/

/-- The rational number of a finite value; 0 for the others. -/
def ratOf : XV → ℚ
  | .fin s m e => (if s then -1 else 1) * (m : ℚ) * (2 : ℚ) ^ e
  | _ => 0

/-- The formats that data may have: the built-in ones and those of a valid format register (R71, R152). -/
def ValidFmt (f : Fmt) : Prop :=
  f = fFP32 ∨ f = fBF16 ∨ f = fFP16 ∨ f = fE8M31 ∨ ∃ w, fmtInvalid w = false ∧ f = fmtOfReg w

/-- Code c of format f is finite, of sign s and magnitude v. -/
def Holds (f : Fmt) (c : Nat) (s : Bool) (v : ℚ) : Prop :=
  c < 2 ^ f.width ∧ ∃ m e, decF f c = .fin s m e ∧ (m : ℚ) * (2 : ℚ) ^ e = v

/-- The largest finite magnitude of a sign (R156). -/
def IsLargest (f : Fmt) (s : Bool) (v : ℚ) : Prop := (∃ c, Holds f c s v) ∧ ∀ c u, Holds f c s u → u ≤ v

/-- The step between neighbouring values of f at x, its exponent not bounded above. -/
def IsStep (f : Fmt) (x q : ℚ) : Prop :=
  if f.E = 0 then q = (2 : ℚ) ^ (-f.B)
  else ∃ p : Int, (2 : ℚ) ^ p ≤ |x| ∧ |x| < (2 : ℚ) ^ (p + 1) ∧ q = (2 : ℚ) ^ (max p (1 - f.B) - f.M)

/-- The smallest normal magnitude of a format; its quantum where it is a scaled integer (R171). -/
def smallestNormal (f : Fmt) : ℚ := (2 : ℚ) ^ (if f.E = 0 then -f.B else 1 - f.B)

/-- |x| is n steps rounded toward zero. -/
def Toward0 (x q : ℚ) (n : Nat) : Prop := n * q ≤ |x| ∧ |x| < (n + 1) * q

/-- |x| is n steps rounded to nearest, ties to even where the format has mantissa bits. -/
def Nearest (f : Fmt) (x q : ℚ) (n : Nat) : Prop :=
  abs (n * q - |x|) ≤ q / 2 ∧ (abs (n * q - |x|) = q / 2 → f.E = 0 ∨ 1 ≤ f.M → n % 2 = 0)

/-- The flags of a result that is inexact or not, whose exact value is x (R171). -/
def roundFlags (f : Fmt) (x : ℚ) (inexact : Bool) : Nat :=
  if inexact = true then (if x ≠ 0 ∧ |x| < smallestNormal f then fNX ||| fUF else fNX) else 0

/-- One product aligned into the window of R159 above 2^(P − 88): in that unit, the lowest bit set where a bit below it was lost. -/
def alignedSpec (P : Int) (v : ℚ) : ℚ :=
  let u : ℚ := (2 : ℚ) ^ (P - 88)
  let k := ⌊|v| / u⌋₊
  (if v < 0 then -1 else 1) * ((if (k : ℚ) * u = |v| then k else k ||| 1 : Nat) : ℚ) * u

/-- The product of a pair of operands. -/
def prodOf (p : XV × XV) : ℚ := ratOf p.1 * ratOf p.2

/-- A product that is −0. -/
abbrev negZero (p : XV × XV) : Prop := prodOf p = 0 ∧ p.1.sign ≠ p.2.sign

/-! ## The array and the microprogram -/

/-- No microprogram of the stream runs and none has left a fault to be delivered (R372, R375). -/
def GateOpen (s : State) : Prop := (cur s).micro.fpend = false ∧ (cur s).micro.running = false

/-- The array is unowned or the acting task's (R352). -/
def MayOwn (s : State) : Prop := s.gv.owner = none ∨ s.gv.owner = some (cur s).task

/-- The array taken for the acting task. -/
def claimed (s : State) : State := modGv s (fun g => { g with owner := some (cur s).task })

/-- The accumulator name has a tile, or one is free (R73). -/
def HasTile (s : State) (acc : Nat) : Prop := accTile (cur s) acc ≠ none ∨ freeTiles s ≠ []

/-- The accumulator name without its tile. -/
def unmapped (s : State) (acc : Nat) : State := modCur s (fun c => { c with amap := rset 0 c.amap acc 0 })

/-- From s to t the idle plane began to load bytes of a type; the array is the task's; no MRF lane, accumulator or byte of
memory changed, and the computing plane stands (R356). -/
def LoadsPlane (s t : State) (typ : Nat) (bs : List Byte) : Prop :=
  t.gv.owner = some (cur s).task ∧ t.gv.idle.st = 1 ∧ t.gv.idle.typ = typ ∧ t.gv.idle.readyAt = s.now + 64 ∧
  t.gv.idle.fmt = (if typ < 16 then fmtReg (cur s) typ else 0) ∧ (∀ k, k < bs.length → rget 0 t.gv.idle.image k = bs.getD k 0) ∧
  t.gv.comp = s.gv.comp ∧ t.gv.mrf = s.gv.mrf ∧ t.gv.acc = s.gv.acc ∧ SameMem s t ∧ SameG s t

/-- From s to t an accumulator took block steps; the array is the task's; no MRF lane, no byte of memory, no G register
and no tile but the accumulator's changed. -/
def Accumulates (s t : State) (acc : Nat) : Prop :=
  t.gv.owner = some (cur s).task ∧ t.gv.mrf = s.gv.mrf ∧ SameMem s t ∧ SameG s t ∧
  ∃ tile, accTile (cur t) acc = some tile ∧ (∀ k, accTile (cur s) acc = some k → tile = k) ∧
    ∀ k, k / 2048 ≠ tile → rget 0 t.gv.acc k = rget 0 s.gv.acc k

/-- Element (i, n) of the tile that an accumulator name has, and +0 where it has none: its new tile is one of +0 (R73). -/
def accOr0 (s : State) (acc i n : Nat) : Acc := match accTile (cur s) acc with | some k => accAt s k i n | none => 0

/-- Element (i, n) of the name's tile is f i n in state t, whose tile is the one of state s where it has one. -/
def AccIs (s t : State) (acc : Nat) (f : Nat → Nat → Acc) : Prop :=
  ∃ tile, accTile (cur t) acc = some tile ∧ (∀ k, accTile (cur s) acc = some k → tile = k) ∧
    ∀ i n, i < 32 → n < 64 → accAt t tile i n = f i n

/-- One block step of R160 on an element: the activations of a type in lanes ls that the first numbers name, times the weights of
column n of plane p in the rows that the second name. -/
def steppedElem (p : Plane) (ty : NTy) (ls : List Lane) (old : Acc) (ks : List (Nat × Nat)) (n : Nat) : Acc :=
  BitVec.ofNat 40 (blockStep (is16 p.typ) (payWidth ty, payWidth (planeTy p)) old.toNat
    (ks.map (fun k => (decT ty ((unpack ty.store ls).getD k.1 0 % 2 ^ ty.width), weightAt p k.2 n)))).1

/-- Element (i, n) after one issue of MSTRM of row number u with the mask pair m, none where every position is active (R359, R360):
activations of 1 to 4 bits make rows 2(u mod 16) and the next, others row u; an active element takes one block step over the depths
from KBEG below KEND and K, every other element stands. -/
def streamedElem (p : Plane) (m : Masks) (ty : NTy) (ls : List Lane) (u : Nat) (old : Nat → Nat → Acc) (i n : Nat) : Acc :=
  let first := if ty.store = 4 then 2 * (u % 16) else u
  let a := (m.getD (BitVec.allOnes 64, BitVec.allOnes 64)).1
  let b := (m.getD (BitVec.allOnes 64, 0xFFFFFFFF00FF0000)).2
  if first ≤ i ∧ i < first + (if ty.store = 4 then 2 else 1) ∧ b.getLsbD (32 + i) = true ∧ a.getLsbD n = true then
    steppedElem p ty ls (old i n) (((List.range (planeK p)).filter
      (fun k => decide (b.toNat % 256 ≤ k) && decide (k < b.toNat / 2 ^ 16 % 256))).map (fun k => (128 * (i - first) + k, k))) n
  else old i n

/-- Element (i, n) after one issue of MBATCH of row u with the length pair m (R363): cell n / 16 gives rows below MLEN, the KLEN first
depths of its segment and NLEN columns, all of them where there is no pair; every other element stands. -/
def batchedElem (p : Plane) (m : Masks) (ty : NTy) (ls : List Lane) (u : Nat) (old : Nat → Nat → Acc) (i n : Nat) : Acc :=
  let kc := if is16 p.typ then 16 else 32
  let c := n / 16
  let len : Nat × Nat × Nat := match m with
    | none => (32, kc, 16)
    | some (a, b) => (a.toNat / 2 ^ (16 * c) % 64, a.toNat / 2 ^ (16 * c + 8) % 64, b.toNat / 2 ^ (8 * c) % 32)
  if i = u ∧ u < len.1 ∧ n % 16 < len.2.2 then
    steppedElem p ty ls (old i n) ((List.range len.2.1).map (fun k => (kc * c + k, kc * c + k))) n
  else old i n

/-- The planes after an issue of MSTRM or MBATCH: exchanged where it swaps, the old computing plane being READY where it was loaded;
else as they were (R358). -/
def PlanesAfter (sw : Bool) (s t : State) : Prop :=
  if sw then t.gv.comp = { s.gv.idle with st := 2 } ∧ t.gv.idle = { s.gv.comp with st := if s.gv.comp.st = 0 then 0 else 2 }
  else t.gv.comp = s.gv.comp ∧ t.gv.idle = s.gv.idle

/-- What an issue of MSTRM needs beside a READY plane where it swaps: the position, the array, legal masks, a loaded plane p,
activations ls of type ty that the array takes with the plane's type, and a tile (R358 to R361). -/
def StreamMayGo (s v : State) (acc : BitVec 3) (src : Mrf) (r : Reg) (p : Plane) (ty : NTy) (ls : List Lane) : Prop :=
  let m := maskPair (ctxAt .m s) r
  let code2 := match m with | some (_, b) => bits b.toNat 28 24 | none => 0
  GateOpen s ∧ MayOwn s ∧ maskOk m = true ∧ p.st ≠ 0 ∧ HasTile s acc.toNat ∧
  (isPort src = true → portBound (cur s) src = true ∧ (m.isSome = true → arrayCheck (cur s) code2 = .ok ())) ∧
  (∃ code, actType (ctxAt .m s) src (mrfIdx src) (if m.isSome then (tyOfCode (fmtReg (cur s)) code2, code2) else (planeTy p, p.typ)) =
    .ok (ty, code) ∧ is16 code = is16 p.typ) ∧
  actVector (ctxAt .m s) src (mrfIdx src) (claimed s) = .ok (ls, v)

/-- The same of an issue of MBATCH (R363, R364). -/
def BatchMayGo (s v : State) (acc : BitVec 3) (src : Mrf) (r : Reg) (p : Plane) (ty : NTy) (ls : List Lane) : Prop :=
  let m := maskPair (ctxAt .m s) r
  GateOpen s ∧ MayOwn s ∧ lensOk m (if is16 p.typ then 16 else 32) = true ∧ p.st ≠ 0 ∧ HasTile s acc.toNat ∧
  (isPort src = true → portBound (cur s) src = true) ∧ ty.store ≠ 4 ∧
  (∃ code, actType (ctxAt .m s) src (mrfIdx src) (planeTy p, p.typ) = .ok (ty, code) ∧ is16 code = is16 p.typ) ∧
  actVector (ctxAt .m s) src (mrfIdx src) (claimed s) = .ok (ls, v)

/-- The code that a drain writes for element (i, j) of a tile, scaled as RS and CS say (R163, R367). -/
def drainCode (s : State) (tile : Nat) (ty : NTy) (rs cs : Bool) (e : Nat × Nat) : Nat :=
  let scale (on : Bool) (l : Lane) : XV := if on then f32 l.toNat else .fin false 1 0
  let v := scaled (decF fE8M31 (accAt s tile e.1 e.2).toNat) (scale rs (rget 0 (cur s).scr e.1)) (scale cs (rget 0 (cur s).scc e.2))
  (drainTo ty v.2 v.1).1

/-- From s to t chunk q of an accumulator name was drained: the row holds it, zeros where the name is not mapped; the last packed
chunk sets the named cells' columns to +0; no other MRF row and no other accumulator element changed (R73, R367, R368). -/
def Drains (s t : State) (acc row tt q : Nat) (rs cs pk : Bool) (cm : BitVec 4) : Prop :=
  let ty := tyOfCode (fmtReg (cur s)) tt
  let n := 1024 / ty.store
  let cells := (List.range 4).filter (fun k => cm.getLsbD k)
  let total := if pk then 512 * cells.length else 2048
  (∀ k, k ≠ row → mrfRow t k = mrfRow s k) ∧
  (accTile (cur s) acc = none → mrfRow t row = List.replicate 32 0 ∧ t.gv.acc = s.gv.acc) ∧
  ∀ tile, accTile (cur s) acc = some tile →
    mrfRow t row = pack ty.store ((List.range n).map (fun k => drainCode s tile ty rs cs (drainElem pk cells (n * q + k)))) ∧
    (∀ i j, i < 32 → j < 64 → accAt t tile i j =
      if pk = true ∧ n * (q + 1) = total ∧ cm.getLsbD (j / 16) = true then 0 else accAt s tile i j) ∧
    ∀ k, k / 2048 ≠ tile → rget 0 t.gv.acc k = rget 0 s.gv.acc k

/-- The acting stream's microprogram goes on in this cycle, before the last microword (R372, R375, R509). -/
def MicroGoing (s : State) : Prop :=
  (cur s).micro.running = true ∧ (cur s).micro.wait = 0 ∧ capReady s = true ∧ (cur s).micro.count < 2 ^ 20 ∧ (cur s).micro.mpc < 1023

/-- From s to t the run performed one micro-op and stands at microword n; no G register and no byte of memory changed. -/
def MicroAt (s t : State) (n : Nat) : Prop :=
  (cur t).micro.running = true ∧ (cur t).micro.mpc = n ∧ (cur t).micro.count = (cur s).micro.count + 1 ∧ SameG s t ∧ SameMem s t ∧
  strm t (!s.sel) = strm s (!s.sel) ∧ (cur t).pc = (cur s).pc

/-! ## The vector ops that work element by element, as the spec's tables give them (R327 to R332, R336) -/

/-- A port that the operand names, of narrow elements, has elements of w bits (R82). -/
def PortWidth (s : State) (m : Mrf) (w : Nat) : Prop := isPort m = false ∨ 8 < portEw (cur s) m ∨ portEw (cur s) m = w

/-- A port that the operand names fits the op's type; BITS expects no format (R82, notes/assumptions/76.md). -/
def PortFits (s : State) (ty : VTy) (m : Mrf) : Prop := ty = .bits ∨ PortWidth s m (tyWidth ty)

/-- An element-wise op: guard, type, element width, operands, STEP, and the elements of D from those of the old D, A and B. -/
structure VecOp where
  q : Guard
  ty : VTy
  w : Nat
  d : Mrf
  a : Mrf
  b : Option Mrf
  step : Bool
  f : List Nat → List Nat → List Nat → List Elem

/-- An op of A alone. -/
def onA (q : Guard) (ty : VTy) (d a : Mrf) (step : Bool) (g : Nat → Elem) : Option VecOp :=
  some ⟨q, ty, tyWidth ty, d, a, none, step, fun _ x _ => x.map g⟩

/-- An op of A and B. -/
def onAB (q : Guard) (ty : VTy) (d a b : Mrf) (step : Bool) (g : Nat → Nat → Elem) : Option VecOp :=
  some ⟨q, ty, tyWidth ty, d, a, some b, step, fun _ x y => x.zipWith g y⟩

/-- An op of the old D, A and B. -/
def onDAB (q : Guard) (ty : VTy) (d a b : Mrf) (step : Bool) (g : Nat → Nat → Nat → Elem) : Option VecOp :=
  some ⟨q, ty, tyWidth ty, d, a, some b, step, fun o x y => (o.zip (x.zip y)).map (fun e => g e.1 e.2.1 e.2.2)⟩

/-- The element-wise ops. -/
def vecSpec : Instr → Option VecOp
  | .vadd q ty d a b st => onAB q ty d a b st (elAdd ty)
  | .vsub q ty d a b st => onAB q ty d a b st (elSub ty)
  | .vmul q ty d a b st => onAB q ty d a b st (elMul ty)
  | .vmax q ty d a b st => onAB q ty d a b st (elMax ty)
  | .vmin q ty d a b st => onAB q ty d a b st (elMin ty)
  | .vand q ty d a b st => onAB q ty d a b st (fun x y => (x &&& y, 0))
  | .vor q ty d a b st => onAB q ty d a b st (fun x y => (x ||| y, 0))
  | .vxor q ty d a b st => onAB q ty d a b st (fun x y => (x ^^^ y, 0))
  | .vfma q ty d a b st => onDAB q ty d a b st (elFma ty)
  | .vfms q ty d a b st => onDAB q ty d a b st (elFms ty)
  | .vclamp q ty d a b st => onDAB q ty d a b st (elClamp ty)
  | .vsel q ty d a b st => onDAB q ty d a b st (fun o x y => (if o = 0 then y else x, 0))
  | .vabs q ty d a st => onA q ty d a st (elAbs ty)
  | .vneg q ty d a st => onA q ty d a st (elNeg ty)
  | .vrcp q ty d a st => onA q ty d a st fRcp
  | .vrsq q ty d a st => onA q ty d a st fRsq
  | .vexp2 q ty d a st => onA q ty d a st fExp2
  | .vlog2 q ty d a st => onA q ty d a st fLog2
  | .vnot q ty d a st => onA q ty d a st (fun x => (2 ^ tyWidth ty - 1 - x, 0))
  | .vshl q ty d a sh st => onA q ty d a st (fun x => (x * 2 ^ sh.toNat % 2 ^ tyWidth ty, 0))
  | .vshr q ty d a sh st => onA q ty d a st (fun x => (x / 2 ^ sh.toNat, 0))
  | .vsra q ty d a sh st => onA q ty d a st (fun x => (intCode (tyWidth ty) (sextI x (tyWidth ty) / (2 ^ sh.toNat : Nat)), 0))
  | .vmov q ty d a st => onA q ty d a st (fun x => (x, 0))
  | .vcnt q ty d a st => onA q ty d a st (fun x => ((List.range (tyWidth ty)).countP (fun k => bit x k), 0))
  | .vcmp q ty d a cond st => some ⟨q, ty, tyWidth ty, d, a, none, st, fun o x _ => o.zipWith (elVcmp ty cond.toNat) x⟩
  | .vbcst q ty d a idx st => some ⟨q, ty, tyWidth ty, d, a, none, st, fun _ x _ => x.map (fun _ => (x.getD idx.toNat 0, 0))⟩
  | .vperm q ty d a b st => some ⟨q, ty, tyWidth ty, d, a, some b, st, fun _ x y => y.map (fun i => (x.getD i 0, 0))⟩
  | .vrot q ty d a sh st => some ⟨q, ty, tyWidth ty, d, a, none, st, fun _ x _ =>
      (List.range x.length).map (fun e => (x.getD ((e + x.length - sh.toNat) % x.length) 0, 0))⟩
  | _ => none

/-! ## Job cards -/

/-- The card ops: guard, code, GB, GC, INC and EXCH (R378, R379). -/
def jobSpec : Instr → Option (Guard × Nat × Reg × Reg × BitVec 16 × Bool)
  | .xcopy q gb gc inc ex => some (q, 0x100, gb, gc, inc, ex)
  | .xgath q gb gc inc ex => some (q, 0x101, gb, gc, inc, ex)
  | .xscat q gb gc inc ex => some (q, 0x102, gb, gc, inc, ex)
  | .xred q gb gc inc ex => some (q, 0x103, gb, gc, inc, ex)
  | .xconv q gb gc inc ex => some (q, 0x104, gb, gc, inc, ex)
  | .xfill q gb gc inc ex => some (q, 0x105, gb, gc, inc, ex)
  | .xcoll q gb gc inc => some (q, 0x106, gb, gc, inc, false)
  | .xpeer q gb gc inc => some (q, 0x107, gb, gc, inc, false)
  | .xcanw q gb gc inc => some (q, 0x108, gb, gc, inc, false)
  | .rtsub q gb gc inc => some (q, 0x110, gb, gc, inc, false)
  | .spalloc q gb gc inc => some (q, 0x111, gb, gc, inc, false)
  | .gcmt q gb gc inc => some (q, 0x112, gb, gc, inc, false)
  | _ => none

/-- The card of four registers from GB, with the formats that XCONV latches (R379, R388). -/
def cardOf (s : State) (code : Nat) (gb : Reg) : Card :=
  let w (k : Nat) : Nat := (gRead (cur s) (gb.toNat + k)).toNat
  let c : Card := { op := code, w0 := w 0, w1 := w 1, w2 := w 2, w3 := w 3 }
  if code = 0x104 then { c with fs := fmtReg (cur s) c.st, fd := fmtReg (cur s) c.typ } else c

/-- The counter, the group or peer, the regions, the canopy rows, the commit rows and the descriptor's pages of a card pass
their checks at issue, in order, and leave state u with the card's group word or peer and its footprint, in which XRED also
reads its destination (R142, R379, R381, R390 to R393, R396). -/
def CardPasses (s : State) (k : Card) (gc : Reg) (u : State) (peer : Nat × List Word) (foot : List JRegion) : Prop :=
  ∃ cpa s1 s2 s3 f1 f2 f3, (if gc = 0 then .ok (0, s) else counterHome .amo (gNat s gc) s) = .ok (cpa, s1) ∧
    (if k.op = 0x106 then collGroup (ctxAt .c s) k s1
     else if k.op = 0x107 then (peerDest (ctxAt .c s) k s1).map (fun e => (e, s1)) else .ok ((0, []), s1)) = .ok (peer, s2) ∧
    (let m : Card := if k.op = 0x106 then { k with members := bits peer.1 5 0 + 1 } else k
     locsCheck (ctxAt .c s) (m.srcs ++ m.idxs ++ m.dsts) s2 = .ok (f1, s3)) ∧
    (if k.op = 0x108 then (canwRegion (ctxAt .c s) k s3).map (fun r => [r])
     else .ok (if k.op = 0x107 then [{ sp := 2, key := peer.1, lo := k.w1 % 2 ^ 47, len := k.len, wr := true }] else [])) = .ok f2 ∧
    (k.op = 0x112 → ∃ r, gcmtRows (ctxAt .c s) k = .ok r) ∧
    (if k.op = 0x112 then descRegion k.w1 s3 else .ok ([], s3)) = .ok (f3, u) ∧
    foot = f1 ++ f2 ++ f3 ++ (if k.op = 0x103 then (f1.filter (fun r => r.wr)).map (fun r => { r with wr := false }) else [])

/-! ## Packets -/

/-- The packet may be performed, passes its own checks, and its queue may have it (R462, R464, R466). -/
def Performs (s : State) (p : Pkt) : Prop :=
  mayPerform s p = true ∧ nwOk p = true ∧ payOk p = true ∧ caddrOk p = true ∧ accepted s p = true

/-- Performing i comes to the completion of packet p with a status and a result, from state u (R465). -/
def CompletesAs (i : Instr) (s : State) (p : Pkt) (st : Nat) (r : Word) (u : State) : Prop :=
  exec i s = .next (endPacket p.q st r u)

/-- The packets whose checks come first (R466). -/
def CheckedPacket (p : Pkt) (i : Instr) : Prop :=
  i = .nop p ∨ i = .pred p ∨ i = .signalAdd p ∨ i = .signalStore p ∨ i = .signalChainWord p ∨ i = .waitc p ∨
  i = .hcopy p ∨ i = .cqFence p ∨ i = .seqcfg p ∨ i = .seedseq p ∨ i = .tapcfgPoint p ∨ i = .tapcfgSteer p ∨
  i = .sptcfg p ∨ i = .qcfg p ∨ i = .hbindBind p ∨ i = .hbindClear p ∨ i = .hbindRebind p ∨ i = .hbindRefused p ∨
  i = .evqcfg p ∨ i = .preempt p ∨ i = .resume p ∨ i = .queryStatus p ∨ i = .queryQueue p ∨ i = .querySlots p ∨
  i = .patch p ∨ i = .attest p

/-! ## The host's registers -/

/-- The addresses and the count of an image load are good and no bound handle or queued read uses its blocks (R536). -/
def LoadMayGo (s : State) (lpn0 npg : Nat) : Prop :=
  lpn0 / 2 ^ 42 = 0 ∧ lpn0 % pageBytes = 0 ∧ npg ≠ 0 ∧ laddrPage lpn0 + npg ≤ 2 ^ 25 ∧
  loadBusy s (laddrStack lpn0) (loadBlocks (laddrPage lpn0) npg) = false

/-- The pool list can be read, the entry is valid and no share of it meets one of a LIVE partition (R521 to R523). -/
def MayStart (s : State) (p : Nat) : Prop :=
  readPools s p ≠ none ∧ p ∉ s.dev.live ∧ ptabValid s p = true ∧ ∀ q ∈ s.dev.live, ptabClash s p q = false

/-- The partitions' table, controls and flags, the memories and the streams are as before. -/
def OnlyLoader (s t : State) : Prop :=
  t.dev = { s.dev with loading := t.dev.loading, loader := t.dev.loader } ∧ t.gv = s.gv ∧ t.st0 = s.st0 ∧ t.st1 = s.st1 ∧ SameMem s t

end Sys2Proof.Machine
end

