-- ==== Sys2Proof/Certificates/Slice0/Obligations.lean ====
section
/-!
DEFINITION. The statements for the provers. The words that they use for a state before and after an instruction, and the
tables of the spec that they compare the model with, are in Sys2Proof/Safety.lean.
-/

open Sys2Proof Sys2Proof.Machine

/-- The op words that the spec's worked cases give for one or two instructions of each opcode map (a guarded ADD, CMP,
MOVI, LOOP, END, STVX, FENCE, XCOPY, VMUL, VCVT, MDRAIN) and for a micro-op (DRAIN) decode to those instructions with
those operands. For END the spec's sample table writes another word than its encoding gives (0x0001_1000_0000_0000 in
the table); the word here is the one that the encoding gives, which is the model's choice (notes/assumptions/58.md).
(Rests on spec/09_encoding.md, spec/10_myngo_assembly.md, spec/11_scalar_control_instructions.md,
spec/12_memory_sync_instructions.md, spec/13_vector_instructions.md, spec/14_matrix_instructions.md.) -/
def Obligations.SampleWordsDecode : Prop :=
  decodeOp .s0 0x8734000420C00000 = .ok (.add ⟨true, false, 7, 13⟩ 1 2 3) ∧
  decodeOp .s1 0x00001B1421C31800 = .ok (.cmp Guard.none 5 2 7 3 6) ∧
  decodeOp .s0 0x0000802400002000 = .ok (.movi Guard.none 9 0x2000) ∧
  decodeOp .b 0x000009FFFFFFFE02 = .ok (.loop Guard.none 2 0x3FFFFFFF8) ∧
  decodeOp .b 0x0000110000000000 = .ok (.endTask Guard.none) ∧
  decodeOp .c 0x0000130140610010 = .ok (.stvx Guard.none 0x28 3 2 8 false) ∧
  decodeOp .c 0x000040000000082C = .ok (.fence Guard.none 2 1 3) ∧
  decodeOp .c 0x00010071B0001000 = .ok (.xcopy Guard.none 28 27 1 false) ∧
  decodeOp .v0 0x0000200326023013 = .ok (.vmul Guard.none .fp32 0x64 0x1808 0x1809 true) ∧
  decodeOp .v1 0x00016000A0010422 = .ok (.vcvt Guard.none .fp32 0x14 4 17 0 1 false) ∧
  decodeOp .m 0x00000440_3C001AA4 = .ok (.mdrain Guard.none 2 0x3C 3 0 21 false true false false) ∧
  decodeMicro 0x2580000100000112 = some (.drain 5 2 17 0x2000 0 false true false)

/-- A word decodes at a position to an op exactly where the op is well formed, belongs to the position's opcode map, and
the word is its encoding; a microword decodes to a micro-op exactly where the micro-op is well formed and the word is
its encoding. So every field is read whole, no reserved bit is accepted, and no two ops share a word. (Rests on
spec/09_encoding.md, spec/14_matrix_instructions.md.) -/
def Obligations.EncodingIsOneToOne : Prop :=
  (∀ (p : Pos) (w : Word) (i : Instr), decodeOp p w = .ok i ↔
    wellFormed i = true ∧ encode i = [w] ∧
      mapPos i = some (match p with | .s1 => .s0 | .v1 => .v0 | q => q)) ∧
  (∀ (w : Word) (i : Instr), decodeMicro w = some i ↔
    wellFormed i = true ∧ encode i = [w] ∧ mapPos i = none)

/-- With bring-up not failed: a step performs the first entry of the agenda where there is one, unless an access of the
device that it makes is held back by its bank: then the entry stays and the machine makes its own move. Its own move
is the event that is due (none is, while a two-cycle issue's results are still to be shown in this cycle); else, in
the turn of a stream that may issue, BUNDLE_ISSUE of the header and op words fetched at its pc, the turn then passing
on (the primary's turn, then the other stream's, after which such results are shown, then the end of the cycle); a
failed fetch is that stream's fault; a fetch whose bytes are not at hand makes the stream wait, and so does a bundle
of which an access of the device is held back; a stream that may not issue only passes the turn, STALLED where an
emergency refresh holds it; a forced issue of the secondary comes in the primary's place; the end of the cycle
advances the clock by one. The order agenda, event, streams' turns is the model's choice (notes/assumptions/6.md), the
moment at which the results of a two-cycle issue are shown too (notes/assumptions/86.md), and that what a bank holds
back waits (90). (Rests on spec/09_encoding.md, spec/02_execution_model.md, spec/95_what_each_step_holds.md.) -/
def Obligations.StepRunsTheFetchedBundle : Prop :=
  ∀ s : State, s.dev.bootFail = false →
    (∀ i r, s.agenda = i :: r →
      let o := exec i { s with agenda := r }
      step s = if heldBack s o then ownStep s else o) ∧
    (s.agenda = [] → step s = ownStep s) ∧
    (s.late = none → ∀ o, dueEvent s = some o → ownStep s = o) ∧
    (s.late ≠ none ∨ dueEvent s = none →
      (3 ≤ s.turn → ownStep s = .next (tick s) ∧ (tick s).now = s.now + 1 ∧ (tick s).turn = 0) ∧
      (s.turn = 0 → ∀ o, forcedTurn s = some o → ownStep s = o) ∧
      ∀ b n, (s.turn = 0 ∧ b = s.gv.primary ∧ n = (if b then 1 else 2) ∧ forcedTurn s = none) ∨
          (s.turn = 1 ∧ b = false ∧ n = 3) ∨ (s.turn = 2 ∧ b = true ∧ n = 3) →
        let waits : State := setStrm s b (stallStream (strm s b))
        let after (o : Out) : Out :=
          let r := if heldBack s o then .next waits else o
          atTurn n (if s.turn = 0 then r else shown r)
        (canIssue (withSel b s) = false →
          ownStep s = atTurn n (if s.turn = 0 then .next (if s.now < s.gv.stallTo then waits else s)
            else shown (.next (if s.now < s.gv.stallTo then waits else s)))) ∧
        (canIssue (withSel b s) = true →
          (∀ h ops u, fetchBundle (withSel b s) = .ok (h, ops, u) → ownStep s = after (exec (.bundleIssue b h ops) u)) ∧
          (∀ f, fetchBundle (withSel b s) = .error (.fault f) → ownStep s = after (.next (fetchFails f (withSel b s)))) ∧
          ∀ eff, fetchBundle (withSel b s) = .error (.stall eff) → ownStep s = after (.next (stallIssue [eff] (withSel b s)))))

/-- Every op of the five maps is executed alone as its effect under its guard, and an op whose guard does not select it
changes nothing. A stream that issues is RUNNING, and an op reads the machine as its stream sees it, without the
results of a two-cycle issue of the other stream that are still to be shown. In a state in which nothing stands over
(no pending load, no register written in the group, no lost register, no engine position live), the issue of a bundle
that holds exactly this op, selected by its guard, with no header case, comes to the commit of the op's effect, or to
the op's fault with MASK naming its position, or to its wait. A header and its op words in memory order split into
themselves. (Rests on spec/09_encoding.md, spec/02_execution_model.md.) -/
def Obligations.BundlesIssueTheirOps : Prop :=
  (∀ i q op, opOf i = some (q, op) → ∃ p, mapPos i = some p ∧ ∀ s, exec i s = issueOne p q op s ∧
    (guardOn (cur s) q = false → exec i s = .next s)) ∧
  (∀ h ops, ops.length = (presPos h).length → splitBundle (leBytes h ++ ops.flatMap leBytes) = some (h, ops, [])) ∧
  ∀ (p : Pos) (w h : Word) (i : Instr) (q : Guard) (op : OpM) (s : State), presPos h = [p] → decodeOp p w = .ok i →
    opOf i = some (q, op) → guardOn (cur s) q = true → hRpt h = 0 → hSke h = false → (cur s).ridx = 0 →
    bundleFault (cur s) h [w] [⟨p, w, 0, true⟩] = none →
    ((cur s).v0.live = false ∧ (cur s).v1.live = false ∧ (cur s).m.live = false ∧ (cur s).c.live = false) →
    (cur s).pend = [] → (cur s).grpW = [] → (cur s).grpR = [] → (cur s).lostG = [] → (cur s).lostR = [] →
    (p = .m → capReady s = true) →
    let s0 := modCur s (fun c => wake { c with blen := hLen h })
    let x : OpCtx := { pos := p, j := 0, rd := seen s0 }
    (∀ t, op x s0 = .ok t → issueEnd h [w] s = .commit (commitIssue h [w] [⟨p, w, 0, true⟩]
      { st := t, iw := (foot x i).wr, ir := (foot x i).rd.filter isCtl,
        rows := if answersRow i then [] else (foot x i).wr, stepped := if stepOf i then [p] else [] } s0)) ∧
    (∀ e, op x s0 = .error (.fault e) → issueEnd h [w] s = .fault (2 ^ posNum p) e) ∧
    ∀ eff, op x s0 = .error (.stall eff) → issueEnd h [w] s = .stall [eff]

/-- After reset: the clock is at 0, both streams are idle with every G register reading 0, no partition is LIVE, no launch
or handle exists, both memories are in canonical form and list nothing, and BOOTSTAT.STEP reads 0. That the G
registers read 0 and that memory lists nothing (an unlisted byte reads 0) are the model's choices where the spec gives
no value, and unsafe (notes/assumptions/9.md, 2.md). The first step performs POWER_ON; in the model (its own choice,
notes/assumptions/3.md) bring-up then ends with STEP 7, with no memory changed and still no task. (Rests on
spec/27_partitions_host_boot.md.) -/
def Obligations.ResetAndBringUp : Prop :=
  memWf State.reset = true ∧ State.reset.mem = [] ∧ State.reset.hmem = [] ∧ State.reset.now = 0 ∧
  State.reset.agenda = [] ∧ State.reset.dev.boot = 0 ∧ State.reset.dev.bootFail = false ∧ State.reset.dev.live = [] ∧
  State.reset.dev.launches = [] ∧ State.reset.gv.handles = [] ∧
  (∀ b, (strm State.reset b).status = .idle ∧ ∀ n, gRead (strm State.reset b) n = 0) ∧
  step State.reset = exec (.powerOn none false) State.reset ∧
  ∃ t, step State.reset = .next t ∧ t.dev.boot = 7 ∧ t.dev.live = [] ∧ t.mem = [] ∧ t.hmem = [] ∧
    t.st0.status = .idle ∧ t.st1.status = .idle ∧ rget 0 t.dev.meas 0 = Config.romDigest

/-- Every instruction in every state answers a next state. A step answers a next state too, except that of a device whose
bring-up failed and whose agenda is empty, which is the fault bringUpFailed (that such a device does nothing more is
the model's reading, notes/assumptions/60.md): no operand, mode, fault of a task or event ends a run. (Rests on
spec/21_traps_faults_preemption.md, spec/27_partitions_host_boot.md, Bring-up.) -/
def Obligations.EveryStepContinues : Prop :=
  (∀ (i : Instr) (s : State), Continues (exec i s)) ∧
  ∀ s : State, (¬ (s.agenda = [] ∧ s.dev.bootFail = true) → Continues (step s)) ∧
    (s.agenda = [] → s.dev.bootFail = true → step s = .fault .bringUpFailed)

/-- In every state whose device memory and host memory are in canonical form (addresses strictly rising, no byte listed
that an unlisted one reads as), a step that answers a next state leaves both in canonical form, so that equal memories
stay equal data. (Rests on spec/05_memory_model.md.) -/
def Obligations.EveryStepKeepsTheMemoriesCanonical : Prop :=
  ∀ s t : State, memWf s = true → step s = .next t → memWf t = true

/-- Each of the 57 scalar ops of aluSpec (ADD to MOVHI, register and immediate forms, but for AADD, ADIFF, MOVC and MOVS),
when its guard selects it, answers the next state in which G[D] holds the value that the spec's table gives, nothing
where D is G0; from a state that stands between two issues, no other G register, no control register of either stream,
no byte of memory, nothing of the Grove, the device or the other stream changes, and the pc stands. (Rests on
spec/11_scalar_control_instructions.md, Arithmetic and logic; Compares, selects and bit fields; Moves.) -/
def Obligations.ScalarOpsWriteTheirResult : Prop :=
  ∀ (i : Instr) (q : Guard) (d : Reg) (v : Word) (s : State),
    aluSpec (gOf s) i = some (q, d, v) → guardOn (cur s) q = true →
    exec i s = .next (commitOne (setG s d v)) ∧ (Quiet s → OnlyReg s (commitOne (setG s d v)) d v)

/-- DIV writes Wrap64 of −1 for b = 0, of −2^63 for a = −2^63 and b = −1, and of the truncated quotient otherwise; REM
writes Wrap64 of a, of 0, and of a − b × trunc(a ÷ b) in those cases; DIVN writes 2^64 − 1 or the floor; REMN writes a
or a mod b. Every one completes for all operands, and a REM result that is not zero has the sign of a. (States R258.) -/
def Obligations.DivisionTruncatesAndNeverFaults : Prop :=
  ∀ (q : Guard) (d a b : Reg) (s : State), guardOn (cur s) q = true →
    let x : Int := (gOf s a).toInt
    let y : Int := (gOf s b).toInt
    let quo : Int := if y = 0 then -1 else if x = -2 ^ 63 ∧ y = -1 then -2 ^ 63 else x.tdiv y
    let rem : Int := if y = 0 then x else if x = -2 ^ 63 ∧ y = -1 then 0 else x - y * x.tdiv y
    let quoN : Nat := if gNat s b = 0 then 2 ^ 64 - 1 else gNat s a / gNat s b
    let remN : Nat := if gNat s b = 0 then gNat s a else gNat s a % gNat s b
    exec (.div q d a b) s = .next (commitOne (setG s d (wrap64 quo))) ∧
    exec (.rem q d a b) s = .next (commitOne (setG s d (wrap64 rem))) ∧
    exec (.divn q d a b) s = .next (commitOne (setG s d (BitVec.ofNat 64 quoN))) ∧
    exec (.remn q d a b) s = .next (commitOne (setG s d (BitVec.ofNat 64 remN))) ∧
    ((wrap64 rem).toInt ≠ 0 → ((wrap64 rem).toInt < 0 ↔ x < 0))

/-- AADD is code 0x021 with a register and 0x061 with an immediate, ADIFF code 0x022 without an immediate form: code 0x062
is no op. For both forms of AADD, enabled, with s the sum of bits [56:0] of G[A] and the signed offset, G[B] or the
sign-extended immediate: a sum below 0 or at least 2^57 takes PATH_FAULT; otherwise G[D] becomes bits [63:57] of G[A]
above the sum, whatever the path and qualifier bits are. An enabled ADIFF whose operands differ in bits [63:57] takes
PATH_FAULT and commits nothing; otherwise G[D] becomes Wrap64 of the difference of bits [56:0]. Nothing else changes.
(States R265, R266.) -/
def Obligations.AddressArithmeticStaysInThePath : Prop :=
  (∀ (d a b : Reg) (imm : BitVec 28),
    decodeOp .s0 (BitVec.ofNat 64 (0x021 * 2 ^ 40 + d.toNat * 2 ^ 34 + a.toNat * 2 ^ 28 + b.toNat * 2 ^ 22)) =
      .ok (.aadd Guard.none d a b) ∧
    decodeOp .s0 (BitVec.ofNat 64 (0x061 * 2 ^ 40 + d.toNat * 2 ^ 34 + a.toNat * 2 ^ 28 + imm.toNat)) =
      .ok (.aaddImm Guard.none d a imm) ∧
    decodeOp .s0 (BitVec.ofNat 64 (0x022 * 2 ^ 40 + d.toNat * 2 ^ 34 + a.toNat * 2 ^ 28 + b.toNat * 2 ^ 22)) =
      .ok (.adiff Guard.none d a b)) ∧
  (∀ w : Word, (w >>> 40).setWidth 10 = (0x062 : BitVec 10) → decodeOp .s0 w = .error .illegalOp) ∧
  ∀ (q : Guard) (d a b : Reg) (imm : BitVec 28) (s : State), guardOn (cur s) q = true →
    (∀ (i : Instr) (off : Int), (i = .aadd q d a b ∧ off = (gOf s b).toInt ∨ i = .aaddImm q d a imm ∧ off = imm.toInt) →
      let z : Int := ((gOf s a).toNat % 2 ^ 57 : Nat) + off
      (z < 0 ∨ 2 ^ 57 ≤ z → exec i s = .next (takeFault s.sel 1 ⟨.pathFault, 0, gOf s a⟩ s)) ∧
      (0 ≤ z → z < 2 ^ 57 →
        let v := (gOf s a >>> 57 <<< 57) ||| wrap64 z
        exec i s = .next (commitOne (setG s d v)) ∧ (Quiet s → OnlyReg s (commitOne (setG s d v)) d v))) ∧
    (gOf s a >>> 57 ≠ gOf s b >>> 57 →
      exec (.adiff q d a b) s = .next (takeFault s.sel 1 ⟨.pathFault, 0, gOf s a⟩ s)) ∧
    (gOf s a >>> 57 = gOf s b >>> 57 →
      let v := wrap64 (((gOf s a).toNat % 2 ^ 57 : Nat) - ((gOf s b).toNat % 2 ^ 57 : Nat))
      exec (.adiff q d a b) s = .next (commitOne (setG s d v)) ∧ (Quiet s → OnlyReg s (commitOne (setG s d v)) d v))

/-- With known the numbers of the register map, secret the supervisor's SYSCTL and CTXAREA, and the writable numbers as
the map states: an enabled MOVC of an unknown number takes ILLEGAL_ENC, of a secret one at kernel level PRIV, and
otherwise completes with the register's value in G[D] (for a register that both streams share, what this stream sees
of it: not yet what a two-cycle issue of the other writes), nothing else changed; an enabled MOVS of an unknown number
takes ILLEGAL_ENC, of one that the level may not write PRIV, and otherwise commits the write; after a MOVS from a
state between two issues every register that stores a written value reads it, masked as its map states, every other
control register of either stream reads as before, and so does every byte of memory. MOVS to ARB sets STRICT and SLICE
(at least 256) from their fields, begins a slice, clears OVRCNT where bit 32 is 1, and leaves the primary and RPTR; to
HINTDROP it leaves 0; to CANOPY it sets DTRAP from its field and clears DEBT and DEBTCNT where bit 32 is 1, and leaves
them where it is 0. (Rests on spec/11_scalar_control_instructions.md, Moves, spec/03_registers_operands.md, Control
registers, spec/20_privilege_translation.md.) -/
def Obligations.ControlRegisterMoves : Prop :=
  ∀ (q : Guard) (d a : Reg) (num : BitVec 12) (s : State), guardOn (cur s) q = true →
    let n := num.toNat
    let lvl := (cur s).level
    (¬ ctlExists n → exec (.movc q d num) s = .next (takeFault s.sel 1 ⟨.illegalEnc, 0, 0⟩ s) ∧
      exec (.movs q a num) s = .next (takeFault s.sel 1 ⟨.illegalEnc, 0, 0⟩ s)) ∧
    (ctlExists n → lvl = 0 → n = 0x801 ∨ n = 0x820 →
      exec (.movc q d num) s = .next (takeFault s.sel 1 ⟨.priv, 0, 0⟩ s)) ∧
    (ctlExists n → lvl ≠ 0 ∨ n ≠ 0x801 ∧ n ≠ 0x820 →
      ∃ v, ctlRead (seen s) s.sel n = some v ∧ exec (.movc q d num) s = .next (commitOne (setG s d v)) ∧
        (Quiet s → OnlyReg s (commitOne (setG s d v)) d v)) ∧
    (ctlExists n → ctlReadOnly n ∨ lvl = 0 ∧ ctlSupervisor n →
      exec (.movs q a num) s = .next (takeFault s.sel 1 ⟨.priv, 0, 0⟩ s)) ∧
    (ctlExists n → ¬ ctlReadOnly n → lvl ≠ 0 ∨ ¬ ctlSupervisor n →
      let t := commitOne (ctlWrite s s.sel n (gOf s a))
      exec (.movs q a num) s = .next t ∧
      (Quiet s → (∀ v, ctlStored n (gOf s a) = some v → ctlRead t s.sel n = some v) ∧
        (∀ b m, m ≠ n ∨ b ≠ s.sel ∧ n < 0x800 ∧ n ≠ 5 → ctlRead t b m = ctlRead s b m) ∧ SameG s t ∧ SameMem s t ∧
        (cur t).pc = (cur s).pc ∧
        (n = 5 → (∀ b, ctlRead t b 5 = some (arbWord t.gv)) ∧ t.gv.strict = (gOf s a).getLsbD 63 ∧ t.gv.primary = s.gv.primary ∧
          t.gv.rptr = s.gv.rptr ∧ t.gv.slice = max 256 (gNat s a % 2 ^ 16) ∧ t.gv.sliceStart = s.now ∧
          t.gv.ovrcnt = (if (gOf s a).getLsbD 32 then 0 else s.gv.ovrcnt)) ∧
        (n = 0x802 → ∀ b, ctlRead t b 0x802 = some 0) ∧
        (n = 0x810 → (∀ b, ctlRead t b 0x810 = some (canopyWord t.gv)) ∧ t.gv.dtrap = (gOf s a).getLsbD 62 ∧
          (if (gOf s a).getLsbD 32 then t.gv.debt = false ∧ t.gv.debtcnt = 0
           else t.gv.debt = s.gv.debt ∧ t.gv.debtcnt = s.gv.debtcnt))))

/-- From a state between two issues, an enabled MOVS to PORTMAP leaves the walk of port p at its first element where bits
[8p+7:8p] of PORTMAP change and as it was elsewhere; an enabled MOVS to a word of PSn leaves the walk of each port
whose PORTMAP field names PSn at its first element, and the others as they were. (States R81.) -/
def Obligations.PortWalksStartAgain : Prop :=
  ∀ (q : Guard) (a : Reg) (s : State) (p : Nat), guardOn (cur s) q = true → Quiet s → p < 8 →
    (∃ t, exec (.movs q a 3) s = .next t ∧
      rget {} (cur t).walk p = (if bits (cur t).portmap.toNat (8 * p + 7) (8 * p) ≠ bits (cur s).portmap.toNat (8 * p + 7) (8 * p)
        then Walk.start else rget {} (cur s).walk p)) ∧
    ∀ n k : Nat, n < 16 → k < 8 →
      ∃ t, exec (.movs q a (BitVec.ofNat 12 (0x80 + 8 * n + k))) s = .next t ∧ (cur t).portmap = (cur s).portmap ∧
        rget {} (cur t).walk p = (if bits (cur s).portmap.toNat (8 * p + 3) (8 * p) = n then Walk.start else rget {} (cur s).walk p)

/-- From a state between two issues, with H the pc and L the length of the bundle in issue: BR goes to H + 8 × OFF34; BRI
to G[AUX] + 8 × OFF34; CALL to H + 8 × OFF34 with H + L in G[AUX]; CALLI to G[AUX] with H + L in the G register of
OFF34; RET to G[AUX] where that is not the task-end value. Every sum wraps at 2^64, every source is read before the
link is written, and nothing else changes. (Rests on spec/11_scalar_control_instructions.md, The branch position.) -/
def Obligations.TransfersReachTheirTarget : Prop :=
  ∀ (q : Guard) (n l : Reg) (off : BitVec 34) (s : State), guardOn (cur s) q = true → Quiet s →
    let h := (cur s).pc
    let link := h + BitVec.ofNat 64 (cur s).blen
    let rel := h + (off.signExtend 64 <<< 3)
    (∃ t, exec (.br q off) s = .next t ∧ OnlyPc s t rel) ∧
    (∃ t, exec (.bri q n off) s = .next t ∧ OnlyPc s t (gOf s n + (off.signExtend 64 <<< 3))) ∧
    (∃ t, exec (.call q n off) s = .next t ∧ OnlyPc (setG s n link) t rel) ∧
    (∃ t, exec (.calli q n l) s = .next t ∧ OnlyPc (setG s l link) t (gOf s n)) ∧
    (gOf s n ≠ taskEnd → ∃ t, exec (.ret q n) s = .next t ∧ OnlyPc s t (gOf s n))

/-- From a state between two issues: LSET writes its immediate or bits [31:0] of its register to LCk; LOOP decrements LCk
and goes to H + 8 × OFF34 where LCk is at least 2, and writes 0 and falls through otherwise; SKSET sets and SKCLR
clears bit AUX of SKIPP. No other control register, no G register, no byte of memory and nothing of the Grove, the
device or the other stream changes, and the pc stands where no branch is taken. (Rests on
spec/11_scalar_control_instructions.md, The branch position.) -/
def Obligations.LoopsAndSkipPredicates : Prop :=
  ∀ (q : Guard) (k : BitVec 3) (r : Reg) (imm : BitVec 32) (n : BitVec 6) (off : BitVec 34) (s : State),
    guardOn (cur s) q = true → Quiet s →
    (∃ t, exec (.lset q k (.imm imm)) s = .next t ∧ OnlyCtl s t (0x10 + k.toNat) (imm.setWidth 64) ∧ (cur t).pc = (cur s).pc) ∧
    (∃ t, exec (.lset q k (.reg r)) s = .next t ∧ OnlyCtl s t (0x10 + k.toNat) (gOf s r &&& 0xFFFFFFFF) ∧
      (cur t).pc = (cur s).pc) ∧
    (∀ c : Word, ctlRead s s.sel (0x10 + k.toNat) = some c → 2 ≤ c.toNat →
      ∃ t, exec (.loop q k off) s = .next t ∧ OnlyCtl s t (0x10 + k.toNat) (c - 1) ∧
        (cur t).pc = (cur s).pc + (off.signExtend 64 <<< 3)) ∧
    (∀ c : Word, ctlRead s s.sel (0x10 + k.toNat) = some c → c.toNat < 2 →
      ∃ t, exec (.loop q k off) s = .next t ∧ OnlyCtl s t (0x10 + k.toNat) 0 ∧ (cur t).pc = (cur s).pc) ∧
    (∃ t, exec (.skset q n) s = .next t ∧ OnlyCtl s t 0x18 ((cur s).skipp ||| ((1 : Word) <<< n.toNat)) ∧ (cur t).pc = (cur s).pc) ∧
    (∃ t, exec (.skclr q n) s = .next t ∧ OnlyCtl s t 0x18 ((cur s).skipp &&& ~~~((1 : Word) <<< n.toNat)) ∧ (cur t).pc = (cur s).pc)

/-- With a the wrapped address G[AUX] + 64 × OFF34: an enabled LCLD takes MISALIGNED where a is not a multiple of 64,
whatever its path (that this comes before every case of R113 is the model's choice, notes/assumptions/40.md); else the
fault of R113's address checks; else PATH_USE on path 6; else the fault, or the wait, of its translation; else
PATH_USE on another path than 0 and 2; else it asks for its line and waits while that is not at hand (the model's
choice of moment, notes/assumptions/90.md) or R117 lets it make no request, and takes MEM_UE where the line is
uncorrectable or its request found nothing; else it completes with LCk the 32-bit word at byte 4k and SKIPP the 64-bit
word at byte 32 of those bytes, no G register, no other control register of the stream and no byte of memory changed.
(Rests on spec/11_scalar_control_instructions.md, The branch position.) -/
def Obligations.ControlBlockLoad : Prop :=
  ∀ (q : Guard) (n : Reg) (off : BitVec 34) (s : State), guardOn (cur s) q = true →
    let w := gOf s n + (off.signExtend 64 <<< 6)
    let a := w.toNat
    (a % 64 ≠ 0 → exec (.lcld q n off) s = .next (takeFault s.sel 64 ⟨.misaligned, 0, w⟩ s)) ∧
    (a % 64 = 0 → ∀ e, addrCheck .ld a 64 = .error e → exec (.lcld q n off) s = stopped 64 e s) ∧
    (a % 64 = 0 → addrCheck .ld a 64 = .ok () →
      (pathOf a = 6 → exec (.lcld q n off) s = .next (takeFault s.sel 64 ⟨.pathUse, 0, w⟩ s)) ∧
      (pathOf a ≠ 6 → ∀ e, xlateOp .ld a s = .error e → exec (.lcld q n off) s = stopped 64 e s) ∧
      (pathOf a ≠ 0 → pathOf a ≠ 2 → pathOf a ≠ 6 → (xlateOp .ld a s).isOk = true →
        exec (.lcld q n off) s = .next (takeFault s.sel 64 ⟨.pathUse, 0, w⟩ s)) ∧
      (pathOf a = 0 ∨ pathOf a = 2 → ∀ sp pa uc u, xlateOp .ld a s = .ok ((sp, pa, uc), u) →
        let r := inHand false u (askHome .dev pa (dropLine (pa / 128) u))
        (∀ e, r = .error e → exec (.lcld q n off) s = stopped 64 e s) ∧
        ∀ lost v, r = .ok (lost, v) →
          (lost = true ∨ lineUe u .dev pa 64 = true → exec (.lcld q n off) s = .next (takeFault s.sel 64 ⟨.memUe, 0, w⟩ s)) ∧
          (lost = false → lineUe u .dev pa 64 = false →
            (∀ e, keepAsks s v = .error e → exec (.lcld q n off) s = stopped 64 e s) ∧
            ∀ y, keepAsks s v = .ok y → Quiet s →
              ∃ t, exec (.lcld q n off) s = .next t ∧ SameG s t ∧ SameMem s t ∧ (cur t).pc = (cur s).pc ∧
                (∀ k, k < 8 → ctlRead t t.sel (0x10 + k) = some (BitVec.ofNat 64 (homeNat (seen s) .dev (pa + 4 * k) 4))) ∧
                ctlRead t t.sel 0x18 = some (homeWord (seen s) .dev (pa + 32)) ∧
                ∀ b m, b ≠ s.sel ∨ m < 0x10 ∨ 0x18 < m → ctlRead t b m = ctlRead s b m)))

/-- From a state between two issues of a task with no load or CLD outstanding and no microprogram running: END, and RET of
the task-end value, answer the end of the task: the stream is IDLE with its registers as they were, no bank is held by
the task, it does not own the array, no TASK handle of it is left, its jobs, buffered stores and tap partials stand,
and both memories and the other stream are unchanged. CONT with a target at or above the code base within the reach of
CODEOFF, bits [63:48] of G[AUX] zero, room in its queue and none of its stores held back, enqueues the record of R279
and ends the task in the same way. While a load or CLD is outstanding or a microprogram runs, each waits, and CONT
also while its queue is full or its release waits; a CONT with a bad target or bad bits takes BAD_RECORD. (Rests on
spec/11_scalar_control_instructions.md, Ending and continuing a task, spec/02_execution_model.md.) -/
def Obligations.TaskEndFreesTheStream : Prop :=
  ∀ (q : Guard) (n : Reg) (off : BitVec 34) (s : State), guardOn (cur s) q = true → Quiet s →
    let idle := (cur s).pend = [] ∧ (cur s).micro.running = false ∧ ∀ m ∈ s.gv.clds, m.task ≠ (cur s).task
    let tgt := ((cur s).pc + (off.signExtend 64 <<< 3)).toNat
    let base := opWord (launchOf s (cur s).launch) 2
    let aux := if n = 0 then 0 else gNat s n
    let good := base ≤ tgt ∧ (tgt - base) / 8 < 2 ^ 32 ∧ aux / 2 ^ 48 = 0
    let full := queueFull (queueOf s (cur s).queue)
    EndsTask s (endTask s.sel s) ∧
    (∀ i, i = .endTask q ∨ i = .ret q n ∧ gOf s n = taskEnd →
      (idle → exec i s = .next (endTask s.sel s)) ∧
      (¬ idle → exec i s = .next (waitOne id s))) ∧
    (¬ good → exec (.cont q n off) s = .next (takeFault s.sel 64 ⟨.badRecord, 0, 0⟩ s)) ∧
    (good → ¬ idle ∨ full = true → exec (.cont q n off) s = .next (waitOne id s)) ∧
    (good → idle → full = false → (cur s).prov = false → (release s).isOk = false →
      exec (.cont q n off) s = .next (waitOne (publish (ofStream s.sel)) s)) ∧
    (good → idle → full = false → ∀ u, (if (cur s).prov then u = s else release s = .ok u) →
      exec (.cont q n off) s = .next (endTask s.sel (enqueue (cur s).queue
        (BitVec.ofNat 64 ((tgt - base) / 8 * 2 ^ 32 + aux % 2 ^ 32)) (cur s).r1
        (if aux / 2 ^ 32 = 0 then (cur s).r2 else withField (cur s).r2 32 16 (aux / 2 ^ 32))
        (withField (cur s).r3 52 12 (contPhase s (cur s))) true u)))

/-- From a state between two issues: TRAP leaves the stream of a task that is not provisional SAVING with the code and
payload of its record and the pc of its bundle noted and the pc where it stands (an op executed alone leaves the pc:
the model's choice, notes/assumptions/4.md), with no G register, no byte of memory and no control register changed; a
provisional task is held at the Grove with its trap and its stream becomes IDLE. BRK does the same with its tag where
DBGEN of the partition's SYSCTL is set, and changes nothing but that a waiting stream runs where it is clear. (Rests
on spec/11_scalar_control_instructions.md, Ending and continuing a task.) -/
def Obligations.TrapsAndBreaksAskForTheSave : Prop :=
  ∀ (q : Guard) (code : BitVec 6) (pay : BitVec 16) (s : State), guardOn (cur s) q = true → Quiet s →
    (cur s).status = .running ∨ (cur s).status = .stalled →
    let stops (t : State) (kind info : Nat) : Prop :=
      ((cur s).prov = false → (cur t).status = .saving ∧ (cur t).saveWant = some kind ∧
        (cur t).faultInfo = info ∧ (cur t).stopPc = (cur s).pc ∧ (cur t).pc = (cur s).pc ∧
        SameG s t ∧ SameCtl s t ∧ SameMem s t ∧ SameRest s t) ∧
      ((cur s).prov = true → (cur t).status = .idle ∧ SameMem s t ∧ ∃ c, t.gv.heldTasks = s.gv.heldTasks ++ [c] ∧
        c.task = (cur s).task ∧ c.saveWant = some kind ∧ c.faultInfo = info ∧ c.stopPc = (cur s).pc ∧ c.wasStrm = s.sel)
    (∃ t, exec (.trap q code pay) s = .next t ∧ stops t 1 (code.toNat * 2 ^ 16 + pay.toNat)) ∧
    (∀ w, ctlRead (seen s) s.sel 0x801 = some w →
      (w.getLsbD 1 = true → ∃ t, exec (.brk q pay) s = .next t ∧ stops t 4 pay.toNat) ∧
      (w.getLsbD 1 = false → ∃ t, exec (.brk q pay) s = .next t ∧ OnlyRuns s t))

/-- At kernel level IDLE takes PRIV. At a level above, on an aligned address of path 0 or 2 that passes the checks and
translates, IDLE takes MEM_UE where the line that it asks for is uncorrectable, and waits while that is not at hand
(notes/assumptions/90.md) or R117 lets it make no request; else it completes and the stream remembers the place and
the word that it saw there, and nothing that software reads changes. IDLE_WAKE of a stream that waits so ends the wait
where the word at home differs or the segment's allowance is used, and changes nothing where neither holds (that an
event that is not due changes nothing is the model's choice, notes/assumptions/5.md). (Rests on
spec/20_privilege_translation.md, spec/21_traps_faults_preemption.md.) -/
def Obligations.IdleWaitsAndWakes : Prop :=
  ∀ (q : Guard) (n : Reg) (b : Bool) (s : State), guardOn (cur s) q = true →
    ((cur s).level = 0 → exec (.idle q n) s = .next (takeFault s.sel 64 ⟨.priv, 0, 0⟩ s)) ∧
    ((cur s).level ≠ 0 → gNat s n % 8 = 0 → addrCheck .ld (gNat s n) 8 = .ok () → pathOf (gNat s n) = 0 ∨ pathOf (gNat s n) = 2 →
      ∀ sp pa uc u, xlateOp .ld (gNat s n) s = .ok ((sp, pa, uc), u) →
        let r := inHand false u (askHome .dev pa (dropLine (pa / 128) u))
        (∀ e, r = .error e → exec (.idle q n) s = stopped 64 e s) ∧
        ∀ lost v, r = .ok (lost, v) →
          (lost = true ∨ lineUe u .dev pa 8 = true →
            exec (.idle q n) s = .next (takeFault s.sel 64 ⟨.memUe, 0, gOf s n⟩ s)) ∧
          (lost = false → lineUe u .dev pa 8 = false →
            (∀ e, keepAsks s v = .error e → exec (.idle q n) s = stopped 64 e s) ∧
            ∀ y, keepAsks s v = .ok y → Quiet s →
              ∃ t, exec (.idle q n) s = .next t ∧ (cur t).idleSeen = some (pa, homeWord (seen s) .dev pa) ∧
                SameG s t ∧ SameCtl s t ∧ SameMem s t)) ∧
    (∀ pa v, (strm s b).idleSeen = some (pa, v) →
      (homeWord s .dev pa ≠ v ∨ (strm s b).allow ≤ (strm s b).used →
        ∃ t, exec (.idleWake b) s = .next t ∧ (strm t b).idleSeen = none ∧ (strm t b).status ≠ .stalled ∧ SameMem s t) ∧
      (homeWord s .dev pa = v → (strm s b).used < (strm s b).allow → exec (.idleWake b) s = .next s))

/-- At kernel level ERET takes PRIV. At a level above, with the slot number in bits [31:0] of its register: where a bank
holds back the read of the image it waits (notes/assumptions/90.md); else, where the image does not validate or does
not fit, it takes CTX_BAD; else it waits while a load or a CLD of the task is outstanding or its microprogram runs;
else it completes: the task ends and the stream runs the task of the image, whose pc, FLAGS (reserved bits zero) and G
registers are those that the image holds, at the level and in the ASID of its launch. (Rests on
spec/21_traps_faults_preemption.md.) -/
def Obligations.ReturnToASavedTask : Prop :=
  ∀ (q : Guard) (n : Reg) (s : State), guardOn (cur s) q = true →
    let o := seen s
    let part := partOf o (cur s)
    let id := gNat s n % 2 ^ 32
    let good := imageCode o part id = 0 ∧ eretFits o part id = true
    let nothingOut := (cur s).pend = [] ∧ (cur s).micro.running = false ∧ ∀ m ∈ s.gv.clds, m.task ≠ (cur s).task
    ((cur s).level = 0 → exec (.eret q n) s = .next (takeFault s.sel 64 ⟨.priv, 0, 0⟩ s)) ∧
    ((cur s).level ≠ 0 → imageWaits o part id = true → exec (.eret q n) s = .next (waitOne (fun u => u) s)) ∧
    ((cur s).level ≠ 0 → imageWaits o part id = false → ¬ good →
      exec (.eret q n) s = .next (takeFault s.sel 64 ⟨.ctxBad, 0, 0⟩ s)) ∧
    ((cur s).level ≠ 0 → imageWaits o part id = false → good → ¬ nothingOut → exec (.eret q n) s = .next (waitOne (fun u => u) s)) ∧
    ((cur s).level ≠ 0 → imageWaits o part id = false → good → nothingOut → Quiet s → partOf s (cur s) = part →
      let ended := endTask s.sel s
      ∀ x bs v, savedAt s part id = some x → readImage part id ended = (some bs, v) →
        let t := resumeInto s.sel x bs v
        exec (.eret q n) s = .next t ∧ (strm t s.sel).status = .running ∧ (strm t s.sel).task = x.task ∧
          (strm t s.sel).pc = imgWord bs 8 ∧ (strm t s.sel).level = opPriv (launchOf s x.launch) ∧
          (strm t s.sel).asid = opAsid (launchOf s x.launch) ∧ (strm t s.sel).flags = imgWord bs 80 &&& 0x3F ∧
          ∀ k, 0 < k → k < 64 → gRead (strm t s.sel) k = imgWord bs (0x100 + 8 * k))

/-- A scalar load whose effective address and access do not fault, and an LDV or LDVX whose rows lie in the window,
commits with the loaded bytes pending, while its memory requests keep the limits of R117 (else it waits): sign- or
zero-extended to G[D], or as 32-bit lanes of the destination. A row outside the window, a misaligned LDV, a fault of
the address or of an access is taken by the c position, and an access that a provisional task may not make, or for
which a table entry is not at hand, waits. From a state between two issues the commit of any of them changes no G
register, no control register, no byte of memory and not the pc. LOAD_COMPLETE of a stream takes its oldest result
whose requests are served; where that is not lost it writes exactly the G registers and MRF lanes of that result, and
changes no byte of memory. That a load's bytes are fixed at its issue is the model's choice (notes/assumptions/65.md),
that one lost lane of an LDVX loses the whole row too (notes/assumptions/33.md), and what a walk waits for
(notes/assumptions/90.md). (Rests on spec/12_memory_sync_instructions.md, Loads and stores.) -/
def Obligations.LoadsCommitThenLand : Prop :=
  (∀ (i : Instr) (q : Guard) (n : Nat) (sg : Bool) (d a : Reg) (off : BitVec 14) (s : State),
    loadSpec i = some (q, n, sg, d, a, off) → guardOn (cur s) q = true →
    (∀ e, effAddr (gOf s a) off.toInt = .error e → exec i s = stopped 32 e s) ∧
    ∀ ea, effAddr (gOf s a) off.toInt = .ok ea →
      (¬ MayAccess s false ea → exec i s = .next (waitOne id s)) ∧
      (∀ e, loadBytes ea n s = .error e → exec i s = stopped 32 e s) ∧
      ∀ bs ue u, loadBytes ea n s = .ok (bs, ue, u) →
        CommitsLoad (exec i s) s u (forReg d (extended n sg (leNat bs)) ue ea 0)) ∧
  (∀ (q : Guard) (m : Mrf) (a : Reg) (off : BitVec 14) (step : Bool) (s : State), guardOn (cur s) q = true →
    let i : Instr := .ldv q m a off step
    (¬ RowOk s (mrfIdx m) → exec i s = .next (takeFault s.sel 32 ⟨.mrfWindow, 0, 0⟩ s)) ∧
    (RowOk s (mrfIdx m) →
      (∀ e, effAddr (gOf s a) off.toInt = .error e → exec i s = stopped 32 e s) ∧
      ∀ ea, effAddr (gOf s a) off.toInt = .ok ea →
        (¬ MayAccess s false ea → exec i s = .next (waitOne id s)) ∧
        (MayAccess s false ea → ea % 4 ≠ 0 → exec i s = .next (takeFault s.sel 32 ⟨.misaligned, 0, w64 ea⟩ s)) ∧
        (MayAccess s false ea → ea % 4 = 0 →
          (∀ e, loadBytes ea 128 s = .error e → exec i s = stopped 32 e s) ∧
          ∀ bs ue u, loadBytes ea 128 s = .ok (bs, ue, u) → CommitsLoad (exec i s) s u
            { mdst := pendLanes (mrfDir m) (mrfIdx m) ((List.range 32).zip (bytesLanes 32 bs)), ue := ue, addr := w64 ea, accs := [ea] }))) ∧
  (∀ (q : Guard) (m : Mrf) (k a : Reg) (off : BitVec 14) (step : Bool) (s : State), guardOn (cur s) q = true →
    let i : Instr := .ldvx q m k a off step
    (¬ (RowOk s (mrfIdx m) ∧ RowOk s (mrfIdx m + 1)) → exec i s = .next (takeFault s.sel 32 ⟨.mrfWindow, 0, 0⟩ s)) ∧
    (RowOk s (mrfIdx m) → RowOk s (mrfIdx m + 1) →
      (∀ e, gatherLanes (ctxAt .c s) a off (mrfIdx m) (laneMask (ctxAt .c s) k) s = .error e → exec i s = stopped 32 e s) ∧
      ∀ vs lost u, gatherLanes (ctxAt .c s) a off (mrfIdx m) (laneMask (ctxAt .c s) k) s = .ok (vs, lost, u) →
        CommitsLoad (exec i s) s u
          { mdst := pendLanes 0 (mrfIdx m + 1) vs, ue := lost.isSome, addr := w64 (lost.getD 0)
            accs := (laneMask (ctxAt .c s) k).filterMap (fun l => (elemAddr (ctxAt .c s) .ld a off (mrfIdx m) l).toOption) })) ∧
  ∀ (b : Bool) (s : State) (p : Pending), (strm s b).pend.find? (landReady s) = some p → p.ue = false →
    ∃ t, exec (.loadComplete b) s = .next t ∧ (strm t b).pend = (strm s b).pend.erase p ∧ SameMem s t ∧
      (∀ n, (∀ x ∈ p.gdst, x.1 ≠ n) → gRead (strm t b) n = gRead (strm s b) n) ∧
      (∀ n v, p.gdst = [(n, v)] → n ≠ 0 → gRead (strm t b) n = v) ∧
      (∀ k, (∀ x ∈ p.mdst, x.1 ≠ k) → rget 0 t.gv.mrf k = rget 0 s.gv.mrf k) ∧
      ∀ k v ms, p.mdst = ms ++ [(k, v)] → rget 0 t.gv.mrf k = v

/-- For an access that passes the address checks, lies in one 128-byte line, is on path 2 or 5 and translates to a place
at home, loadBytes answers the bytes that the stream sees there (those at home, without what a two-cycle issue of the
other stream has not shown yet), with the mark of an uncorrectable line, makes one request, drops the path 0 lines of
the L1 filled from a device line that it reads (the model's choice: R130 names other invalidation points;
notes/assumptions/11.md), and changes no byte; on path 0, where every L1 line holds its 128 bytes, a load answers as
many bytes as it asks for, and the latest buffered byte of its address space at an address that the stream sees is
seen in place of the byte of home, unless it is a provisional byte of another task. (Rests on spec/05_memory_model.md,
spec/12_memory_sync_instructions.md, Loads and stores.) -/
def Obligations.HomeLoadsReadHome : Prop :=
  (∀ (a n : Nat) (s u : State) (sp : Space) (pa : Nat) (uc : Bool), addrCheck .ld a n = .ok () → 0 < n → a % 128 + n ≤ 128 →
    pathOf a = 2 ∨ pathOf a = 5 → xlateOp .ld a s = .ok ((sp, pa, uc), u) →
    let v := askHome sp pa (if sp = .dev then dropLine (pa / 128) u else u)
    loadBytes a n s = .ok (homeBytes (seen s) sp pa n, lineUe s sp pa n, v) ∧ SameMem s v ∧ v.reqs = s.reqs + 1) ∧
  ∀ (a n : Nat) (s u : State) (bs : List Byte) (ue : Bool), pathOf a = 0 → (∀ l ∈ s.gv.l1, l.data.length = 128) →
    loadBytes a n s = .ok (bs, ue, u) → SameMem s u ∧ bs.length = n ∧
    ∀ k, k < n → ∀ e pre post, (seen s).gv.wbuf = pre ++ e :: post → e.asid = (cur s).asid → e.va = lowOf a + k →
      e.task = (cur s).task ∨ e.prov = false →
      (∀ x ∈ post, x.va ≠ lowOf a + k) → bs.getD k 0 = e.byte

/-- A scalar store, an STV and an STVX completes when its accesses do; a row outside the window, a misaligned STV, a fault
of the address, of the row read or of an access is taken by the c position with nothing stored, and an access that a
provisional task may not make, or whose row, table entry or request has to wait, waits. From a state between two
issues: outside the places to which the stored segments translate, computed by homesOf and laneHomes as the store
itself does, every byte of memory reads as before; no G register changes, no control register but, for a scalar store
on path 6, ARB and HINTDROP by their window, and the pc stands. A scalar store inside one line on path 2 or 5 writes
byte k of G[D] at its place plus k when it issues (the model's choice, notes/assumptions/65.md), or waits where its
request would exceed a limit of R117; on path 0 it changes no byte of memory and appends its bytes to the phase write
buffer. (Rests on spec/12_memory_sync_instructions.md, Loads and stores, spec/05_memory_model.md.) -/
def Obligations.StoresTouchOnlyTheirBytes : Prop :=
  (∀ (i : Instr) (q : Guard) (n : Nat) (d a : Reg) (off : BitVec 14) (s : State), storeSpec i = some (q, n, d, a, off) →
    guardOn (cur s) q = true →
    (∀ e, effAddr (gOf s a) off.toInt = .error e → exec i s = stopped 32 e s) ∧
    ∀ ea, effAddr (gOf s a) off.toInt = .ok ea →
      let bs := natLe n (gNat s d)
      (¬ MayAccess s true ea → exec i s = .next (waitOne id s)) ∧
      (∀ e, storeBytes ea bs s = .error e → exec i s = stopped 32 e s) ∧
      (∀ u, storeBytes ea bs s = .ok u → exec i s = .next (commitOne u) ∧ (Quiet s →
        (∀ sp x, Outside (homesOf (segsOf ea n) bs s) sp x → homeByte (commitOne u) sp x = homeByte s sp x) ∧
        SameG s (commitOne u) ∧ (pathOf ea ≠ 6 → SameCtl s (commitOne u)) ∧ (cur (commitOne u)).pc = (cur s).pc ∧
        ∀ b m, m ≠ 5 → m ≠ 0x802 → ctlRead (commitOne u) b m = ctlRead s b m)) ∧
      ∀ u sp pa uc, addrCheck .st ea n = .ok () → ea % 128 + n ≤ 128 → xlateOp .st ea s = .ok ((sp, pa, uc), u) → Quiet s →
        (pathOf ea = 2 ∨ pathOf ea = 5 → (cur s).prov = false →
          let v := askOther (putBytes u sp pa bs)
          (¬ RequestsFit v (v.reqs - s.reqs) → exec i s = .next (waitOne id s)) ∧
          (RequestsFit v (v.reqs - s.reqs) → ∃ t, exec i s = .next t ∧ ∀ sp' x, homeByte t sp' x =
            if sp' = sp ∧ pa ≤ x ∧ x < pa + n then BitVec.ofNat 8 (gNat s d / 256 ^ (x - pa)) else homeByte s sp' x)) ∧
        (pathOf ea = 0 → ∃ t, exec i s = .next t ∧ SameMem s t ∧ t.gv.wbuf = s.gv.wbuf ++ bufBytes u (cur u) (lowOf ea) pa bs)) ∧
  (∀ (q : Guard) (m : Mrf) (k a : Reg) (off : BitVec 14) (step : Bool) (s : State), guardOn (cur s) q = true →
    let i : Instr := .stv q m k a off step
    (∀ e, effAddr (gOf s a) off.toInt = .error e → exec i s = stopped 32 e s) ∧
    ∀ ea, effAddr (gOf s a) off.toInt = .ok ea →
      (¬ MayAccess s true ea → exec i s = .next (waitOne id s)) ∧
      (MayAccess s true ea → ea % 4 ≠ 0 → exec i s = .next (takeFault s.sel 32 ⟨.misaligned, 0, w64 ea⟩ s)) ∧
      (MayAccess s true ea → ea % 4 = 0 →
        (∀ e, readOpnd (ctxAt .c s) m step s = .error e → exec i s = stopped 32 e s) ∧
        ∀ ls v, readOpnd (ctxAt .c s) m step s = .ok (ls, v) →
          let on := laneMask (ctxAt .c s) k
          let lanes := on.map (fun k => (k, ls.getD k 0))
          (on.length = 32 →
            (∀ e, storeBytes ea (laneBytes ls) v = .error e → exec i s = stopped 32 e s) ∧
            ∀ u, storeBytes ea (laneBytes ls) v = .ok u →
              CommitsStore (exec i s) s u (homesOf (segsOf ea (laneBytes ls).length) (laneBytes ls) v)) ∧
          (on.length ≠ 32 →
            (∀ e, storeLanes (laneAddr ea) lanes v = .error e → exec i s = stopped 32 e s) ∧
            ∀ u, storeLanes (laneAddr ea) lanes v = .ok u → CommitsStore (exec i s) s u (laneHomes (laneAddr ea) lanes v)))) ∧
  ∀ (q : Guard) (m : Mrf) (k a : Reg) (off : BitVec 14) (step : Bool) (s : State), guardOn (cur s) q = true →
    let i : Instr := .stvx q m k a off step
    (¬ (RowOk s (mrfIdx m) ∧ RowOk s (mrfIdx m + 1)) → exec i s = .next (takeFault s.sel 32 ⟨.mrfWindow, 0, 0⟩ s)) ∧
    (RowOk s (mrfIdx m) → RowOk s (mrfIdx m + 1) →
      let addr := elemAddr (ctxAt .c s) .st a off (mrfIdx m)
      let lanes := (laneMask (ctxAt .c s) k).map (fun k => (k, mrfLane s (mrfIdx m + 1) k))
      (∀ e, storeLanes addr lanes s = .error e → exec i s = stopped 32 e s) ∧
      ∀ u, storeLanes addr lanes s = .ok u → CommitsStore (exec i s) s u (laneHomes addr lanes s))

/-- An atomic of a provisional task waits; a misaligned address takes MISALIGNED whatever its path (the model's choice,
notes/assumptions/40.md), else the fault of R113's checks, else PATH_USE on path 6, else the fault or the wait of its
translation, else PATH_USE on a host address for an op that PCI Express does not have. Else the Grove's buffered bytes
of the place's line that are not provisional are published, and it waits while a job holds one back; it asks for its
line and waits while that is not at hand (notes/assumptions/90.md); where its request found nothing or the line is
uncorrectable, its result is lost and no byte changes. Else, on path 0, 2 or 5 alike, it completes, while its requests
keep the limits of R117: the old value is on its way to G[D], the n bytes at its place become the value that the op's
rule makes of the old value, G[D] and G[B] (AMOCAS writes nothing where the old value differs from G[D]), and every
other byte of both memories reads as it did after that publication, which changes none where no byte is published. On
path 0 a write drops the stream's buffered bytes at its place that wait for a resolution (R150), and nothing else of
the buffer. From a state between two issues no G register and no control register changes yet, and the pc stands.
(Rests on spec/12_memory_sync_instructions.md, Atomics.) -/
def Obligations.AtomicsReadModifyWrite : Prop :=
  ∀ (i : Instr) (q : Guard) (n : Nat) (host zx : Bool) (d a b : Reg) (off : BitVec 14) (f : Nat → Nat → Nat → Option Nat)
    (s : State) (ea : Nat), amoSpec i = some (q, n, host, zx, d, a, b, off, f) → guardOn (cur s) q = true →
    effAddr (gOf s a) off.toInt = .ok ea →
    let x := gNat s d % 2 ^ (8 * n)
    let y := gNat s b % 2 ^ (8 * n)
    ((cur s).prov = true → exec i s = .next (waitOne id s)) ∧
    ((cur s).prov = false → ea % n ≠ 0 → exec i s = .next (takeFault s.sel 32 ⟨.misaligned, 0, w64 ea⟩ s)) ∧
    ((cur s).prov = false → ea % n = 0 → ∀ e, addrCheck .amo ea n = .error e → exec i s = stopped 32 e s) ∧
    (∀ old lost u, atomicAt n host ea (fun o => f o x y) s = .ok (old, lost, u) →
      ∃ fl, CompletesLater (exec i s) s u (forReg d (extended n (!zx) old) lost ea fl)) ∧
    ((cur s).prov = false → ea % n = 0 → addrCheck .amo ea n = .ok () →
      (pathOf ea = 6 → exec i s = .next (takeFault s.sel 32 ⟨.pathUse, 0, w64 ea⟩ s)) ∧
      (pathOf ea ≠ 6 → ∀ e, xlateOp .amo ea s = .error e → exec i s = stopped 32 e s) ∧
      ∀ sp pa uc u, pathOf ea ≠ 6 → xlateOp .amo ea s = .ok ((sp, pa, uc), u) →
        (pathOf ea = 5 → host = false → exec i s = .next (takeFault s.sel 32 ⟨.pathUse, 0, w64 ea⟩ s)) ∧
        (pathOf ea ≠ 5 ∨ host = true →
          let mine (e : BufByte) : Bool := sp == .dev && !e.prov && e.pa / 128 == pa / 128
          let w := publish mine u
          ((∀ e ∈ s.gv.wbuf, e.pub = false ∧ mine e = false) → SameMem s w) ∧
          (published mine w = false → exec i s = .next (waitOne (publish mine) s)) ∧
          (published mine w = true →
            let r := inHand false w (askHome sp pa (if sp = .dev then dropLine (pa / 128) w else w))
            (∀ e, r = .error e → exec i s = stopped 32 e s) ∧
            ∀ lost v, r = .ok (lost, v) →
              (lost = true ∨ lineUe v sp pa n = true →
                SameMem w v ∧ ∃ fl, CompletesLater (exec i s) s v (forReg d 0 true ea fl)) ∧
              (lost = false → lineUe v sp pa n = false →
                let old := homeNat w sp pa n
                let z := match f old x y with
                  | some k => putBytes (if pathOf ea = 0 then overtakeBuf pa n v else v) sp pa (natLe n k)
                  | none => v
                ∃ fl, CompletesLater (exec i s) s z (forReg d (extended n (!zx) old) false ea fl) ∧
                  (Quiet s →
                    let t := commitOne (onItsWay s z (forReg d (extended n (!zx) old) false ea fl))
                    (∀ sp' m, homeByte t sp' m = match f old x y with
                      | some k => if sp' = sp ∧ pa ≤ m ∧ m < pa + n then BitVec.ofNat 8 (k / 256 ^ (m - pa)) else homeByte w sp' m
                      | none => homeByte w sp' m) ∧
                    t.gv.wbuf = (if pathOf ea = 0 ∧ (f old x y).isSome = true
                      then w.gv.wbuf.filter (fun e => !(e.strm == s.sel && decide (pa ≤ e.pa) && decide (e.pa < pa + n))) else w.gv.wbuf) ∧
                    SameG s t ∧ SameCtl s t ∧ (cur t).pc = (cur s).pc)))))

/-- A FENCE that names stores before it at a scope above the Grove publishes, and waits for a provisional task and while
its release waits; any FENCE waits while the loads or atomics (an SHRES write not performed yet is one), the jobs, the
canopy commands or, at system scope, the collectives that it names are under way; otherwise it completes, the clean
path 0 lines dropped where it names loads after it at a scope above the Grove. An enabled PREF completes for every
operand and state and changes no G register, no byte of memory, no control register but HINTDROP, which stands or
counts one dropped hint, and not the pc. (Rests on spec/12_memory_sync_instructions.md, Fences,
spec/05_memory_model.md.) -/
def Obligations.FencesAndPrefetches : Prop :=
  (∀ (q : Guard) (pred succ : BitVec 5) (scope : BitVec 3) (s : State), guardOn (cur s) q = true →
    let pub := pred.getLsbD 1 && decide (scope ≠ 0)
    let out (u : State) : State := if succ.getLsbD 0 = true ∧ scope ≠ 0 then dropPath0 u else u
    let done (u : State) : Prop := (pred.getLsbD 0 = true ∨ pred.getLsbD 2 = true → ∀ p ∈ (cur u).pend, p.asks = []) ∧
      (pred.getLsbD 2 = true → ∀ w ∈ u.gv.shres, w.strm ≠ u.sel) ∧
      (pred.getLsbD 3 = true → ∀ j ∈ u.gv.jobs, j.strm ≠ u.sel) ∧ (pred.getLsbD 4 = true → canopyDone u (cur u) = true) ∧
      (scope = 4 → ∀ j ∈ u.gv.jobs, j.strm = u.sel → j.op ≠ 0x106 ∧ j.op ≠ 0x107)
    (pub = true → (cur s).prov = true → exec (.fence q pred succ scope) s = .next (waitOne id s)) ∧
    (pub = true → (cur s).prov = false → (release s).isOk = false →
      exec (.fence q pred succ scope) s = .next (waitOne (publish (ofStream s.sel)) s)) ∧
    (pub = true → (cur s).prov = false → ∀ u, release s = .ok u →
      (done u → exec (.fence q pred succ scope) s = .next (commitOne (out u))) ∧
      (¬ done u → exec (.fence q pred succ scope) s = .next (waitOne id s))) ∧
    (pub = false → done s → exec (.fence q pred succ scope) s = .next (commitOne (out s))) ∧
    (pub = false → ¬ done s → exec (.fence q pred succ scope) s = .next (waitOne id s))) ∧
  ∀ (q : Guard) (lvl : BitVec 6) (a : Reg) (off : BitVec 14) (s : State), guardOn (cur s) q = true → Quiet s →
    ∃ t, exec (.pref q lvl a off) s = .next t ∧ SameG s t ∧ SameMem s t ∧ (cur t).pc = (cur s).pc ∧
      (∀ b m, m ≠ 0x802 → ctlRead t b m = ctlRead s b m) ∧
      (t.gv.hintdrop = s.gv.hintdrop ∨ t.gv.hintdrop = min 0xFFFFFFFF (s.gv.hintdrop + 1))

/-- For an enabled barrier op of a launch, with AG and DG the generations of its shape at the Grove. A subgroup that is
not inside the rectangle is BAR_GROUP. BAR.ARRIVE waits until AG = DG and then counts AG up; BAR.WAIT completes where
DG has reached AG, or the generation at which it began to wait, and else waits remembering it. BAR.PHASE always
completes and marks the Grove arrived in EXPLICIT mode only. A phase-mode BARR is BAR_LATE after the Grove's arrival,
and otherwise folds its value and answers the previous phase's value, or the identity where there is none; any other
BARR arrives with its value and waits, and completes with the generation's result once it is there; both wait for a
provisional task. What BAR.WAIT reads of the generations, and BAR_LATE of the arrivals, is what the stream sees: an
arrival in a two-cycle issue of the other stream is not there before that has been shown (R234). (Rests on
spec/12_memory_sync_instructions.md, Barriers and tree reductions, spec/05_memory_model.md.) -/
def Obligations.BarriersAndReductions : Prop :=
  ∀ (q : Guard) (h : BarShape) (d a : Reg) (rop : BitVec 3) (s : State), guardOn (cur s) q = true →
    let n := (cur s).launch
    let l := launchOf s n
    let b := barOf l (shapeKey h)
    let o := barOf (launchOf (seen s) n) (shapeKey h)
    (groupOk s l h = false → exec (.barArrive q h) s = .next (takeFault s.sel 32 ⟨.barGroup, 0, 0⟩ s) ∧
      exec (.barWait q h) s = .next (takeFault s.sel 32 ⟨.barGroup, 0, 0⟩ s) ∧
      ((cur s).prov = false → exec (.barr q d a h rop false) s = .next (takeFault s.sel 32 ⟨.barGroup, 0, 0⟩ s))) ∧
    (∀ ph, (cur s).prov = true → exec (.barr q d a h rop ph) s = .next (waitOne id s)) ∧
    (groupOk s l h = true →
      (b.ag ≠ b.dg → exec (.barArrive q h) s = .next (waitOne id s)) ∧
      (b.ag = b.dg → ∃ t, exec (.barArrive q h) s = .next (commitOne t) ∧ OnlyLaunch s t n ∧
        (barOf (launchOf t n) (shapeKey h)).ag = b.ag + 1 ∧ (barOf (launchOf t n) (shapeKey h)).dg = b.dg) ∧
      ((cur s).barGen = none → o.ag ≤ o.dg → exec (.barWait q h) s = .next (commitOne s)) ∧
      ((cur s).barGen = none → o.dg < o.ag → exec (.barWait q h) s = .next (waitOne (setGen (some (shapeKey h, o.ag))) s)) ∧
      (∀ k g, (cur s).barGen = some (k, g) →
        (g ≤ o.dg → exec (.barWait q h) s = .next (commitOne (setGen none s))) ∧
        (o.dg < g → exec (.barWait q h) s = .next (waitOne id s))) ∧
      ((cur s).prov = false → (cur s).barGen = none → b.ag = b.dg → exec (.barr q d a h rop false) s =
        .next (waitOne (fun u => setGen (some (shapeKey h, b.ag + 1))
          (arrive n (shapeKey h) (some rop.toNat) (barrValue rop.toNat (gOf s a)) u)) s)) ∧
      ((cur s).prov = false → ∀ g r fl, (cur s).barGen = some g → (cur s).barRes = some (r, fl) →
        exec (.barr q d a h rop false) s = .next (commitOne (onItsWay s (setGen none s) (forReg d r false 0 fl)))) ∧
      ((cur s).prov = false → (cur s).barGen ≠ none ∧ (cur s).barRes = none ∨ (cur s).barGen = none ∧ b.ag ≠ b.dg →
        exec (.barr q d a h rop false) s = .next (waitOne id s))) ∧
    (opExplicit l = true → ∃ t, exec (.barPhase q) s = .next (commitOne t) ∧ OnlyLaunch s t n ∧ s.gv.id ∈ (launchOf t n).arrived ∧
      ∀ g ∈ l.arrived, g ∈ (launchOf t n).arrived) ∧
    (opExplicit l = false → exec (.barPhase q) s = .next (commitOne s)) ∧
    (hasArrived s (launchOf (seen s) n) = true → (cur s).prov = false →
      exec (.barr q d a h rop true) s = .next (takeFault s.sel 32 ⟨.barLate, 0, 0⟩ s)) ∧
    (hasArrived s (launchOf (seen s) n) = false → (cur s).prov = false →
      let u := modLaunch s n (phaseFold rop.toNat (barrValue rop.toNat (gOf s a)))
      exec (.barr q d a h rop true) s = .next (commitOne (onItsWay u u (forReg d
        (if rop.toNat ∈ l.phResSet then rget 0 l.phRes rop.toNat else ropIdent rop.toNat) false 0
        (if rop = 7 ∧ rop.toNat ∈ l.phResSet then l.phFlags else 0)))))

/-- BARRIER_NODE_COMPLETE of a live launch's shape whose generation is open at the Grove and whose Groves inside the
rectangle are this Grove and those named answers a state in which DG equals AG. Where the contributions have one ROP,
every stream waiting for that generation holds the value of R303's tree over them, Groves without one giving the
identity. Where no Grove contributes, as in a plain barrier, the value is 0 with no flag, and a stream in BAR.WAIT
goes on because DG has reached its generation. Where two ROPs differ, every waiter receives 0 and the BAR_MISMATCH
record is sent to the launch's fault queue. No other stream and no G register changes, and but for that record no byte
of memory and nothing of the Grove. (Rests on spec/12_memory_sync_instructions.md, Barriers and tree reductions.) -/
def Obligations.NodeCompletionFreesTheWaiters : Prop :=
  ∀ (n key : Nat) (others : List (Nat × Option Nat × Word)) (s : State),
    let l := launchOf s n
    let b := barOf l key
    let node := shapeNode s l key
    let all := (s.gv.id, b.rop, b.val) :: others
    let waits (b' : Bool) : Prop := (strm s b').launch = n ∧ (strm s b').barGen = some (key, b.ag)
    let frees (t : State) (r : Word × Word) : Prop :=
      exec (.barrierNodeComplete n key others) s = .next t ∧
      (barOf (launchOf t n) key).dg = b.ag ∧ (barOf (launchOf t n) key).ag = b.ag ∧
      (∀ b', waits b' → (strm t b').barRes = some r ∧ (strm t b').barGen = (strm s b').barGen) ∧
      (∀ b', ¬ waits b' → strm t b' = strm s b') ∧ SameG s t
    liveLaunch l = true → b.ag ≠ b.dg →
    (∀ g, g < 256 → node.has g = true → inRect l g = true → ∃ o ∈ all, o.1 = g) →
    (∀ rop, (∀ o ∈ all, o.2.1 = some rop ∨ o.2.1 = none) → (∃ o ∈ all, o.2.1 = some rop) →
      let leaf (g : Nat) : Word := match all.find? (fun o => o.1 == g && o.2.1.isSome && inRect l g) with
        | some o => o.2.2
        | none => ropIdent rop
      ∃ t, frees t (treeReduce rop leaf (node.a + node.b) node) ∧ SameMem s t ∧ t.gv = s.gv) ∧
    ((∀ o ∈ all, o.2.1 = none) → ∃ t, frees t (0, 0) ∧ SameMem s t ∧ t.gv = s.gv) ∧
    (∀ r₁ r₂, (∃ o ∈ all, o.2.1 = some r₁) → (∃ o ∈ all, o.2.1 = some r₂) → r₁ ≠ r₂ →
      let u := launchCond n .barMismatch s
      ∃ t, frees t (0, 0) ∧ SameMem u t ∧ t.dev.evrings = u.dev.evrings ∧ t.dev.ringWait = u.dev.ringWait ∧ t.dev.irqs = u.dev.irqs)

/-- For every integer or logical operation of BARR, every node of sides 2^a and 2^b and all contributions: the value that
R303's tree gives is the fold of the operation over the Groves of the node in row order, starting from the operation's
identity, and no flag is raised. (FADD, whose order matters, is left out.) (Rests on
spec/12_memory_sync_instructions.md, Barriers and tree reductions.) -/
def Obligations.ReductionOrderIsImmaterialForIntegers : Prop :=
  ∀ (rop : Nat) (leaf : Nat → Word) (node : Node), rop < 7 →
    treeReduce rop leaf (node.a + node.b) node =
      ((nodeGroves node).foldl (fun r g => (ropCombine rop r (leaf g)).1) (ropIdent rop), 0)

/-- A CADD of a provisional task waits. Otherwise, with a the effective address of a counter op: MISALIGNED where a is not
a multiple of 8, whatever its path (the model's choice, notes/assumptions/40.md); else the fault of R113's checks;
else PATH_USE on path 6; else the fault or wait of the translation; else PATH_USE on another path than 0 and 2. Where
a translates to pa: CREAD answers the word that its stream sees, lost where its line is uncorrectable. CWAIT and CADD
ask for the line and wait while it is not at hand (notes/assumptions/90.md); where it is uncorrectable or the request
found nothing, they answer a lost result and no byte changes. Else CWAIT answers the word where it is at least G[B]
unsigned, dropping the clean path 0 lines, and otherwise waits remembering the place and target; CADD, which waits for
its release, writes the word whose low 63 bits are the sum modulo 2^63 and whose bit 63 is set if it was or G[B]'s is,
answers the old word, and changes no other byte; on path 0 it drops the stream's buffered bytes at its place.
CWAIT_SATISFIED lets the waiting stream go on exactly where the word has reached the target or is lost, and changes
nothing elsewhere (notes/assumptions/5.md). Each answer is on its way while its request keeps the limits of R117 (else
the op waits). A word with bit 63 set satisfies every target below 2^63. (Rests on
spec/12_memory_sync_instructions.md, Counters, spec/05_memory_model.md, Completion counters.) -/
def Obligations.CountersAtHome : Prop :=
  (∀ (q : Guard) (d a b : Reg) (off : BitVec 14) (s : State) (ea : Nat) (i : Instr) (kind : AKind),
    guardOn (cur s) q = true → effAddr (gOf s a) off.toInt = .ok ea →
    (i = .cwait q d a b off ∧ kind = .ld ∨ i = .cread q d a off ∧ kind = .ld ∨
      i = .cadd q d a b off ∧ kind = .amo ∧ (cur s).prov = false) →
    (ea % 8 ≠ 0 → exec i s = .next (takeFault s.sel 32 ⟨.misaligned, 0, w64 ea⟩ s)) ∧
    (ea % 8 = 0 → ∀ e, addrCheck .ld ea 8 = .error e → exec i s = stopped 32 e s) ∧
    (ea % 8 = 0 → addrCheck .ld ea 8 = .ok () →
      (pathOf ea ≠ 6 → ∀ e, xlateOp kind ea s = .error e → exec i s = stopped 32 e s) ∧
      (pathOf ea = 6 ∨ pathOf ea ≠ 0 ∧ pathOf ea ≠ 2 ∧ (xlateOp kind ea s).isOk = true →
        exec i s = .next (takeFault s.sel 32 ⟨.pathUse, 0, w64 ea⟩ s)))) ∧
  (∀ (q : Guard) (d a b : Reg) (off : BitVec 14) (s : State), guardOn (cur s) q = true → (cur s).prov = true →
    exec (.cadd q d a b off) s = .next (waitOne id s)) ∧
  (∀ (q : Guard) (d a b : Reg) (off : BitVec 14) (s u : State) (ea pa : Nat) (sp : Space) (uc : Bool), guardOn (cur s) q = true →
    effAddr (gOf s a) off.toInt = .ok ea → ea % 8 = 0 → addrCheck .ld ea 8 = .ok () → pathOf ea = 0 ∨ pathOf ea = 2 →
    let v := homeWord (seen s) .dev pa
    (xlateOp .ld ea s = .ok ((sp, pa, uc), u) →
      CompletesLater (exec (.cread q d a off) s) s (askHome .dev pa (dropLine (pa / 128) u)) (forReg d v (lineUe s .dev pa 8) ea 0) ∧
      (let r := inHand false u (askHome .dev pa u)
       let i : Instr := .cwait q d a b off
       (∀ e, r = .error e → exec i s = stopped 32 e s) ∧
       ∀ lost y, r = .ok (lost, y) →
         let z := modCur y (fun c => { c with cw := none })
         SameMem s z ∧ SameG s z ∧
         (lost = true ∨ lineUe s .dev pa 8 = true → CompletesLater (exec i s) s z (forReg d 0 true ea 0)) ∧
         (lost = false → lineUe s .dev pa 8 = false →
           (gNat s b ≤ v.toNat → CompletesLater (exec i s) s (dropPath0 z) (forReg d v false ea 0)) ∧
           (v.toNat < gNat s b →
             exec i s = .next (waitOne (fun u => modCur u (fun c => { c with cw := some (pa, gOf s b) })) s))))) ∧
    (xlateOp .amo ea s = .ok ((sp, pa, uc), u) → (cur s).prov = false →
      let i : Instr := .cadd q d a b off
      (∀ e, release u = .error e → exec i s = stopped 32 e s) ∧
      ∀ w, release u = .ok w →
        let r := inHand false w (askHome .dev pa (dropLine (pa / 128) w))
        (∀ e, r = .error e → exec i s = stopped 32 e s) ∧
        ∀ lost y, r = .ok (lost, y) →
          (lost = true ∨ lineUe y .dev pa 8 = true → SameMem w y ∧ CompletesLater (exec i s) s y (forReg d 0 true ea 0)) ∧
          (lost = false → lineUe y .dev pa 8 = false →
            let old := homeWord w .dev pa
            let new := BitVec.ofNat 64 ((old.toNat % 2 ^ 63 + gNat s b % 2 ^ 63) % 2 ^ 63) |||
              ((old ||| gOf s b) &&& 0x8000000000000000)
            ∃ t, CompletesLater (exec i s) s t (forReg d old false ea 0) ∧ t.reqs = s.reqs + 1 ∧ homeWord t .dev pa = new ∧
              t.gv.wbuf = (if pathOf ea = 0
                then w.gv.wbuf.filter (fun e => !(e.strm == s.sel && decide (pa ≤ e.pa) && decide (e.pa < pa + 8))) else w.gv.wbuf) ∧
              ∀ sp' x, sp' ≠ .dev ∨ x < pa ∨ pa + 8 ≤ x → homeByte t sp' x = homeByte w sp' x))) ∧
  (∀ (b : Bool) (s : State) (pa : Nat) (v : Word), (strm s b).cw = some (pa, v) →
    (lineUe s .dev pa 8 = true ∨ v.toNat ≤ (homeWord s .dev pa).toNat →
      ∃ t, exec (.cwaitSatisfied b) s = .next t ∧ (strm t b).status ≠ .stalled ∧ SameMem s t ∧ SameG s t) ∧
    (lineUe s .dev pa 8 = false → (homeWord s .dev pa).toNat < v.toNat → exec (.cwaitSatisfied b) s = .next s)) ∧
  ∀ (w v : Word), w.getLsbD 63 = true → v.toNat < 2 ^ 63 → v.toNat ≤ w.toNat

/-- For an enabled queue op: a queue number above 255 or outside the partition's share is QUEUE_BAD, and so is a DISPATCH
queue for WQDEQ and WQPEEK. WQENQ of a record whose launch is live and the partition's, into a mailbox or the queue
bound to it, with room, by a task whose release completes, enqueues the row's four words released and answers the
form-0 reference; a record of another launch is BAD_RECORD, one of a live launch of another partition too (the model's
choice, notes/assumptions/31.md). WQDEQ and WQPEEK of a mailbox answer the first of its first 128 records with JOIN 0
in the row and its reference in G[D], WQDEQ removing it, and all ones with no row written where there is none. JDEC of
a record with JOIN above 0 answers JOIN − 1 and marks the record released, and JOIN_UNDERFLOW where there is none.
WQENQ and JDEC wait while their release does. Which record WQDEQ, WQPEEK and JDEC find is what their stream sees of
the queues, of those records still there (R234). A provisional task waits before WQENQ and WQDEQ, and before a JDEC
that names a record outside its launch or of another tile, whatever else is wrong with it. (Rests on
spec/12_memory_sync_instructions.md, Work queues and join counters.) -/
def Obligations.WorkQueueOps : Prop :=
  ∀ (q : Guard) (m : Mrf) (d a : Reg) (s : State), guardOn (cur s) q = true →
    let c := cur s
    let k := gNat s a
    let row := mrfIdx m
    let o := seen s
    let good := k ≤ 255 ∧ queueShare o (partOf o c) k = true
    let n := recLaunch (rowWord s row 3)
    (s.late = none → mailFind s k = mailHead (queueOf s k) ∧ jdecFind s c k = refRec s c k) ∧
    (c.prov = true → ∀ i, i = .wqenq q m d a ∨ i = .wqdeq q m d a → exec i s = .next (waitOne id s)) ∧
    (¬ good → ∀ i, (i = .wqenq q m d a ∨ i = .wqdeq q m d a) ∧ c.prov = false ∨ i = .wqpeek q m d a →
      exec i s = .next (takeFault s.sel 32 ⟨.queueBad, 0, 0⟩ s)) ∧
    (good → RowOk s row →
      (liveLaunch (launchOf s n) = true → (launchOf s n).part = partOf o c →
        (queueOf s k).mailbox = true ∨ (queueOf s k).bound = some n →
        (queueFull (queueOf s k) = true → exec (.wqenq q m d a) s = .next (waitOne id s)) ∧
        (c.prov = false → queueFull (queueOf s k) = false → ∀ e, release s = .error e → exec (.wqenq q m d a) s = stopped 32 e s) ∧
        (c.prov = false → queueFull (queueOf s k) = false → ∀ u, release s = .ok u →
          exec (.wqenq q m d a) s = .next (commitOne (onItsWay u
            (enqueue k (rowWord s row 0) (rowWord s row 1) (rowWord s row 2) (rowWord s row 3) true u)
            (forReg d (nextRef u k) false 0 0))))) ∧
      (c.prov = false → liveLaunch (launchOf s n) = false ∨ (launchOf s n).part ≠ partOf o c ∨
          (queueOf s k).mailbox = false ∧ (queueOf s k).bound ≠ some n →
        exec (.wqenq q m d a) s = .next (takeFault s.sel 32 ⟨.badRecord, 0, 0⟩ s)) ∧
      ((queueOf s k).mailbox = false →
        (c.prov = false → exec (.wqdeq q m d a) s = .next (takeFault s.sel 32 ⟨.queueBad, 0, 0⟩ s)) ∧
        exec (.wqpeek q m d a) s = .next (takeFault s.sel 32 ⟨.queueBad, 0, 0⟩ s)) ∧
      ((queueOf s k).mailbox = true → mailFind s k = none →
        exec (.wqpeek q m d a) s = .next (commitOne (onItsWay s s (forReg d (-1) false 0 0))) ∧
        (c.prov = false → exec (.wqdeq q m d a) s = .next (commitOne (onItsWay s s (forReg d (-1) false 0 0))))) ∧
      ((queueOf s k).mailbox = true → ∀ e, mailFind s k = some e →
        let p : Pending := { gdst := if d = 0 then [] else [(d.toNat, BitVec.ofNat 64 (e.serial * 256 + k))],
                             mdst := pendLanes 0 row ((List.range 32).zip (recLanes e)) }
        exec (.wqpeek q m d a) s = .next (commitOne (onItsWay s s p)) ∧
        (c.prov = false → ∃ t, exec (.wqdeq q m d a) s = .next (commitOne (onItsWay t t p)) ∧
          queueOf t k = { queueOf s k with entries := (queueOf s k).entries.erase e } ∧ SameMem s t ∧ SameG s t))) ∧
    let own (e : QEntry) : Prop := recLaunch e.w3 = c.launch ∧ tile48 e.w1 e.w2 = tile48 c.r1 c.r2
    let away : Prop := if k / 2 ^ 63 = 1 then k / 2 ^ 48 = 2 ^ 15 ∧ k % 2 ^ 48 ≠ tile48 c.r1 c.r2
      else ∃ p e, refRec o c k = some (p, e) ∧ ¬ own e
    (c.prov = true → away → exec (.jdec q d a) s = .next (waitOne id s)) ∧
    (c.prov = false ∨ ¬ away →
      (k / 2 ^ 32 = 0 → queueShare o (partOf o c) (k % 256) = false →
        exec (.jdec q d a) s = .next (takeFault s.sel 32 ⟨.queueBad, 0, 0⟩ s)) ∧
      (k / 2 ^ 32 ≠ 0 ∨ queueShare o (partOf o c) (k % 256) = true →
        (jdecFind s c k = none → exec (.jdec q d a) s = .next (takeFault s.sel 32 ⟨.joinUnderflow, 0, 0⟩ s)) ∧
        ∀ p e, jdecFind s c k = some (p, e) →
          (recJoin e.w0 = 0 → exec (.jdec q d a) s = .next (takeFault s.sel 32 ⟨.joinUnderflow, 0, 0⟩ s)) ∧
          (recJoin e.w0 ≠ 0 → c.prov = false → ∀ e, release s = .error e → exec (.jdec q d a) s = stopped 32 e s) ∧
          (recJoin e.w0 ≠ 0 → ∀ u, (if c.prov then u = s else release s = .ok u) →
            let t := modQueue u p (fun k => { k with entries := k.entries.replace e { e with w0 := e.w0 - 1, released := true } })
            exec (.jdec q d a) s = .next (commitOne (onItsWay t t (forReg d (BitVec.ofNat 64 (recJoin e.w0 - 1)) false 0 0))))))

/-- TALLOC of a shape with a zero dimension takes ILLEGAL_ENC; otherwise it completes: with the lowest free number (the
model's choice, notes/assumptions/18.md) and parts to hold it, G[D] is that number and only that handle changes, else
G[D] is all ones and nothing else changes. TFREE of a number that the task may not use takes TILE_RANGE, with a row
open in a bank of its rows CANOPY_STATE, and otherwise completes, after which the task may not use the number, every
other handle stands, but that one freed earlier which no job names any more goes back to the pool, and nothing of the
machine beside the handle table changes: neither memory, nor a stream, nor the device. TQRY never faults: it answers
the shape or attribute word of a usable handle and 0 for any other, and changes nothing else. BALLOC never faults: it
answers the arena top for 0, all ones where the rounded size does not fit, and otherwise the old top, moving the top
on by the size rounded up to 256. No byte of memory changes. What TQRY and BALLOC of 0 read is what the stream sees
(R234). (Rests on spec/12_memory_sync_instructions.md, Tile handles and the arena, spec/04_storage_levels.md.) -/
def Obligations.TileHandlesAndArena : Prop :=
  ∀ (q : Guard) (d a : Reg) (can ll : Bool) (fb wc : BitVec 5) (sel : BitVec 2) (s : State), guardOn (cur s) q = true →
    let sh := gOf s a
    let nh : Handle := { alloc := true, canopy := can, launchLife := ll, wcode := wc.toNat, shape := sh, fbank := fb.toNat,
                         task := (cur s).task, launch := (cur s).launch, prov := (cur s).prov, tile := tileOf (seen s) (cur s) }
    let h := handleOf s (gNat s a)
    let o := handleOf (seen s) (gNat s a)
    let open_ : Prop := h.canopy = true ∧ ∃ j, j < h.parts.length ∧ (bankOf s ((h.fbank + j) % 32)).openRow ≠ none
    let l := launchOf s (cur s).launch
    let len := 256 * ((gNat s a + 255) / 256)
    (shapeOk sh = false → exec (.talloc q d a can ll fb wc) s = .next (takeFault s.sel 32 ⟨.illegalEnc, 0, 0⟩ s)) ∧
    (shapeOk sh = true → ∀ n ps, freeHandle s = some n → pickParts s can fb.toNat (handleBytes nh) = some ps →
      ∃ t, exec (.talloc q d a can ll fb wc) s = .next (commitOne (setG t d (BitVec.ofNat 64 n))) ∧
        handleOf t n = { nh with parts := ps } ∧ OnlyHandles s t n) ∧
    (shapeOk sh = true → freeHandle s = none ∨ pickParts s can fb.toNat (handleBytes nh) = none →
      exec (.talloc q d a can ll fb wc) s = .next (commitOne (setG s d 0xFFFFFFFFFFFFFFFF))) ∧
    (256 ≤ gNat s a ∨ usable h (cur s) = false → exec (.tfree q a) s = .next (takeFault s.sel 32 ⟨.tileRange, 0, 0⟩ s)) ∧
    (gNat s a < 256 → usable h (cur s) = true → open_ →
      exec (.tfree q a) s = .next (takeFault s.sel 32 ⟨.canopyState, 0, 0⟩ s)) ∧
    (gNat s a < 256 → usable h (cur s) = true → ¬ open_ →
      ∃ t, exec (.tfree q a) s = .next (commitOne t) ∧ usable (handleOf t (gNat s a)) (cur s) = false ∧
        t = { s with gv := { s.gv with handles := t.gv.handles } } ∧
        (∀ k, k ≠ gNat s a → handleOf t k = handleOf s k ∨ (handleOf s k).freed = true ∧ jobNames s k = false) ∧
        ∀ x ∈ t.gv.handles, x.1 ≠ gNat s a → x ∈ s.gv.handles ∧ (x.2.freed = false ∨ jobNames s x.1 = true)) ∧
    (exec (.tqry q d a sel) s = .next (commitOne (setG s d
      (if gNat s a < 256 ∧ usable o (cur s) = true then (if sel = 0 then o.shape else attrWord o) else 0)))) ∧
    (gNat s a = 0 → exec (.balloc q d a) s =
      .next (commitOne (setG s d (BitVec.ofNat 64 (launchOf (seen s) (cur s).launch).arenaTop)))) ∧
    (2 ^ 32 < gNat s a ∨ gNat s a ≠ 0 ∧ opArena l + opArenaSize l < l.arenaTop + len →
      exec (.balloc q d a) s = .next (commitOne (setG s d 0xFFFFFFFFFFFFFFFF))) ∧
    (0 < gNat s a → gNat s a ≤ 2 ^ 32 → l.arenaTop + len ≤ opArena l + opArenaSize l →
      ∃ t, exec (.balloc q d a) s = .next (commitOne (setG t d (BitVec.ofNat 64 l.arenaTop))) ∧ OnlyLaunch s t (cur s).launch ∧
        (launchOf t (cur s).launch).arenaTop = l.arenaTop + len)

/-- For a canopy command whose row reference resolves to a bank and row: where the engine holds the bank or another task
does, or the bank's row is not as the command needs it, CANOPY_STATE; a CST to a weight row CANOPY_RO. Else it waits
while a refresh stalls the Grove, the bank is not free yet or, for CLD and CST, the bus is not; the takeover of a bank
whose last refresh is old first waits for its refresh. Then, where a spacing of R101 has not passed, CANOPY_EARLY;
otherwise the command completes: CACT opens the row now, CPRE closes the bank now, CREF refreshes it now, CLD takes
the bus for a cycle and owes 128 bytes of the row to its MRF row in 48 cycles, CST writes the MRF row's 128 bytes
there; the task then holds the bank. A CPRE of a closed bank that is the task's or nobody's changes nothing (that it
takes no hold of nobody's bank is the model's choice, notes/assumptions/78.md). (Rests on
spec/12_memory_sync_instructions.md, Canopy commands, spec/04_storage_levels.md, The canopy.) -/
def Obligations.CanopyCommands : Prop :=
  ∀ (q : Guard) (m : Mrf) (a : Reg) (off : BitVec 14) (step : Bool) (s : State) (bank row : Nat) (wt : Bool),
    guardOn (cur s) q = true → resolveRow (ctxAt .c s) (gOf s a) s = .ok (bank, row, wt) →
    let k := bankOf s bank
    let task := (cur s).task
    let mine := k.eng = none ∧ (k.holder = none ∨ k.holder = some task)
    let calm := s.gv.stallTo ≤ s.now ∧ k.freeAt ≤ s.now
    let recent := k.holder = none → s.now ≤ k.lastRef + 2928
    let free := calm ∧ recent
    let rowOp := 0 ≤ off.toInt ∧ off.toInt ≤ 8064 ∧ RowOk s (mrfIdx m)
    let busOp (i : Instr) : Prop := i = .cld q m a off step ∨ i = .cst q m a off step ∧ wt = false
    (¬ mine ∨ k.openRow ≠ none → ∀ i, i = .cact q a ∨ i = .cref q a →
      exec i s = .next (takeFault s.sel 32 ⟨.canopyState, 0, 0⟩ s)) ∧
    (¬ mine → exec (.cpre q a) s = .next (takeFault s.sel 32 ⟨.canopyState, 0, 0⟩ s)) ∧
    (wt = true → exec (.cst q m a off step) s = .next (takeFault s.sel 32 ⟨.canopyRo, 0, 0⟩ s)) ∧
    (rowOp → ¬ mine ∨ k.openRow ≠ some row → ∀ i, busOp i → exec i s = .next (takeFault s.sel 32 ⟨.canopyState, 0, 0⟩ s)) ∧
    (mine → ¬ calm → ∀ i, (i = .cact q a ∨ i = .cref q a) ∧ k.openRow = none ∨ i = .cpre q a ∧ k.openRow ≠ none ∨
      busOp i ∧ rowOp ∧ k.openRow = some row → exec i s = .next (waitOne id s)) ∧
    (mine → k.openRow = none → calm → ¬ recent → ∀ i, i = .cact q a ∨ i = .cref q a →
      ∃ t, exec i s = .next (waitOne id t) ∧ OnlyBank s t bank ∧ bankOf t bank = { k with lastRef := s.now, freeAt := s.now + 240 }) ∧
    (rowOp → mine → k.openRow = some row → free → busReady s = false → ∀ i, busOp i → exec i s = .next (waitOne id s)) ∧
    (mine → k.openRow = none → free → ¬ pastAct k s.now → ∀ i, i = .cact q a ∨ i = .cref q a →
      exec i s = .next (takeFault s.sel 32 ⟨.canopyEarly, 0, 0⟩ s)) ∧
    (mine → k.openRow = none → free → pastAct k s.now →
      (∃ t, exec (.cact q a) s = .next (commitOne t) ∧ OnlyBank s t bank ∧
        bankOf t bank = { k with holder := some task, openRow := some row, tAct := some s.now }) ∧
      (∃ t, exec (.cref q a) s = .next (commitOne t) ∧ OnlyBank s t bank ∧
        bankOf t bank = { k with holder := some task, tRef := some s.now, lastRef := s.now })) ∧
    (mine → k.openRow = none → exec (.cpre q a) s = .next (commitOne s)) ∧
    (mine → k.openRow ≠ none → free → ¬ pastPre k s.now →
      exec (.cpre q a) s = .next (takeFault s.sel 32 ⟨.canopyEarly, 0, 0⟩ s)) ∧
    (mine → k.openRow ≠ none → free → pastPre k s.now →
      ∃ t, exec (.cpre q a) s = .next (commitOne t) ∧ OnlyBank s t bank ∧
        bankOf t bank = { k with holder := some task, openRow := none, tPre := some s.now }) ∧
    (rowOp → mine → k.openRow = some row → free → busReady s = true → ¬ pastUse k s.now → ∀ i, busOp i →
      exec i s = .next (takeFault s.sel 32 ⟨.canopyEarly, 0, 0⟩ s)) ∧
    (rowOp → mine → k.openRow = some row → free → busReady s = true → pastUse k s.now →
      (∃ t, exec (.cld q m a off step) s = .next (commitOne t) ∧ t.gv.busFree = s.now + 1 ∧ t.gv.canopy = s.gv.canopy ∧
        bankOf t bank = { k with holder := some task, tCld := some s.now } ∧ (∀ n, n ≠ bank → bankOf t n = bankOf s n) ∧
        SameMem s t ∧ t.gv.mrf = s.gv.mrf ∧
        t.gv.clds = s.gv.clds ++ [CldMove.mk (s.now + 48) (mrfIdx m) (bytesLanes 32 (canopyBytes s bank row off.toInt.toNat 128)) task]) ∧
      (wt = false → ∃ t, exec (.cst q m a off step) s = .next (commitOne t) ∧ t.gv.busFree = s.now + 1 ∧
        bankOf t bank = { k with holder := some task, tCst := some s.now } ∧ (∀ n, n ≠ bank → bankOf t n = bankOf s n) ∧
        SameMem s t ∧ t.gv.mrf = s.gv.mrf ∧ t.gv.clds = s.gv.clds ∧
        t.gv.canopy = (putCanopy s bank row off.toInt.toNat (laneBytes (mrfRow s (mrfIdx m)))).gv.canopy))

/-- CLD_DELIVERY writes the lanes of the first move whose cycle has come to its MRF row, changes no other row and no byte
of memory, and removes the move. BACKGROUND_REFRESH of a bank below 32 that the engine does not hold, that no task at
the Grove holds and that is free makes now its last refresh, and changes nothing where that does not hold (that an
event that is not due changes nothing is the model's choice, notes/assumptions/5.md). EMERGENCY_REFRESH of a bank that
a task at the Grove holds (in a stream, or held there with its fault) at its due time makes now its last refresh,
clears its spacings, stalls both streams, a running one that neither waits in IDLE nor ends becoming STALLED, for 272
cycles where a row is open and 240 where none is, sets DEBT and counts DEBTCNT up, saturating; with DTRAP set the
holder's next bundle meets CANOPY_DEBT. (Rests on spec/04_storage_levels.md, The canopy.) -/
def Obligations.CanopyEvents : Prop :=
  (∀ (s : State) (m : CldMove), s.gv.clds.find? (fun m => decide (m.due ≤ s.now)) = some m → m.lanes.length = 32 →
    ∃ t, exec .cldDelivery s = .next t ∧ mrfRow t m.row = m.lanes ∧ (∀ r, r ≠ m.row → mrfRow t r = mrfRow s r) ∧
      t.gv.clds = s.gv.clds.erase m ∧ SameMem s t ∧ SameG s t) ∧
  (∀ (bank : Nat) (s : State), let k := bankOf s bank
    (bank < 32 → background s k = true → k.freeAt ≤ s.now →
      ∃ t, exec (.backgroundRefresh bank) s = .next t ∧ (bankOf t bank).lastRef = s.now ∧ OnlyBank s t bank) ∧
    (32 ≤ bank ∨ background s k = false ∨ s.now < k.freeAt → exec (.backgroundRefresh bank) s = .next s)) ∧
  ∀ (bank task : Nat) (s : State), let k := bankOf s bank
    k.holder = some task → (∃ b, hasTask (strm s b) = true ∧ (strm s b).task = task) ∨ (∃ c ∈ s.gv.heldTasks, c.task = task) →
    k.eng = none → k.lastRef + 5856 ≤ s.now →
    ∃ t, exec (.emergencyRefresh bank) s = .next t ∧ (bankOf t bank).lastRef = s.now ∧ (bankOf t bank).openRow = k.openRow ∧
      (bankOf t bank).holder = some task ∧ (∀ n, minAt (bankOf t bank) n = 0) ∧
      (∀ b, (strm s b).status = .running → (strm s b).idleSeen = none → (strm s b).ending = false → (strm t b).status = .stalled) ∧
      t.gv.stallTo = max s.gv.stallTo (s.now + (if k.openRow = none then 240 else 272)) ∧
      t.gv.debt = true ∧ t.gv.debtcnt = min 0xFFFF (s.gv.debtcnt + 1) ∧
      (∀ b, s.gv.dtrap = true → hasTask (strm s b) = true → (strm s b).task = task → (strm t b).debtTrap = true) ∧
      SameMem s t ∧ SameG s t

/-- With h the handle number in the register: HTEST of selector 0 or 1 completes with the state word or the base of the
handle as the task's partition sees it, a handle bound elsewhere reading as INVALID, and as they were before a change
of state made in the same cycle; another selector is ILLEGAL_ENC. A register above 8,191 is ILLEGAL_ENC for the
others. HREQ of a live handle completes and raises its urgency to class 0; HPIN of a live handle completes where it
has fewer than 255 pins, adding one pin of the launch and pinning a RESIDENT handle, and is HANDLE_PINMAX at 255
unless it is FAULTED; a handle that is not live is HANDLE_INVALID for both. HREL always completes: it gives back one
pin that the launch holds. What they test of the handle is what the stream sees (R234), what they change is the
handle. No other handle and no byte of memory changes. (Rests on spec/12_memory_sync_instructions.md, Weight handles,
spec/23_expert_streaming.md.) -/
def Obligations.WeightHandleOps : Prop :=
  ∀ (q : Guard) (d a : Reg) (sel : BitVec 2) (s : State), guardOn (cur s) q = true →
    let o := seen s
    let part := partOf o (cur s)
    let h := gNat s a
    let n := (cur s).launch
    let sees := whSeen s.now part (whOf o (h % 8192))
    (1 < sel.toNat → exec (.htest q d a sel) s = .next (takeFault s.sel 32 ⟨.illegalEnc, 0, 0⟩ s)) ∧
    (sel = 0 → exec (.htest q d a sel) s = .next (commitOne (setG s d sees.1))) ∧
    (sel = 1 → exec (.htest q d a sel) s = .next (commitOne (setG s d sees.2))) ∧
    (∀ w, whOf o (h % 8192) = w → (∀ x, w.was = some x → x.1 ≠ s.now) →
      sees = (if w.part = part then (whWord w, whAddr w) else (0, 0))) ∧
    (∀ w f v, whOf s (h % 8192) = w → w.part = part → (∀ x, w.was = some x → x.1 ≠ s.now) → whOf (modWh s (h % 8192) f) (h % 8192) = v →
      v.part = part → v.st ≠ w.st → whSeen s.now part v = (whWord w, whAddr w)) ∧
    (8192 ≤ h → ∀ i, i = .hreq q a ∨ i = .hpin q a ∨ i = .hrel q a → exec i s = .next (takeFault s.sel 32 ⟨.illegalEnc, 0, 0⟩ s)) ∧
    (h < 8192 → whLive o part h = false → (∀ i, i = .hreq q a ∨ i = .hpin q a →
        exec i s = .next (takeFault s.sel 32 ⟨.handleInvalid, 0, 0⟩ s)) ∧
      exec (.hrel q a) s = .next (commitOne s)) ∧
    (h < 8192 → whLive o part h = true →
      (∃ t, exec (.hreq q a) s = .next (commitOne t) ∧ OnlyHandle s t h ∧
        ((whOf s h).st ≠ whFaulted → (whOf t h).urgent = true ∧ (whOf t h).cls = 0 ∧ (whOf t h).st = (whOf s h).st)) ∧
      (pinCount (whOf o h) < 255 ∨ (whOf o h).st = whFaulted → ∃ t, exec (.hpin q a) s = .next (commitOne t) ∧ OnlyHandle s t h ∧
        ((whOf s h).st ≠ whFaulted → rget 0 (whOf t h).pins n = rget 0 (whOf s h).pins n + 1) ∧
        ((whOf s h).st = whResident → (whOf t h).st = whPinned)) ∧
      (255 ≤ pinCount (whOf o h) → (whOf o h).st ≠ whFaulted →
        exec (.hpin q a) s = .next (takeFault s.sel 32 ⟨.handlePinmax, 0, 0⟩ s)) ∧
      ∃ t, exec (.hrel q a) s = .next (commitOne t) ∧ OnlyHandle s t h ∧
        (pinCount (whOf s h) ≠ 0 → rget 0 (whOf t h).pins n = rget 0 (whOf s h).pins n - 1))

/-- At kernel level each of the four takes PRIV. At a level above: L1INV completes and leaves no L1 line of the ASIDs it
names; TLBI whose release completes drops every TLB entry of the ASIDs it names, but on other pages for KIND 2, and
completes once nothing that was translated for them is in flight (the results, requests and running jobs that count as
in flight are the model's choice, notes/assumptions/39.md); an ASID outside the partition's share is ASID_BAD for
both. CTXSV of a stream that is idle, another partition's, a supervisor's or the issuer's own completes with all ones;
of any other stream of this Grove it asks for the save and waits. Of a stream of another Grove it completes with all
ones where that Grove's Glade is not the partition's; elsewhere the model, in which no other Grove runs, chooses
freely to wait or to answer all ones or a slot that holds no image of this Grove (notes/assumptions/1.md). CTXLD, its
release made, waits while a bank holds back the read of the image (notes/assumptions/90.md), and else completes with
the result code of the validation, or of the held job's replay or end. (Rests on spec/20_privilege_translation.md,
spec/21_traps_faults_preemption.md.) -/
def Obligations.SupervisorOps : Prop :=
  ∀ (q : Guard) (d a : Reg) (kind : BitVec 3) (s : State), guardOn (cur s) q = true →
    let o := seen s
    let part := partOf o (cur s)
    let v := gNat s a
    let inv := kind = 0 ∨ v < 4096 ∧ asidShare o part v = true
    let names (n : Nat) : Prop := if kind = 0 then asidShare o part n = true else n = v
    ((cur s).level = 0 → ∀ i, i = .tlbi q d a kind ∨ i = .l1inv q a kind ∨ i = .ctxsv q d a ∨ i = .ctxld q d a →
      exec i s = .next (takeFault s.sel 32 ⟨.priv, 0, 0⟩ s)) ∧
    ((cur s).level ≠ 0 → kind.toNat ≤ 2 → (kind = 0 → a = 0 ∧ d = 0) → (kind = 1 → d = 0) →
      (¬ inv → exec (.l1inv q a kind) s = .next (takeFault s.sel 32 ⟨.asidBad, 0, 0⟩ s) ∧
        exec (.tlbi q d a kind) s = .next (takeFault s.sel 32 ⟨.asidBad, 0, 0⟩ s)) ∧
      (inv → ∃ t, exec (.l1inv q a kind) s = .next (commitOne t) ∧ SameMem s t ∧ t.st0 = s.st0 ∧ t.st1 = s.st1 ∧ t.dev = s.dev ∧
        ∀ l ∈ t.gv.l1, l ∈ s.gv.l1 ∧ kind ≠ 0 ∧ ¬ names l.asid) ∧
      (inv → (cur s).prov = false → ∀ e, release s = .error e → exec (.tlbi q d a kind) s = stopped 32 e s) ∧
      (inv → (cur s).prov = false → ∀ u, release s = .ok u →
        ∃ t, SameMem u t ∧ t.st0 = s.st0 ∧ t.st1 = s.st1 ∧
          (∀ e ∈ t.dev.tlb, e ∈ u.dev.tlb ∧ (names e.asid → kind = 2 ∧ samePage e.size (65536 * e.page) (gNat s d) = false)) ∧
          (exec (.tlbi q d a kind) s = .next (commitOne t) ∨ exec (.tlbi q d a kind) s = .next (waitOne id t)) ∧
          ((∀ c, c = s.st0 ∨ c = s.st1 ∨ c ∈ s.gv.heldTasks → ¬ names c.asid ∨ c.pend = [] ∧ c.loose = []) →
            (∀ j ∈ s.gv.jobs, names j.asid → j.counts = false ∧ j.st ≠ .running ∧ j.st ≠ .heldWrites) →
            (∀ w ∈ u.gv.shres, ¬ names w.asid) →
            exec (.tlbi q d a kind) s = .next (commitOne t)))) ∧
    ((cur s).level ≠ 0 → v < 512 → v % 256 = s.gv.id → (cur s).prov = false → (cur s).svTask = none →
      let b := decide (256 ≤ v)
      let t := strm o b
      (hasTask t = false ∨ partOf o t ≠ part ∨ t.level ≠ 0 ∨ b = s.sel →
        ∃ u, exec (.ctxsv q d a) s = .next (commitOne u) ∧ gRead (cur u) d.toNat = (if d = 0 then 0 else 0xFFFFFFFFFFFFFFFF) ∧
          SameMem s u ∧ strm u (!s.sel) = strm s (!s.sel)) ∧
      (hasTask t = true → partOf o t = part → t.level = 0 → b ≠ s.sel →
        ∃ u, exec (.ctxsv q d a) s = .next u ∧ (cur u).svTask = some t.task ∧ (strm u b).saveWant ≠ none ∧ SameMem s u)) ∧
    ((cur s).level ≠ 0 → v < 512 → v % 256 ≠ s.gv.id → (cur s).prov = false →
      let i : Instr := .ctxsv q d a
      let f := takeFree s
      (gladeShare s part (gladeOf (v % 256)) = false → exec i s = .next (commitOne (setG s d 0xFFFFFFFFFFFFFFFF))) ∧
      (gladeShare s part (gladeOf (v % 256)) = true →
        exec i s = .next (waitOne (fun u => (takeFree u).2) s) ∨
        ∃ r, exec i s = .next (commitOne (setG f.2 d r)) ∧ (r = 0xFFFFFFFFFFFFFFFF ∨ ∃ k ∈ freeSlots s part, r = BitVec.ofNat 64 k))) ∧
    ((cur s).level ≠ 0 → v / 2 ^ 32 % 2 ^ 30 = 0 → (cur s).prov = false → ∀ e, release s = .error e → exec (.ctxld q d a) s = stopped 32 e s) ∧
    ((cur s).level ≠ 0 → v / 2 ^ 32 % 2 ^ 30 = 0 → (cur s).prov = false → ∀ u, release s = .ok u →
      v < 2 ^ 62 → imageWaits u part (v % 2 ^ 32) = true → exec (.ctxld q d a) s = .next (waitOne id s)) ∧
    ((cur s).level ≠ 0 → v / 2 ^ 32 % 2 ^ 30 = 0 → (cur s).prov = false → ∀ u, release s = .ok u →
      2 ^ 62 ≤ v ∨ imageWaits u part (v % 2 ^ 32) = false →
      let r := (if v / 2 ^ 63 = 1 then loadJob else loadImage) part (v % 2 ^ 32) (decide (v / 2 ^ 62 % 2 = 1)) u
      exec (.ctxld q d a) s = .next (commitOne (setG r.2 d (BitVec.ofNat 64 r.1))))

/-- With the micro position free and the array unowned or the task's own: MLDW of a type up to 24 that the array accepts,
from rows of the window, with the idle plane not LOADING, completes, and MLDWC does from an open canopy row with the
bank the task's or nobody's, nothing of the canopy to wait for and its spacing past (CANOPY_EARLY before): the array
is the task's, the idle plane is LOADING with exactly those bytes, type and latched format, READY at now plus 64, and
no memory byte, MRF lane or accumulator changes. Both wait while the idle plane loads or another task owns the array,
MLDWC too while a refresh or the bus holds it, and a takeover refresh is made first where one is due; a bank that
another task or the engine holds, or whose open row is another, is CANOPY_STATE. PLANE_READY makes the plane READY at
its time and changes nothing before (the model's choice, log 5). MSTRM and MBATCH with SW that may go on exchange the
planes where the idle one is READY, the old computing plane being READY where it was loaded and EMPTY otherwise; they
wait where it is LOADING; without SW both planes stand. (Rests on spec/14_matrix_instructions.md, Weight tiles and the
two planes.) -/
def Obligations.WeightPlanesLoadAndSwap : Prop :=
  (∀ (q : Guard) (src : Mrf) (wt : BitVec 5) (s : State), guardOn (cur s) q = true → GateOpen s → wt.toNat ≤ 24 →
    arrayCheck (cur s) wt.toNat = .ok () → isPort src = false →
    let n := if (tyOfCode (fmtReg (cur s)) wt.toNat).store = 4 then 32 else 64
    RowOk s (mrfIdx src) → RowOk s (mrfIdx src + n - 1) →
    (¬ MayOwn s → exec (.mldw q src wt) s = .next (waitOne id s)) ∧
    (MayOwn s → s.gv.idle.st = 1 → exec (.mldw q src wt) s = .next (waitOne id s)) ∧
    (MayOwn s → s.gv.idle.st ≠ 1 → ∃ t, exec (.mldw q src wt) s = .next (commitOne t) ∧
      LoadsPlane s t wt.toNat (laneBytes ((List.range n).flatMap (fun r => mrfRow s (mrfIdx src + r)))))) ∧
  (∀ (q : Guard) (src : Mrf) (wt : BitVec 5) (s v : State) (ls : List Lane), guardOn (cur s) q = true → GateOpen s →
    wt.toNat ≤ 24 → arrayCheck (cur s) wt.toNat = .ok () → isPort src = true → portLegal (cur s) src = .ok () →
    PortWidth s src (tyOfCode (fmtReg (cur s)) wt.toNat).width → MayOwn s → s.gv.idle.st ≠ 1 →
    popMany (ctxAt .m s) (mrfIdx src) (if (tyOfCode (fmtReg (cur s)) wt.toNat).store = 4 then 32 else 64) (claimed s) = .ok (ls, v) →
    ∃ t, exec (.mldw q src wt) s = .next (commitOne t) ∧ LoadsPlane s t wt.toNat (laneBytes ls)) ∧
  (∀ (q : Guard) (r : Reg) (wt : BitVec 5) (half : Bool) (s : State) (bank row : Nat) (w : Bool), guardOn (cur s) q = true →
    GateOpen s → arrayCheck (cur s) wt.toNat = .ok () → resolveRow (ctxAt .m s) (gOf s r) s = .ok (bank, row, w) →
    let narrow := decide ((tyOfCode (fmtReg (cur s)) wt.toNat).store = 4)
    let k := bankOf s bank
    (half = true → narrow = false → exec (.mldwc q r wt half) s = .next (takeFault s.sel 16 ⟨.illegalEnc, 0, 0⟩ s)) ∧
    let mine := k.eng = none ∧ (k.holder = none ∨ k.holder = some (cur s).task)
    let calm := MayOwn s ∧ s.gv.idle.st ≠ 1 ∧ s.gv.stallTo ≤ s.now ∧ k.freeAt ≤ s.now
    let ready := calm ∧ (k.holder = none → s.now ≤ k.lastRef + 2928) ∧ busReady s = true
    ((half = true → narrow = true) → ¬ mine ∨ k.openRow ≠ some row →
      exec (.mldwc q r wt half) s = .next (takeFault s.sel 16 ⟨.canopyState, 0, 0⟩ s)) ∧
    ((half = true → narrow = true) → mine → k.openRow = some row →
      (¬ calm → exec (.mldwc q r wt half) s = .next (waitOne id s)) ∧
      (calm → k.holder = none → k.lastRef + 2928 < s.now →
        exec (.mldwc q r wt half) s = .next (waitOne (takeoverRefresh bank) s)) ∧
      (calm → (k.holder = none → s.now ≤ k.lastRef + 2928) → busReady s = false →
        exec (.mldwc q r wt half) s = .next (waitOne id s)) ∧
      (ready → ¬ pastUse k s.now → exec (.mldwc q r wt half) s = .next (takeFault s.sel 16 ⟨.canopyEarly, 0, 0⟩ s)) ∧
      (ready → pastUse k s.now → ∃ t, exec (.mldwc q r wt half) s = .next (commitOne t) ∧
          LoadsPlane s t wt.toNat (canopyBytes s bank row (if half then 4096 else 0) (if narrow then 4096 else 8192)) ∧
          bankOf t bank = { k with holder := some (cur s).task, tPlane := some s.now } ∧ t.gv.busFree = s.now + 64))) ∧
  (∀ (q : Guard) (acc : BitVec 3) (src : Mrf) (arow : BitVec 5) (r : Reg) (sw step : Bool) (s v : State) (ty : NTy) (ls : List Lane)
      (i : Instr), guardOn (cur s) q = true →
    let p := if sw then s.gv.idle else s.gv.comp
    i = .mstrm q acc src arow r sw step ∧ StreamMayGo s v acc src r p ty ls ∨
      i = .mbatch q acc src arow r sw step ∧ BatchMayGo s v acc src r p ty ls →
    (sw = true → p.st ≠ 2 → exec i s = .next (waitOne id s)) ∧
    ((sw = true → p.st = 2) → ∃ t, exec i s = .next (commitOne t) ∧ PlanesAfter sw s t)) ∧
  ∀ s : State,
    (s.gv.idle.st = 1 → s.gv.idle.readyAt ≤ s.now → ∃ t, exec .planeReady s = .next t ∧ t.gv.idle = { s.gv.idle with st := 2 } ∧
      t.gv.comp = s.gv.comp ∧ SameMem s t ∧ t.st0 = s.st0 ∧ t.st1 = s.st1) ∧
    (s.gv.idle.st ≠ 1 ∨ s.now < s.gv.idle.readyAt → exec .planeReady s = .next s)

/-- With the micro position free, the array the task's or unowned, the plane of the issue loaded (READY where it swaps),
legal masks or lengths, activations of a type that the array accepts and that matches the plane's width class,
readable from a row or a port, and a tile for the accumulator: the issue completes, the array is the task's, and no
MRF lane, no byte of memory and no other accumulator tile changes. For MSTRM, each element (i, n) of the tile (of +0
where the name had none) that the masks leave active becomes the block step of R160 of the old element with the
products of the activations of its row and column n of the plane at the active depths, in ascending depth; the row is
u, and the two rows from 2(u mod 16) for activations of 1 to 4 bits. For MBATCH it is row u of the four cells, within
the lengths. Every other element of the tile is as before. SW streams against the idle plane, and the planes are
exchanged. An issue against an EMPTY plane is PLANE_EMPTY, and bad masks or lengths are MASK_BAD. The block step
itself is the matter of BlockStepsAndRoundings. (Rests on spec/14_matrix_instructions.md, Streaming with masks;
Batched small matrices, spec/06_number_formats.md.) -/
def Obligations.MatrixStreamsAccumulate : Prop :=
  ∀ (q : Guard) (acc : BitVec 3) (src : Mrf) (arow : BitVec 5) (r : Reg) (sw step : Bool) (s v : State) (ty : NTy)
      (ls : List Lane), guardOn (cur s) q = true →
    let p := if sw then s.gv.idle else s.gv.comp
    let m := maskPair (ctxAt .m s) r
    (GateOpen s → maskOk m = false → exec (.mstrm q acc src arow r sw step) s = .next (takeFault s.sel 16 ⟨.maskBad, 0, 0⟩ s)) ∧
    (GateOpen s → MayOwn s → maskOk m = true → isPort src = false → p.st = 0 →
      exec (.mstrm q acc src arow r sw step) s = .next (takeFault s.sel 16 ⟨.planeEmpty, 0, 0⟩ s)) ∧
    (GateOpen s → MayOwn s → (isPort src = true → portBound (cur s) src = true) → p.st = 0 →
      exec (.mbatch q acc src arow r sw step) s = .next (takeFault s.sel 16 ⟨.planeEmpty, 0, 0⟩ s)) ∧
    (GateOpen s → MayOwn s → (isPort src = true → portBound (cur s) src = true) → p.st ≠ 0 →
      lensOk m (if is16 p.typ then 16 else 32) = false →
      exec (.mbatch q acc src arow r sw step) s = .next (takeFault s.sel 16 ⟨.maskBad, 0, 0⟩ s)) ∧
    (StreamMayGo s v acc src r p ty ls → (sw = true → p.st = 2) →
      ∃ t, exec (.mstrm q acc src arow r sw step) s = .next (commitOne t) ∧ Accumulates s t acc.toNat ∧ PlanesAfter sw s t ∧
        AccIs s t acc.toNat (streamedElem p m ty ls arow.toNat (accOr0 s acc.toNat))) ∧
    (BatchMayGo s v acc src r p ty ls → (sw = true → p.st = 2) →
      ∃ t, exec (.mbatch q acc src arow r sw step) s = .next (commitOne t) ∧ Accumulates s t acc.toNat ∧ PlanesAfter sw s t ∧
        AccIs s t acc.toNat (batchedElem p m ty ls arow.toNat (accOr0 s acc.toNat)))

/-- While a microprogram of the stream runs every m op but MSTAT without WAIT waits (that MSTAT goes on then is the
model's reading, log 44); where it has left a fault, each takes MICRO_FAULT with its sub-code. Else: MDRAIN of a legal
type and cell mask to a row of the window writes the chunk there, each element rounded to the target type from the
accumulator element times its scales (zeros where the name is not mapped), sets the named cells' columns to +0 with
the last packed chunk, and changes no other MRF row and no other element; a chunk beyond the stream is DRAIN_RANGE.
MZERO gives the name a fresh tile of +0 where one is free and waits otherwise; MFREE unmaps it. MSCL takes the row or
column scales from rows of the window. MCALL of a valid entry starts the run at its address with the task's MP
registers where the array is free or its own, waits while another task owns it, and is MICRO_ENTRY for an invalid one.
MMPW writes sixteen entries or microwords inside the store, waits while any microprogram runs on the Grove, is
MICRO_ADDR beyond the store, and is PRIV at kernel level while SYSCTL reserves it. MSTAT answers the status word.
(Rests on spec/14_matrix_instructions.md, Accumulators, scales and the drain; Status; The microprogram.) -/
def Obligations.MatrixDrainAndControl : Prop :=
  ∀ (q : Guard) (acc : BitVec 3) (dst : Mrf) (chk : BitVec 6) (cm : BitVec 4) (tt : BitVec 6) (rs cs pk step half sw : Bool)
    (r : Reg) (wt arow : BitVec 5) (tbl wait : Bool) (entry : BitVec 8) (s : State), guardOn (cur s) q = true →
    let c := cur s
    let n := 1024 / (tyOfCode (fmtReg c) tt.toNat).store
    let total := if pk then 512 * ((List.range 4).filter (fun k => cm.getLsbD k)).length else 2048
    let b := gNat s r
    let o := seen s
    let e := rget 0 o.gv.uentry entry.toNat
    let legal := tt.toNat ≤ 24 ∧ (pk = true ↔ cm ≠ 0) ∧ RowOk s (mrfIdx dst) ∧ fmtCheck c tt.toNat = .ok ()
    let mOp (i : Instr) : Prop := i = .mldw q dst wt ∨ i = .mldwc q r wt half ∨ i = .mstrm q acc dst arow r sw step ∨
      i = .mbatch q acc dst arow r sw step ∨ i = .mdrain q acc dst chk cm tt rs cs pk step ∨ i = .mzero q acc ∨ i = .mfree q acc ∨
      i = .mscl q dst tbl ∨ i = .mcall q entry acc ∨ i = .mmpw q dst r tbl
    (c.micro.fpend = true → ∀ i, mOp i ∨ i = .mstat q r wait →
      exec i s = .next (takeFault s.sel 16 ⟨.microFault, c.micro.fcode, 0⟩ s)) ∧
    (c.micro.fpend = false → c.micro.running = true → ∀ i, mOp i ∨ i = .mstat q r true → exec i s = .next (waitOne id s)) ∧
    (c.micro.fpend = false → wait = false ∨ c.micro.running = false →
      exec (.mstat q r wait) s = .next (commitOne (setG s r (mstatWord o c)))) ∧
    (GateOpen s →
      (legal → total ≤ n * chk.toNat →
        exec (.mdrain q acc dst chk cm tt rs cs pk step) s = .next (takeFault s.sel 16 ⟨.drainRange, 0, 0⟩ s)) ∧
      (legal → n * chk.toNat < total → ∃ t, exec (.mdrain q acc dst chk cm tt rs cs pk step) s = .next (commitOne t) ∧
        Drains s t acc.toNat (mrfIdx dst) tt.toNat chk.toNat rs cs pk cm ∧ SameMem s t ∧ SameG s t) ∧
      (freeTiles (unmapped s acc.toNat) ≠ [] →
        ∃ t k, exec (.mzero q acc) s = .next (commitOne t) ∧ accTile (cur t) acc.toNat = some k ∧
          (∀ i j, j < 64 → i < 32 → accAt t k i j = 0) ∧ SameMem s t ∧ SameG s t ∧ t.gv.mrf = s.gv.mrf) ∧
      (freeTiles (unmapped s acc.toNat) = [] → exec (.mzero q acc) s = .next (waitOne id s)) ∧
      (∃ t, exec (.mfree q acc) s = .next (commitOne t) ∧ accTile (cur t) acc.toNat = none ∧ SameG s t ∧ t.gv = s.gv ∧ SameMem s t) ∧
      (RowOk s (mrfIdx dst) → ∃ t, exec (.mscl q dst false) s = .next (commitOne t) ∧ rgetN 0 (cur t).scr 0 32 = mrfRow s (mrfIdx dst) ∧
        (cur t).scc = c.scc ∧ t.gv = s.gv ∧ SameMem s t) ∧
      (RowOk s (mrfIdx dst) → RowOk s (mrfIdx dst + 1) → ∃ t, exec (.mscl q dst true) s = .next (commitOne t) ∧
        rgetN 0 (cur t).scc 0 64 = mrfRow s (mrfIdx dst) ++ mrfRow s (mrfIdx dst + 1) ∧ (cur t).scr = c.scr ∧ t.gv = s.gv ∧ SameMem s t) ∧
      (e.getLsbD 15 = false → exec (.mcall q entry acc) s = .next (takeFault s.sel 16 ⟨.microEntry, 0, 0⟩ s)) ∧
      (e.getLsbD 15 = true → ¬ MayOwn s → exec (.mcall q entry acc) s = .next (waitOne id s)) ∧
      (e.getLsbD 15 = true → MayOwn s → ∃ t, exec (.mcall q entry acc) s = .next (commitOne t) ∧ (cur t).micro.running = true ∧
        (cur t).micro.mpc = e.toNat % 1024 ∧ (cur t).micro.cur = acc.toNat ∧ (cur t).micro.mp = c.mp ∧
        t.gv.owner = some c.task ∧ SameMem s t ∧ SameG s t) ∧
      (c.level = 0 → (rget 0 o.dev.sysctl (partOf o c)).getLsbD 0 = true →
        exec (.mmpw q dst r tbl) s = .next (takeFault s.sel 16 ⟨.priv, 0, 0⟩ s)) ∧
      (c.level ≠ 0 ∨ (rget 0 o.dev.sysctl (partOf o c)).getLsbD 0 = false → RowOk s (mrfIdx dst) →
        ((if tbl then 255 else 1023) < b + 15 → exec (.mmpw q dst r tbl) s = .next (takeFault s.sel 16 ⟨.microAddr, 0, 0⟩ s)) ∧
        (b + 15 ≤ (if tbl then 255 else 1023) →
          (strm s (!s.sel)).micro.running = true ∨ (∃ h ∈ s.gv.heldTasks, h.micro.running = true) →
          exec (.mmpw q dst r tbl) s = .next (waitOne id s)) ∧
        (b + 15 ≤ (if tbl then 255 else 1023) → microRuns s = false → ∃ t, exec (.mmpw q dst r tbl) s = .next (commitOne t) ∧
          (tbl = true → t.gv.ustore = s.gv.ustore ∧ ∀ k, k < 16 → rget 0 t.gv.uentry (b + k) =
            BitVec.ofNat 16 (laneN s (mrfIdx dst) k) &&& 0x83FF) ∧
          (tbl = false → t.gv.uentry = s.gv.uentry ∧ ∀ k, k < 16 → rget 0 t.gv.ustore (b + k) =
            BitVec.ofNat 64 (laneN s (mrfIdx dst) (2 * k) + 2 ^ 32 * laneN s (mrfIdx dst) (2 * k + 1))) ∧ SameMem s t ∧ SameG s t)))

/-- For a run of the acting stream that does not wait, is not held by the matrix cap, has done fewer than 2^20 micro-ops
and stands below the last microword, on rows that are not lost: ACCUM sets the current accumulator, base row and mode;
MASK of an even pair takes its masks; LOOP and BRANCHZ go to their target as MLC says; STEP moves a row pointer inside
the file; PARAM takes a pointer, count or operand; NOPM sets its wait; WAITW goes on when no plane loads; WSWAP swaps
onto a READY plane; SCALE takes the row or column scales from the rows of MA; WLOAD begins the load of the idle plane
with the bytes of the rows of MA, or popped from its port; STREAM makes one issue of MSTRM or MBATCH, which changes
the tile of the current accumulator alone, to the values that MSTRM or MBATCH gives at accumulator row base plus count
(MatrixStreamsAccumulate); DRAIN writes one chunk to its row as MDRAIN does. STREAM and DRAIN last until their last
issue. Each counts one micro-op, keeps the run going at the next microword or the target, and changes no G register
and no byte of memory; ENDM stops the run. (Rests on spec/14_matrix_instructions.md, The microprogram.) -/
def Obligations.MicroOpsGoOn : Prop :=
  ∀ (px lx : BitVec 2) (acc mpx : BitVec 3) (imm : BitVec 16) (tgt : BitVec 10) (opd : BitVec 13) (typ : BitVec 5) (cm : BitVec 4)
    (rs cs pk batch col : Bool) (s : State), MicroGoing s →
    let m := (cur s).micro
    let next := m.mpc + 1
    let src := maOf s px
    let row := mrfIdx src
    let isRow := mrfDir src = 0 ∧ row ≤ 1535
    let pops := isPort src = true ∧ 8 ≤ row ∧ row < 16
    let kept (lo n : Nat) : Prop := ∀ r ∈ (cur s).lostR, r.1 < lo ∨ lo + n ≤ r.1
    let after1 (n : Nat) (t : State) : Prop := if m.prog + 1 < n then (cur t).micro.running = true ∧ (cur t).micro.mpc = m.mpc ∧
        (cur t).micro.prog = m.prog + 1 ∧ (cur t).micro.count = m.count ∧ SameG s t ∧ SameMem s t
      else MicroAt s t next ∧ (cur t).micro.prog = 0
    (imm.toNat < 32 → ∃ t, exec (.accum acc imm batch) s = .next t ∧ MicroAt s t next ∧
      (cur t).micro.cur = acc.toNat ∧ (cur t).micro.base = imm.toNat ∧ (cur t).micro.batch = batch) ∧
    (mpx.toNat % 2 = 0 → ∃ t, exec (.mask mpx) s = .next t ∧ MicroAt s t next ∧ (cur t).micro.masked = true ∧
      (cur t).micro.m0 = rget 0 m.mp mpx.toNat ∧ (cur t).micro.m1 = rget 0 m.mp (mpx.toNat + 1)) ∧
    (2 ≤ mlcOf s lx → ∃ t, exec (.microLoop lx tgt) s = .next t ∧ MicroAt s t tgt.toNat ∧ mlcOf t lx = mlcOf s lx - 1) ∧
    (mlcOf s lx < 2 → ∃ t, exec (.microLoop lx tgt) s = .next t ∧ MicroAt s t next ∧ mlcOf t lx = 0) ∧
    (∃ t, exec (.branchz lx tgt) s = .next t ∧ MicroAt s t (if mlcOf s lx = 0 then tgt.toNat else next) ∧ mlcOf t lx = mlcOf s lx) ∧
    (isRow → 0 ≤ (row : Int) + imm.toInt → (row : Int) + imm.toInt ≤ 1535 → ∃ t, exec (.microStep px imm) s = .next t ∧
      MicroAt s t next ∧ (mrfIdx (maOf t px) : Int) = row + imm.toInt ∧ mrfDir (maOf t px) = 0) ∧
    (∀ w, rget 0 m.mp mpx.toNat = w →
      (imm.toNat % 64 + 12 ≤ 63 → ∃ t, exec (.param px lx mpx opd imm 0) s = .next t ∧ MicroAt s t next ∧
        maOf t px = (w >>> (imm.toNat % 64)).setWidth 13) ∧
      (imm.toNat % 64 + 15 ≤ 63 → ∃ t, exec (.param px lx mpx opd imm 1) s = .next t ∧ MicroAt s t next ∧
        mlcOf t lx = ((w >>> (imm.toNat % 64)).setWidth 16).toNat)) ∧
    (∃ t, exec (.param px lx mpx opd imm 2) s = .next t ∧ MicroAt s t next ∧ maOf t px = opd) ∧
    (∃ t, exec (.nopm imm) s = .next t ∧ MicroAt s t next ∧ (cur t).micro.wait = imm.toNat) ∧
    (s.gv.idle.st ≠ 1 → ∃ t, exec .waitw s = .next t ∧ MicroAt s t next) ∧
    (s.gv.idle.st = 2 → ∃ t, exec .wswap s = .next t ∧ MicroAt s t next ∧ t.gv.comp = s.gv.idle) ∧
    (isRow → RowOk s row → (col = true → RowOk s (row + 1)) → kept row (if col then 2 else 1) →
      ∃ t, exec (.scale px col) s = .next t ∧ MicroAt s t next ∧ t.gv.mrf = s.gv.mrf ∧
        (if col then rgetN 0 (cur t).scc 0 64 = mrfRow s row ++ mrfRow s (row + 1) ∧ (cur t).scr = (cur s).scr
         else rgetN 0 (cur t).scr 0 32 = mrfRow s row ∧ (cur t).scc = (cur s).scc)) ∧
    (∀ n ls v, n = (if (tyOfCode (fmtReg (cur s)) typ.toNat).store = 4 then 32 else 64) → typ.toNat ≤ 24 →
      arrayCheck (cur s) typ.toNat = .ok () → MayOwn s → s.gv.idle.st ≠ 1 →
      isRow ∧ RowOk s row ∧ RowOk s (row + n - 1) ∧ kept row n ∧ ls = (List.range n).flatMap (fun r => mrfRow s (row + r)) ∨
        pops ∧ portLegal (cur s) src = .ok () ∧ PortWidth s src (tyOfCode (fmtReg (cur s)) typ.toNat).width ∧
          popMany (ctxAt .m s) row n (claimed s) = .ok (ls, v) →
      ∃ t, exec (.wload px typ) s = .next t ∧ MicroAt s t next ∧ LoadsPlane s t typ.toNat (laneBytes ls)) ∧
    (∀ ty code ls v, let p := s.gv.comp
      let mk : Masks := if m.masked then some (m.m0, m.m1) else none
      let code2 := bits m.m1.toNat 28 24
      let own := m.masked = false ∨ m.batch = true
      0 < imm.toNat → imm.toNat ≤ 1024 → MayOwn s → p.st ≠ 0 → HasTile s m.cur →
      isRow ∧ kept (row + m.prog) 1 ∧ row + m.prog ≤ 1535 ∨ pops ∧ portBound (cur s) src = true ∧
        (own ∨ arrayCheck (cur s) code2 = .ok ()) →
      (if m.batch then lensOk mk (if is16 p.typ then 16 else 32) = true else maskOk mk = true) →
      actType (ctxAt .m s) src (row + m.prog) (if m.masked = true ∧ m.batch = false then (tyOfCode (fmtReg (cur s)) code2, code2)
        else (planeTy p, p.typ)) = .ok (ty, code) →
      is16 code = is16 p.typ → (m.batch = true → ty.store ≠ 4) →
      actVector (ctxAt .m s) src (row + m.prog) (claimed s) = .ok (ls, v) →
      ∃ t, exec (.stream px imm) s = .next t ∧ after1 imm.toNat t ∧ Accumulates s t m.cur ∧
        AccIs s t m.cur ((if m.batch then batchedElem else streamedElem) p mk ty ls ((m.base + m.prog) % 32) (accOr0 s m.cur)) ∧
        t.gv.comp = s.gv.comp ∧ t.gv.idle = s.gv.idle) ∧
    (isRow → 0 < imm.toNat / 256 → typ.toNat ≤ 24 → (pk = true ↔ cm ≠ 0) → fmtCheck (cur s) typ.toNat = .ok () →
      RowOk s (row + m.prog) → 1024 / (tyOfCode (fmtReg (cur s)) typ.toNat).store * (imm.toNat % 64 + m.prog) <
        (if pk then 512 * ((List.range 4).filter (fun k => cm.getLsbD k)).length else 2048) →
      ∃ t, exec (.drain acc px typ imm cm rs cs pk) s = .next t ∧ after1 (imm.toNat / 256) t ∧
        Drains s t acc.toNat (row + m.prog) typ.toNat (imm.toNat % 64 + m.prog) rs cs pk cm) ∧
    (∃ t, exec .endm s = .next t ∧ (cur t).micro.running = false ∧ (cur t).micro.fpend = m.fpend ∧ SameG s t ∧ SameMem s t)

/-- Of rational values: the block step of R160 on an element that is no NaN adds to it the exact sum of its products
(R158), or on the 16-bit path the sum of the products aligned above 2^(P − 88) with a sticky lowest bit (R159), and
rounds once to nearest even in E8M31, to an infinity with OF, NX and ACCOF where that leaves the format; NX where a
bit was lost, UF where the exact result is also below 2^−126; an exact zero is −0 only from −0 and products −0. No
product leaves it; a NaN operand makes it a NaN with NANIN, 0 × ∞ or infinities of both signs the canonical NaN with
IV. The drain of a finite value gives the format's value next toward zero, clamped with OF and NX where it lies beyond
the largest, and to an integer the truncated one in range; VCVT the nearest, ties to even (a tie without mantissa bits
is the model's choice, log 80), beyond the largest an infinity or the largest with OF and NX. Inexact is NX, with UF
below the smallest normal magnitude of a floating or narrow target; a negative value into a target without sign is 0
with IV. A window sum of 0 counts as +0, and a lost bit sets NX whatever the result (log 62). (Rests on
spec/06_number_formats.md.) -/
def Obligations.BlockStepsAndRoundings : Prop :=
  (∀ (wide : Bool) (pw : Nat × Nat) (acc : Nat) (ps : List (XV × XV)), acc < 2 ^ 40 → (decF fE8M31 acc).isNan = false →
    let a := decF fE8M31 acc
    let r := blockStep wide pw acc ps
    let inf (b : Bool) : Prop := some (.inf b) ∈ ps.map (fun p => xmul p.1 p.2)
    (ps = [] → r = (acc, 0, 0, 0)) ∧
    ((∃ p ∈ ps, p.1.isNan = true ∨ p.2.isNan = true) → (decF fE8M31 r.1).isNan = true ∧ r.2.1 &&& (fNANIN ||| fIV) = fNANIN ∧ r.2.2 = (0, 1)) ∧
    ((∀ p ∈ ps, p.1.isNan = false ∧ p.2.isNan = false) →
      (none ∈ ps.map (fun p => xmul p.1 p.2) ∨ inf true ∧ inf false → r.1 = canonNan fE8M31 ∧ r.2.1 &&& (fNANIN ||| fIV) = fIV ∧ r.2.2 = (0, 1)) ∧
      (∀ b, none ∉ ps.map (fun p => xmul p.1 p.2) → inf b → ¬ inf (!b) →
        (a ≠ .inf (!b) → decF fE8M31 r.1 = .inf b ∧ r.2.1 &&& (fOF ||| fIV ||| fNANIN) = 0 ∧ r.2.2 = (0, 0)) ∧
        (a = .inf (!b) → r.1 = canonNan fE8M31 ∧ r.2.1 &&& (fNANIN ||| fIV) = fIV ∧ r.2.2 = (0, 1)))) ∧
    (a.isSpecial = false → (∀ p ∈ ps, p.1.isSpecial = false ∧ p.2.isSpecial = false) → ∀ P : Int,
      ((∃ p ∈ ps, (2 : ℚ) ^ P ≤ |prodOf p|) ∨ ∀ p ∈ ps, prodOf p = 0) → (∀ p ∈ ps, |prodOf p| < (2 : ℚ) ^ (P + 1)) →
      let bs := (ps.map prodOf).sum
      let exact := ratOf a + bs
      let x := ratOf a + (if bs = 0 then 0 else if wide then (ps.map (fun p => alignedSpec P (prodOf p))).sum else bs)
      ∀ lost : Bool, (lost = true ↔ wide = true ∧ ∃ p ∈ ps, alignedSpec P (prodOf p) ≠ prodOf p) →
      (x = 0 → r = (if acc = 2 ^ 39 ∧ ∀ p ∈ ps, negZero p then 2 ^ 39 else 0, roundFlags fE8M31 exact lost, 0, 0)) ∧
      (x ≠ 0 → ∀ (q L : ℚ) (n : Nat) (ix : Bool), IsStep fE8M31 x q → Nearest fE8M31 x q n → IsLargest fE8M31 (decide (x < 0)) L →
        (ix = true ↔ lost = true ∨ n * q ≠ |x|) →
        (n * q ≤ L → Holds fE8M31 r.1 (decide (x < 0)) (n * q) ∧ r.2.1 = roundFlags fE8M31 exact ix ∧ r.2.2 = (0, 0)) ∧
        (L < n * q → decF fE8M31 r.1 = .inf (decide (x < 0)) ∧ r.2.1 = fOF ||| fNX ∧ r.2.2 = (1, 0))))) ∧
  (∀ (f : Fmt) (s : Bool) (m : Nat) (e : Int) (m1 : Nat), ValidFmt f → m ≠ 0 →
    let v : XV := .fin s m e
    let x := ratOf v
    let d := drainTo (.flt f) false v
    let c := cvtTo m1 (.flt f) v
    (s = true → f.S = false → d = (0, fIV, false) ∧ c = (0, fIV)) ∧
    ((s = true → f.S = true) → ∀ (q L : ℚ) (n : Nat) (ix : Bool), IsStep f x q → IsLargest f s L → (ix = true ↔ n * q ≠ |x|) →
      (Toward0 x q n → n * q ≤ L → Holds f d.1 s (n * q) ∧ d.2 = (roundFlags f x ix, false)) ∧
      (Toward0 x q n → L < n * q → Holds f d.1 s L ∧ d.2 = (fOF ||| fNX, true)) ∧
      (Nearest f x q n → (f.E = 0 ∨ 1 ≤ f.M ∨ abs (n * q - |x|) ≠ q / 2) →
        (n * q ≤ L → Holds f c.1 s (n * q) ∧ c.2 = roundFlags f x ix) ∧
        (L < n * q → (if f.nan = 0 then decF f c.1 = .inf s else Holds f c.1 s L) ∧ c.2 = fOF ||| fNX)))) ∧
  ∀ (w : Nat) (sg s : Bool) (m : Nat) (e : Int) (m1 : Nat), w = 8 ∨ w = 16 ∨ w = 32 → m ≠ 0 →
    let v : XV := .fin s m e
    let x := ratOf v
    let d := drainTo (.int w sg) false v
    let c := cvtTo m1 (.int w sg) v
    let lo : Int := if sg then -2 ^ (w - 1) else 0
    let hi : Int := if sg then 2 ^ (w - 1) - 1 else 2 ^ w - 1
    (s = true → sg = false → d = (0, fIV, false) ∧ c = (0, fIV)) ∧
    ((s = true → sg = true) → ∀ z : Int,
      let flags : Nat := if z < lo ∨ hi < z then fOF ||| fNX else if (z : ℚ) = x then 0 else fNX
      (|(z : ℚ)| ≤ |x| → |x| < |(z : ℚ)| + 1 → 0 ≤ (z : ℚ) * x →
        ratOf (decInt w sg d.1) = (max lo (min hi z) : Int) ∧ d.2 = (flags, decide (z < lo ∨ hi < z))) ∧
      (|(z : ℚ) - x| ≤ 1 / 2 → (|(z : ℚ) - x| = 1 / 2 → z % 2 = 0) →
        ratOf (decInt w sg c.1) = (max lo (min hi z) : Int) ∧ c.2 = flags))

/-- For VADD to VCLAMP, VCMP, VSEL, the logic and shift ops, VMOV, VBCST, VPERM, VROT and VCNT, with D in the window and
the source operands readable (a row, column or diagonal in the window, or a port that delivers and whose narrow
elements have the type's width, else FMT_INVALID): the op completes, D holds the elements that its rule makes of the
old D, A and B at the type's width, and FLAGS receives the flags of those elements. That every typed op expects its
type's width of a narrow port is the model's choice (notes/assumptions/76.md). Writing D so changes no MRF lane
outside D's 32 lanes, no G register, no byte of memory and no accumulator, and D then reads as those elements. (Rests
on spec/13_vector_instructions.md.) -/
def Obligations.VectorOpsApplyTheirElementRule : Prop :=
  (∀ (i : Instr) (r : VecOp) (s s1 s2 : State) (la lb : List Lane), vecSpec i = some r → guardOn (cur s) r.q = true →
    RowOk s (mrfIdx r.d) → readOpnd (ctxAt .v0 s) r.a r.step s = .ok (la, s1) →
    (match r.b with
     | none => lb = [] ∧ s2 = s1
     | some b => readOpnd (ctxAt .v0 s) b r.step s1 = .ok (lb, s2) ∧ PortFits s r.ty b) →
    (¬ PortFits s r.ty r.a → exec i s = .next (takeFault s.sel 4 ⟨.fmtInvalid, 0, 0⟩ s)) ∧
    (PortFits s r.ty r.a → exec i s = .next (commitOne (vecWrite r.w (mrfDir r.d, mrfIdx r.d)
      (r.f (unpack r.w (mrfVec s (mrfDir r.d) (mrfIdx r.d))) (unpack r.w la) (unpack r.w lb)) s2)))) ∧
  (∀ (m : Mrf) (step : Bool) (s : State), isPort m = false → RowOk s (mrfIdx m) →
    readOpnd (ctxAt .v0 s) m step s = .ok (mrfVec s (mrfDir m) (mrfIdx m), s)) ∧
  ∀ (w dir idx : Nat) (es : List Elem) (s : State), dir < 3 → w = 8 ∨ w = 16 ∨ w = 32 → es.length = 1024 / w →
    (∀ e ∈ es, e.1 < 2 ^ w) →
    let t := vecWrite w (dir, idx) es s
    unpack w (mrfVec t dir idx) = es.map (fun e => e.1) ∧
    (∀ k, (∀ j, j < 32 → k ≠ 32 * (place dir idx j).1 + (place dir idx j).2) → rget 0 t.gv.mrf k = rget 0 s.gv.mrf k) ∧
    SameG s t ∧ SameMem s t ∧ SameCtl s t ∧ t.gv.acc = s.gv.acc ∧ (cur t).iflags = (cur s).iflags ||| w64 (elemFlags es)

/-- For operands of an integer type of width w: VADD, VSUB, VMUL, VNEG wrap modulo 2^w, VABS is the wrapped absolute value
of the signed number, VMAX, VMIN and VCLAMP follow the type's signedness, VCMP gives all ones or zero by the order;
for a floating type VADD, VSUB, VMUL, VFMA and VFMS of operands that are not NaN round the exact result once, an
invalid one being the canonical NaN with IV, and the first NaN operand in the order A, B, D is kept with its sign and
payload, its top mantissa bit set, and raises NANIN alone (the model's choices: this order for VFMA and VFMS,
notes/assumptions/41.md; a product 0 x infinity beside a NaN sets no IV, notes/assumptions/81.md). VRCP, VRSQ, VEXP2
and VLOG2 round once the exact value that R168 computes from a row of the tables, over the rationals, and have the
special cases of R170; each entry of the tables CR and CQ, and entry 0 of each row of CE, is the integer nearest to
the value that R169 gives. (Rests on spec/13_vector_instructions.md, spec/06_number_formats.md.) -/
def Obligations.VectorElementRules : Prop :=
  (∀ (ty : VTy) (w : Nat) (sg : Bool) (d a b : Nat), tyOfVTy ty = .int w sg → d < 2 ^ w → a < 2 ^ w → b < 2 ^ w →
    let val (x : Nat) : Int := if sg then (BitVec.ofNat w x).toInt else x
    elAdd ty a b = ((((a : Int) + b) % 2 ^ w).toNat, 0) ∧ elSub ty a b = ((((a : Int) - b) % 2 ^ w).toNat, 0) ∧
    elMul ty a b = ((((a : Int) * b) % 2 ^ w).toNat, 0) ∧ elNeg ty a = (((-(a : Int)) % 2 ^ w).toNat, 0) ∧
    elAbs ty a = ((BitVec.ofNat w a).toInt.natAbs % 2 ^ w, 0) ∧
    val (elMax ty a b).1 = max (val a) (val b) ∧ val (elMin ty a b).1 = min (val a) (val b) ∧
    val (elClamp ty d a b).1 = min (max (val d) (val a)) (val b) ∧
    elVcmp ty 0 a b = (if a = b then 2 ^ w - 1 else 0, 0) ∧ elVcmp ty 1 a b = (if a = b then 0 else 2 ^ w - 1, 0) ∧
    elVcmp ty 2 a b = (if val a < val b then 2 ^ w - 1 else 0, 0) ∧ elVcmp ty 3 a b = (if val a ≤ val b then 2 ^ w - 1 else 0, 0)) ∧
  (∀ (ty : VTy) (f : Fmt) (a b : Nat), tyOfVTy ty = .flt f →
    ((decF f a).isNan = false → (decF f b).isNan = false →
      elAdd ty a b = rneX f (xadd (decF f a) (decF f b)) ∧ elSub ty a b = rneX f (xadd (decF f a) (xneg (decF f b))) ∧
      elMul ty a b = rneX f (xmul (decF f a) (decF f b)) ∧ ∀ d, (decF f d).isNan = false →
        elFma ty d a b = rneX f ((xmul (decF f a) (decF f b)).bind (fun p => xadd p (decF f d))) ∧
        elFms ty d a b = rneX f ((xmul (decF f a) (decF f b)).bind (fun p => xadd (decF f d) (xneg p)))) ∧
    rneX f none = (canonNan f, fIV) ∧
    (∀ (sg : Bool) (p d : Nat),
      let kept (e : Elem) : Prop := decF f e.1 = .nan sg (p ||| 2 ^ (f.M - 1)) ∧ e.2 = fNANIN
      (decF f a = .nan sg p ∨ (decF f a).isNan = false ∧ decF f b = .nan sg p →
        kept (elAdd ty a b) ∧ kept (elSub ty a b) ∧ kept (elMul ty a b) ∧ kept (elFma ty d a b) ∧ kept (elFms ty d a b)) ∧
      ((decF f a).isNan = false → (decF f b).isNan = false → decF f d = .nan sg p →
        kept (elFma ty d a b) ∧ kept (elFms ty d a b)))) ∧
  (∀ (c m : Nat) (sg : Bool) (e : Int), decF fFP32 c = .fin sg m e → m ≠ 0 →
    let val (b : Bool) (n : Nat) (g : Int) : ℚ := (if b then -1 else 1) * (n : ℚ) * (2 : ℚ) ^ g
    let cubic (r : Int × Int × Int × Int) (h : ℚ) : ℚ := ((r.1 : ℚ) + r.2.1 * h + r.2.2.1 * h ^ 2 + r.2.2.2 * h ^ 3) / 2 ^ 30
    let rounded (r : Elem) (y : ℚ) : Prop := ∃ b n g, val b n g = y ∧ r = rne32 (.fin b n g)
    let z := val sg m e
    let n := ⌊z⌋
    let k := ⌊64 * (z - (n : ℚ))⌋.toNat
    rounded (fExp2 c) ((2 : ℚ) ^ n * (if z = (n : ℚ) then 1 else cubic (tabRow tabCE k) (z - (n : ℚ) - (2 * (k : ℚ) + 1) / 128))) ∧
    ∀ (u : ℚ) (x : Int), 1 ≤ u → u < 2 → (m : ℚ) * (2 : ℚ) ^ e = u * (2 : ℚ) ^ x →
      let j := ⌊64 * (u - 1)⌋.toNat
      let h := u - (1 + (2 * (j : ℚ) + 1) / 128)
      rounded (fRcp c) ((if sg then -1 else 1) * (2 : ℚ) ^ (-x) * (if u = 1 then 1 else cubic (tabRow tabCR j) h)) ∧
      (sg = true → fRsq c = (canonNan fFP32, fIV) ∧ fLog2 c = (canonNan fFP32, fIV)) ∧
      (sg = false → rounded (fLog2 c) ((x : ℚ) + (if u = 1 then 0 else cubic (tabRow tabCL j) h)) ∧
        let v := if x % 2 = 1 then 2 * u else u
        let i := if v < 2 then ⌊64 * (v - 1)⌋.toNat else 64 + ⌊32 * (v - 2)⌋.toNat
        let a := if v < 2 then 1 + (2 * (i : ℚ) + 1) / 128 else 2 + (2 * ((i : ℚ) - 64) + 1) / 64
        rounded (fRsq c) ((2 : ℚ) ^ (-(x / 2)) * (if v = 1 then 1 else cubic (tabRow tabCQ i) (v - a))))) ∧
  (let inf := 0x7F800000; let neg := 2 ^ 31;
    fRcp 0 = (inf, fDZ) ∧ fRcp neg = (inf + neg, fDZ) ∧ fRcp inf = (0, 0) ∧ fRcp (inf + neg) = (neg, 0) ∧
    fRsq 0 = (inf, fDZ) ∧ fRsq neg = (inf + neg, fDZ) ∧ fRsq inf = (0, 0) ∧ fRsq (inf + neg) = (0x7FC00000, fIV) ∧
    fExp2 0 = (0x3F800000, 0) ∧ fExp2 neg = (0x3F800000, 0) ∧ fExp2 inf = (inf, 0) ∧ fExp2 (inf + neg) = (0, 0) ∧
    fLog2 0 = (inf + neg, fDZ) ∧ fLog2 neg = (inf + neg, fDZ) ∧ fLog2 inf = (inf, 0) ∧ fLog2 (inf + neg) = (0x7FC00000, fIV)) ∧
  (∀ (c p : Nat) (sg : Bool) (g : Nat → Elem), decF fFP32 c = .nan sg p → g ∈ [fRcp, fRsq, fExp2, fLog2] →
    decF fFP32 (g c).1 = .nan sg (p ||| 2 ^ 22) ∧ (g c).2 = fNANIN) ∧
  (∀ (j k : Nat), j < 64 → k < 4 →
    let row := tabRow tabCR j
    let t : Int := [row.1, row.2.1, row.2.2.1, row.2.2.2].getD k 0
    let a : Int := 129 + 2 * j
    |2 * t * a ^ (k + 1) - 2 ^ 31 * (-1) ^ k * 128 ^ (k + 1)| < a ^ (k + 1)) ∧
  (∀ j, j < 64 → let t := (tabRow tabCE j).1; 0 < t ∧ (2 * t - 1) ^ 128 < 2 ^ (31 * 128 + 2 * j + 1) ∧
    2 ^ (31 * 128 + 2 * j + 1) < (2 * t + 1) ^ 128) ∧
  ∀ (i k : Nat), i < 128 → k < 4 →
    let row := tabRow tabCQ i
    let t : Int := [row.1, row.2.1, row.2.2.1, row.2.2.2].getD k 0
    let c : Int := [16, -8, 6, -5].getD k 0
    let a : Int := if i < 64 then 129 + 2 * i else 2 * (129 + 2 * (i - 64))
    let q : Int := 2 ^ 62 * c ^ 2 * 128 ^ (2 * k + 1)
    0 < t * c ∧ (2 * |t| - 1) ^ 2 * 256 * a ^ (2 * k + 1) < q ∧ q < (2 * |t| + 1) ^ 2 * 256 * a ^ (2 * k + 1)

/-- With D in the window and A (and B) readable, narrow ports having the width that the op expects: VCVT of a known source
type and a valid destination type, VPACK and VUNPK complete where PART names a part, leaving elements outside the part
as they were; another part is ILLEGAL_ENC, and a narrow port of another width FMT_INVALID in its place (that VPACK,
VUNPK and the other typed ops here expect a width of a narrow port, and this order, are the model's choice,
notes/assumptions/76.md); VRED writes its value and index in lanes 0 and 1 and zeros above; VSCAN writes its prefixes,
and the last one from LEN up; VNORM writes lanes 0 and 1 alone; VMATCH writes the end of the last match plus one and
the number of matches; VSTAT writes FLAGS, SEQSTAT and MXC in lanes 0 to 4 with zeros above and clears FLAGS and
SEQSTAT where asked. (Rests on spec/13_vector_instructions.md.) -/
def Obligations.VectorConvertReduceScan : Prop :=
  ∀ (q : Guard) (ty : VTy) (d a b : Mrf) (dt : BitVec 5) (sf : BitVec 4) (part rop : BitVec 3) (sop : BitVec 2) (w : BitVec 5)
    (sat ex clr step : Bool) (len : BitVec 8) (s s1 s2 : State) (la lb : List Lane), guardOn (cur s) q = true →
    RowOk s (mrfIdx d) → readOpnd (ctxAt .v0 s) a step s = .ok (la, s1) → readOpnd (ctxAt .v0 s) b step s1 = .ok (lb, s2) →
    let dst := (mrfDir d, mrfIdx d)
    let old := mrfVec s (mrfDir d) (mrfIdx d)
    let es := unpack (tyWidth ty) la
    (∀ st, cvtSource (ctxAt .v0 s) ty a sf.toNat step = .ok st → fmtCheck (cur s) dt.toNat = .ok () →
      let tt := tyOfCode (fmtReg (cur s)) dt.toNat
      let cv (v : Nat) : Elem := cvtTo (payWidth st) tt (decT st (v % 2 ^ st.width))
      (¬ PortWidth s a st.width → exec (.vcvt q ty d a dt sf part step) s = .next (takeFault s.sel 4 ⟨.fmtInvalid, 0, 0⟩ s)) ∧
      (PortWidth s a st.width → partCount st.store tt.store ≤ part.toNat →
        exec (.vcvt q ty d a dt sf part step) s = .next (takeFault s.sel 4 ⟨.illegalEnc, 0, 0⟩ s)) ∧
      (part.toNat < partCount st.store tt.store → PortWidth s a st.width → ∃ rs, exec (.vcvt q ty d a dt sf part step) s = .next (commitOne (vecWrite tt.store dst rs s1)) ∧
        convertPart st.store tt.store part.toNat (unpack st.store la) (unpack tt.store old) cv = some rs)) ∧
    (∀ i, i = .vpack q ty d a w sat part step ∧ ¬ PortFits s ty a ∨
        i = .vunpk q ty d a w part step ∧ ty ≠ .bits ∧ ¬ PortWidth s a w.toNat →
      exec i s = .next (takeFault s.sel 4 ⟨.fmtInvalid, 0, 0⟩ s)) ∧
    (∀ i, i = .vpack q ty d a w sat part step ∧ PortFits s ty a ∨
        i = .vunpk q ty d a w part step ∧ (ty = .bits ∨ PortWidth s a w.toNat) →
      partCount (tyWidth ty) (storeWidth w.toNat) ≤ part.toNat → exec i s = .next (takeFault s.sel 4 ⟨.illegalEnc, 0, 0⟩ s)) ∧
    (∀ rs, PortFits s ty a → convertPart (tyWidth ty) (storeWidth w.toNat) part.toNat es (unpack (storeWidth w.toNat) old)
        (fun v => (elPack ty w.toNat sat v, 0)) = some rs →
      exec (.vpack q ty d a w sat part step) s = .next (commitOne (vecWrite (storeWidth w.toNat) dst rs s1))) ∧
    (∀ rs, ty = .bits ∨ PortWidth s a w.toNat → convertPart (storeWidth w.toNat) (tyWidth ty) part.toNat (unpack (storeWidth w.toNat) la) (unpack (tyWidth ty) old)
        (fun v => (elUnpk ty w.toNat v, 0)) = some rs →
      exec (.vunpk q ty d a w part step) s = .next (commitOne (vecWrite (tyWidth ty) dst rs s1))) ∧
    (let r := redOf ty rop.toNat len.toNat es;
      PortFits s ty a → exec (.vred q ty d a rop len step) s = .next (commitOne (raiseN r.2.2
        (putAll s1 dst (BitVec.ofNat 32 r.1 :: BitVec.ofNat 32 r.2.1 :: List.replicate 30 0))))) ∧
    (PortFits s ty a → ∃ out fl, exec (.vscan q ty d a sop ex len step) s = .next (commitOne (raiseN fl (putAll s1 dst (pack 32 out)))) ∧
      let n := if len = 0 then 32 else len.toNat
      let ps := scanOf (if sop = 0 then elAdd ty else if sop = 1 then elMax ty else elMin ty) ((unpack 32 la).take n)
      ∀ k, k < 32 → out.getD k 0 = if n ≤ k then (ps.getLastD (0, 0)).1
        else if ex then (if k = 0 then scanIdent ty sop.toNat else (ps.getD (k - 1) (0, 0)).1) else (ps.getD k (0, 0)).1) ∧
    (let xs := (if len = 0 then es else es.take len.toNat).map (toF32 ty);
      let l0 := normLane (old.getD 0 0).toNat xs (fun v => (xmul v v).getD v);
      let l1 := normLane (old.getD 1 0).toNat xs (fun v => v);
      PortFits s ty a → exec (.vnorm q ty d a len step) s = .next (commitOne (raiseN (l0.2 ||| l1.2)
        (putVec s1 dst.1 dst.2 [(0, BitVec.ofNat 32 l0.1), (1, BitVec.ofNat 32 l1.1)])))) ∧
    (let ends := matchEnds es (unpack (tyWidth ty) lb);
      PortFits s ty a → PortFits s ty b → exec (.vmatch q ty d a b step) s = .next (commitOne (putAll s2 dst
        (BitVec.ofNat 32 ((ends.getLast?.map (fun e => e + 1)).getD 0) :: BitVec.ofNat 32 ends.length :: List.replicate 30 0)))) ∧
    (let lanes := [(cur s).flags.setWidth 32, (cur s).seqstat.setWidth 32, ((cur s).seqstat >>> 32).setWidth 32,
        (cur s).mxc.setWidth 32, ((cur s).mxc >>> 32).setWidth 32] ++ List.replicate 27 (0 : Lane);
      exec (.vstat q ty d ⟨clr, step⟩) s = .next (commitOne (if clr then modCur (putAll s dst lanes) (fun c => { c with flags := 0, seqstat := 0 })
        else putAll s dst lanes)))

/-- With D in the window, A readable (for VLUT with a narrow port of its width) and B a row of the window: VLUT writes for
each index the element of the table that begins at row B, zero past the end of B's tile; VBMT writes all ones where
the indexed bit is set and zero elsewhere. For VGATHX and VSCATX a narrow port of another width than 32 is FMT_INVALID
(notes/assumptions/76.md). With B naming a usable scratchpad handle of the element's width and a base: VGATHX writes
each active lane's unit and zero to inactive lanes; VSCATX stores each active lane of D to its unit, the higher lane
prevailing, and changes no MRF lane; any lane outside the handle is TILE_RANGE with nothing written. No byte of memory
changes. (Rests on spec/13_vector_instructions.md.) -/
def Obligations.VectorTablesAndScratchpad : Prop :=
  ∀ (q : Guard) (ty : VTy) (d a b : Mrf) (step : Bool) (s s1 : State) (la : List Lane), guardOn (cur s) q = true →
    RowOk s (mrfIdx d) → readOpnd (ctxAt .v0 s) a step s = .ok (la, s1) → RowOk s (mrfIdx b) →
    let dst := (mrfDir d, mrfIdx d)
    let rb := mrfIdx b
    let w := tyWidth ty
    let n := 1024 / w
    let row (k : Nat) : Option Nat := if rb % 32 + k < 32 then some (rb + k) else none
    (PortFits s ty a → exec (.vlut q ty d a b step) s = .next (commitOne (vecWrite w dst ((unpack w la).map (fun i =>
      ((match row (i / n) with | some r => (unpack w (mrfRow s r)).getD (i % n) 0 | none => 0), 0))) s1))) ∧
    (exec (.vbmt q ty d a b step) s = .next (commitOne (putAll s1 dst (la.map (fun i =>
      if (match row (i.toNat / 1024) with
        | some r => (mrfLane s r (i.toNat / 32 % 32)).getLsbD (i.toNat % 32)
        | none => false) then 0xFFFFFFFF else 0))))) ∧
    (¬ PortWidth s a 32 → ∀ i, i = .vgathx q ty d a b step ∨ i = .vscatx q ty d a b step →
      exec i s = .next (takeFault s.sel 4 ⟨.fmtInvalid, 0, 0⟩ s)) ∧
    ∀ h base, PortWidth s a 32 → rowHandle (ctxAt .v0 s) rb w s1 = .ok (h, base) →
      let unit (k : Nat) : Int := base + (la.getD k 0).toInt
      let inside := ∀ k, k < la.length → 0 ≤ (la.getD k 0).toInt → 0 ≤ unit k ∧ unit k < shapeUnits h.shape
      (¬ inside → ∀ i, i = .vgathx q ty d a b step ∨ i = .vscatx q ty d a b step →
        exec i s = .next (takeFault s.sel 4 ⟨.tileRange, 0, 0⟩ s)) ∧
      (inside →
        (exec (.vgathx q ty d a b step) s = .next (commitOne (putAll s1 dst (la.mapIdx (fun k i =>
          if i.toInt < 0 then 0 else BitVec.ofNat 32 (handleUnit (seen s1) h (unit k).toNat)))))) ∧
        ∃ t, exec (.vscatx q ty d a b step) s = .next (commitOne t) ∧ t.gv.mrf = s1.gv.mrf ∧ SameMem s1 t ∧ SameG s1 t ∧
          t = scatterLanes h w ((la.mapIdx (fun k i => if i.toInt < 0 then none else some (unit k).toNat)).zip
            (mrfVec s (mrfDir d) (mrfIdx d))) s1)

/-- VPSUM completes and writes one lane of D: the last prefix of the chain of the weights, or of the magnitudes above
level 0, with a sign bit that says that a NaN or a mark was met; it counts the NaNs of level 0. VDSC leaves a finished
draw row as it is; a draw whose total is zero or that makes no bonus draw finishes in its first level; otherwise it
completes on readable children: lane 0 is t less the prefix before the child chosen, lane 1 the child's node, lanes 4
and 5 at the last level the mark with the node and 1, and no other lane changes. VRNG of slots in the partition's
share completes where each ring holds the words asked for, and otherwise waits while the rings refill; a slot outside
the share is SLOT_BAD. The rings and slots read are those seen (not yet the results of the other stream's issue of two
cycles, R234). A word taken of a slot is word n mod 16 of the ChaCha8 block of its seed and n div 16, with n its
TICKET, which moves on by one. RWE_RING_REFILL fills the ring of one slot to 16 words and changes nothing else. (Rests
on spec/13_vector_instructions.md, Sampling, spec/08_generation_loop.md.) -/
def Obligations.SamplingAndRandomWords : Prop :=
  (∀ (q : Guard) (ty : VTy) (d a : Mrf) (lane : BitVec 5) (lv step : Bool) (s s1 : State) (la : List Lane), guardOn (cur s) q = true →
    RowOk s (mrfIdx d) → readOpnd (ctxAt .v0 s) a step s = .ok (la, s1) → PortFits s ty a →
    let cs := la.map (fun v => v.toNat)
    let nans := if lv then 0 else cs.countP (fun c => (f32 c).isNan)
    let ps := chain (cs.map (fun c => if lv then c % 2 ^ 31 else (weightFate c).1))
    let mark := if lv then cs.any (fun c => decide (2 ^ 31 ≤ c)) else decide (0 < nans)
    ∃ t, exec (.vpsum q ty d a lane lv step) s = .next (commitOne t) ∧ SameG s1 t ∧ SameMem s1 t ∧ (cur t).inan = (cur s1).inan + nans ∧
      (rget 0 t.gv.mrf (32 * (place (mrfDir d) (mrfIdx d) lane.toNat).1 + (place (mrfDir d) (mrfIdx d) lane.toNat).2)).toNat =
        (ps.getLastD (0, 0)).1 % 2 ^ 31 + (if mark then 2 ^ 31 else 0) ∧
      (∀ k, k ≠ 32 * (place (mrfDir d) (mrfIdx d) lane.toNat).1 + (place (mrfDir d) (mrfIdx d) lane.toNat).2 →
        rget 0 t.gv.mrf k = rget 0 s1.gv.mrf k)) ∧
  (∀ (q : Guard) (ty : VTy) (d a : Mrf) (hnd last first step : Bool) (s : State), guardOn (cur s) q = true →
    RowOk s (mrfIdx d) → RowOk s (mrfIdx a) →
    let row := mrfIdx d
    let l (k : Nat) : Nat := laneN s row k
    (l 5 % 2 = 1 → exec (.vdsc q ty d a hnd last first step) s = .next (commitOne s)) ∧
    (l 5 % 2 = 0 → first = true → l 3 / 2 ^ 31 = 1 →
      exec (.vdsc q ty d a hnd last first step) s = .next (commitOne (finishDraw row (2 ^ 29) s))) ∧
    (l 5 % 2 = 0 → first = true → l 3 / 2 ^ 31 = 0 → l 2 % 2 ^ 31 = 0 → exec (.vdsc q ty d a hnd last first step) s =
      .next (commitOne (finishDraw row (2 ^ 31 + (if l 2 / 2 ^ 31 = 1 then 2 ^ 30 else 0) + l 3 % 2 ^ 20) s))) ∧
    (l 5 % 2 = 0 → (first = true → l 3 / 2 ^ 31 = 0 ∧ l 2 % 2 ^ 31 ≠ 0) → ∀ cs,
      let node := if first then 0 else l 1 % 2 ^ 20
      drawChildren (ctxAt .v0 s) hnd (mrfIdx a) node s = .ok cs →
      let t0 := if first then (drawStart (l 2 % 2 ^ 31) (l 0)).1 else l 0
      let ws := cs.map (fun c => if last then (weightFate c).1 else c % 2 ^ 31)
      let ps := (chain ws).map (fun e => e.1)
      let c := drawChoice t0 ws ps
      let child := (32 * node + c) % 2 ^ 20
      ∃ t, exec (.vdsc q ty d a hnd last first step) s = .next (commitOne t) ∧ SameG s t ∧ SameMem s t ∧
        (∀ r, r ≠ row → mrfRow t r = mrfRow s r) ∧ (∀ k, k < 32 → k ≠ 0 → k ≠ 1 → k ≠ 4 → k ≠ 5 → laneN t row k = l k) ∧
        laneN t row 0 = (fSub fFP32 t0 (if c = 0 then 0 else ps.getD (c - 1) 0)).1 % 2 ^ 32 ∧ laneN t row 1 = child ∧
        (last = true → laneN t row 4 = (if l 2 / 2 ^ 31 = 1 then 2 ^ 30 else 0) + child ∧ laneN t row 5 = 1) ∧
        (last = false → laneN t row 4 = l 4 ∧ laneN t row 5 = l 5))) ∧
  (∀ (t : Nat) (ws ps : List Nat),
    let above (k : Nat) : Prop := (f32 t).isNan = false ∧ (f32 (ps.getD k 0)).isNan = false ∧ xcmp (f32 t) (f32 (ps.getD k 0)) = .lt
    let c := drawChoice t ws ps
    (∀ k, k < 32 → above k → c ≤ k ∧ above c) ∧
    ((∀ k, k < 32 → ¬ above k) → (∀ k, k < 32 → weightPos (ws.getD k 0) = true → k ≤ c ∧ weightPos (ws.getD c 0) = true) ∧
      ((∀ k, k < 32 → weightPos (ws.getD k 0) = false) → c = 0))) ∧
  (∀ (q : Guard) (ty : VTy) (d a : Mrf) (step : Bool) (s s1 : State) (la : List Lane), guardOn (cur s) q = true →
    RowOk s (mrfIdx d) → readOpnd (ctxAt .v0 s) a step s = .ok (la, s1) → PortFits s ty a →
    let slots := (la.filter (fun v => v.getLsbD 31)).map (fun v => v.toNat % 4096)
    let full := ∀ k ∈ slots, min 16 (slots.filter (fun p => p == k)).length ≤ ringHas (seen s) k
    ((∃ k ∈ slots, slotShare (seen s) (partOf (seen s) (cur s)) k = false) →
      exec (.vrng q ty d a step) s = .next (takeFault s.sel 4 ⟨.slotBad, 0, 0⟩ s)) ∧
    ((∀ k ∈ slots, slotShare (seen s) (partOf (seen s) (cur s)) k = true) → full →
      exec (.vrng q ty d a step) s = .next (commitOne (takeLanes (mrfDir d, mrfIdx d) ((List.range 32).zip la) s1))) ∧
    ((∀ k ∈ slots, slotShare (seen s) (partOf (seen s) (cur s)) k = true) → ¬ full →
      ∃ t, exec (.vrng q ty d a step) s = .next t ∧ (∀ k ∈ slots, ringHas t k = 16) ∧ SameMem s t ∧ SameG s t)) ∧
  (∀ (k : Nat) (s : State),
    let n := (slotWord s k 1).toNat
    (takeWord k s).1 = (chacha8 (chachaInput (rgetN 0 s.dev.seeds (8 * k) 8) n k)).getD (n % 16) 0 ∧
    slotWord (takeWord k s).2 k 1 = slotWord s k 1 + 1 ∧ ∀ j, j ≠ 4 * k + 1 → rget 0 (takeWord k s).2.dev.slots j = rget 0 s.dev.slots j) ∧
  ∀ (k : Nat) (s : State), k < 4096 → ∃ t, exec (.rweRingRefill k) s = .next t ∧ ringHas t k = 16 ∧
    (∀ j, j ≠ k → ringHas t j = ringHas s j) ∧ SameMem s t ∧ t.st0 = s.st0 ∧ t.st1 = s.st1 ∧ t.gv = s.gv

/-- Of a provisional task XCOLL, XPEER, SPALLOC and GCMT wait. Otherwise, for XCOPY, XGATH, XSCAT, XRED, XCONV, XFILL,
XCOLL, XPEER, XCANW, RTSUB, SPALLOC and GCMT: a card with a field out of range or a reserved bit set is JOB_BAD. A
card whose fields, formats, counter, peer or group and regions pass waits where the sequencer holds 64 jobs, or where
it would read a buffered store of its own provisional task; else the Grove's other buffered stores that it reads are
published, and it waits while a job still holds one of them back; else it is accepted: one job more, queued last, with
the partition's next job number, the card's words, counter address, increment, EXCH, task, launch and phase, a GCMT
having published its stream's stores (R138). Beyond those publications no byte of memory changes at issue, and no G
register, MRF lane or scratchpad byte. (Rests on spec/15_async_generation_instructions.md.) -/
def Obligations.JobCardsAreAccepted : Prop :=
  ∀ (i : Instr) (q : Guard) (code : Nat) (gb gc : Reg) (inc : BitVec 16) (ex : Bool) (s : State),
    jobSpec i = some (q, code, gb, gc, inc, ex) → guardOn (cur s) q = true →
    let k := cardOf s code gb
    let part := partOf (seen s) (cur s)
    let later := code ∈ [0x106, 0x107, 0x111, 0x112]
    ((cur s).prov = true → later → exec i s = .next (waitOne id s)) ∧
    (((cur s).prov = false ∨ ¬ later) →
    (cardOkBits k = false → exec i s = .next (takeFault s.sel 32 ⟨.jobBad, 0, 0⟩ s)) ∧
    (cardOkBits k = true → (code = 0x104 → fmtCheck (cur s) k.st = .ok () ∧ fmtCheck (cur s) k.typ = .ok ()) →
      ∀ u peer foot, CardPasses s k gc u peer foot →
        let late (e : BufByte) : Bool := !e.prov && readsByte (cur s) foot e
        let ownLate := (cur s).prov = true ∧ ∃ e ∈ u.gv.wbuf, e.task = (cur s).task ∧ readsByte (cur s) foot e = true
        let v := publish late u
        let w := if code = 0x112 then publish (ofStream s.sel) v else v
        (64 ≤ s.gv.jobs.length ∨ ownLate → exec i s = .next (waitOne id s)) ∧
        (s.gv.jobs.length < 64 → ¬ ownLate → published late v = false → exec i s = .next (waitOne (publish late) s)) ∧
        (s.gv.jobs.length < 64 → ¬ ownLate → published late v = true → ∃ t j, exec i s = .next (commitOne t) ∧ t.gv.jobs = s.gv.jobs ++ [j] ∧
          j.seq = rget 0 s.dev.jobctr part + 1 ∧ rget 0 t.dev.jobctr part = j.seq ∧ j.st = .queued ∧ j.op = code ∧
          j.cw0 = gRead (cur s) gb.toNat ∧ j.cw1 = gRead (cur s) (gb.toNat + 1) ∧ j.cw2 = gRead (cur s) (gb.toNat + 2) ∧
          j.cw3 = gRead (cur s) (gb.toNat + 3) ∧ j.counts = (gc != 0) ∧ j.caddr = (if gc = 0 then 0 else gOf s gc) ∧ j.prov = (cur s).prov ∧ j.inc = inc.toNat ∧ j.exch = ex ∧
          j.task = (cur s).task ∧ j.launch = (cur s).launch ∧ j.phase = recPhase (cur s).r3 ∧ j.fmtS = k.fs ∧ j.fmtD = k.fd ∧
          SameG s t ∧ SameMem w t ∧ t.gv.wbuf = w.gv.wbuf ∧ (s.gv.wbuf = [] → SameMem s t) ∧
          t.gv.mrf = s.gv.mrf ∧ t.gv.spad = s.gv.spad ∧ t.gv.canopy = s.gv.canopy ∧
          strm t (!s.sel) = strm s (!s.sel))))

/-- TAPX of a task that is not provisional: fields out of range are TAP_RANGE, an undeclared point is TAP_UNDECLARED; a
point that is not enabled, or enabled for the other stage, has no effect; an acting TAPX whose checks pass and whose
vectors are readable completes with the point presented: each key (point, slot, probe) takes, for each valid row of
the slot in ascending order, the E8M31 sum of what it held, or +0, and the row's partial, and no other key changes;
each valid row whose slot's entry STEERMASK allows and that is not HELD has its first l elements steered, all others
stand; and no MRF row outside its own, no G register and no byte of memory changes. A partial of finite values is
their exact sum of products rounded once into E8M31 and sets no flag; a steered element is the exact row + α × S
rounded once into the residual type. TAPQ writes EN, declared, STAGE, presented, NPRB and the refusals of point G[A],
and 64 or more is ILLEGAL_ENC. SHPRD writes the predicted and the resolved extent of the launch. SHRES of a task that
is not provisional publishes the stream's stores and completes without a wait, its write of the word queued behind
them; an atomic write of it at home follows once no job holds one of them back, oldest first; a word with bits [31:25]
set is SHAPE_WORD. (Rests on spec/07_taps_and_shapes.md, spec/15_async_generation_instructions.md.) -/
def Obligations.TapAndShapeOps : Prop :=
  (∀ (q : Guard) (s : State), guardOn (cur s) q = true →
    let o := seen s
    let l := launchOf s (cur s).launch
    let lo := launchOf o (cur s).launch
    let tab := tapTab l
    (∀ gb : Reg, (cur s).prov = false →
      let w0 := (gRead (cur s) gb.toNat).toNat
      let w1 := (gRead (cur s) (gb.toNat + 1)).toNat
      let c := tapCard w0 w1
      let np := tapNprb s tab c.point
      (tapFieldsOk w0 w1 = false → exec (.tapx q gb) s = .next (takeFault s.sel 32 ⟨.tapRange, 0, 0⟩ s)) ∧
      (tapFieldsOk w0 w1 = true → tapDeclared l c.point = false →
        exec (.tapx q gb) s = .next (takeFault s.sel 32 ⟨.tapUndeclared, 0, 0⟩ s)) ∧
      (tapFieldsOk w0 w1 = true → tapDeclared l c.point = true →
        (tapEn s tab c.point = false ∨ tapStage s tab c.point ≠ c.stage → exec (.tapx q gb) s = .next (commitOne s)) ∧
        (tapEn s tab c.point = true → tapStage s tab c.point = c.stage → c.off + c.len ≤ tapHid s tab c.point →
          RowOk s c.map → RowOk s c.first → RowOk s (c.first + c.count - 1) → hasArrived s l = false →
          tapFullFor s (cur s).launch l (tapKeys s (cur s).launch np c) c.point = false →
          ∀ pv s1 sv s2, tapVectors (fun k => tapWord s tab c.point (4 + 2 * k)) c.off c.len (List.range np) s = .ok (pv, s1) →
            tapVectors (fun e => steerWord s1 (steerTab l) e 0) c.off c.len
              (((List.range c.count).filterMap (fun i => (tapSlot s c i).bind (fun k =>
                if bit (slotWord s1 k 0).toNat 29 then none else (slotEntry s1 k).filter (bit (tapWord s1 tab c.point 1))))).eraseDups) s1 =
              .ok (sv, s2) →
            let n := (cur s).launch
            let held (u : State) (key : Nat) : Acc := ((u.gv.tapbuf.find? (fun e => e.1 == key)).map (fun e => e.2)).getD 0
            let res (r : Nat) : List Nat := residual c.bf (mrfRow s r)
            let steers : List Nat := ((List.range c.count).filterMap (fun i => (tapSlot s c i).bind (fun k =>
              if bit (slotWord s1 k 0).toNat 29 then none else (slotEntry s1 k).filter (bit (tapWord s1 tab c.point 1))))).eraseDups
            let steered (i e : Nat) : Prop := ∃ k, tapSlot s c i = some k ∧ slotEntry s1 k = some e ∧
              (slotWord s1 k 0).getLsbD 29 = false ∧ bit (tapWord s1 tab c.point 1) e = true
            ∃ t, exec (.tapx q gb) s = .next (commitOne t) ∧ c.point ∈ (launchOf t n).nowPres ∧
              (∀ slot k, slot < 4096 → k < np → held t (tapKey n c.point slot k) =
                ((List.range c.count).filter (fun i => tapSlot s c i == some slot)).foldl (fun a i => BitVec.ofNat 40 (fAdd fE8M31 a.toNat
                  (tapPartial c.bf ((res (c.first + i)).take c.len) (pv.getD k [])).1).1) (held s (tapKey n c.point slot k))) ∧
              (∀ key, (∀ slot k, slot < 4096 → k < np → key ≠ tapKey n c.point slot k) → held t key = held s key) ∧
              (∀ i e sl, i < c.count → steered i e → (e, sl) ∈ steers.zip sv → ∀ slot, tapSlot s c i = some slot →
                residual c.bf (mrfRow t (c.first + i)) = (res (c.first + i)).mapIdx (fun j v => if j < c.len then
                  (steerElem c.bf v (rget 0 s1.dev.slotAlpha slot).toNat (sl.getD j 0)).1 else v)) ∧
              (∀ i, i < c.count → (∀ e, ¬ steered i e) → mrfRow t (c.first + i) = mrfRow s (c.first + i)) ∧
              (∀ r, r < c.first ∨ c.first + c.count ≤ r → mrfRow t r = mrfRow s r) ∧ SameG s t ∧ SameMem s t ∧ t.gv.acc = s.gv.acc))) ∧
    (∀ d a : Reg,
      (64 ≤ gNat s a → exec (.tapq q d a) s = .next (takeFault s.sel 32 ⟨.illegalEnc, 0, 0⟩ s)) ∧
      (gNat s a < 64 → exec (.tapq q d a) s = .next (commitOne (setG s d (w64 ((tapEn o (tapTab lo) (gNat s a)).toNat * 2 ^ 63 +
        (tapDeclared lo (gNat s a)).toNat * 2 ^ 62 + (tapStage o (tapTab lo) (gNat s a)).toNat * 2 ^ 61 +
        (decide (gNat s a ∈ lo.nowPres)).toNat * 2 ^ 60 + tapNprb o (tapTab lo) (gNat s a) * 2 ^ 56 +
        rget 0 o.dev.refuse (64 * (tapTab lo % 16) + gNat s a))))))) ∧
    (∀ d : Reg, exec (.shprd q d) s = .next (commitOne (setG s d
      (if lo.shaped = false then w64 (2 ^ 63 + gridTiles lo % 2 ^ 25 * 2 ^ 32 + gridTiles lo % 2 ^ 25)
       else if lo.resolved = true then w64 (2 ^ 63 + lo.ext % 2 ^ 25 * 2 ^ 32 + lo.pred % 2 ^ 25) else w64 (lo.pred % 2 ^ 25))))) ∧
    ∀ gb : Reg,
      let a := gRead (cur s) gb.toNat
      let v := gRead (cur s) (gb.toNat + 1)
      ((cur s).prov = true → exec (.shres q gb) s = .next (waitOne id s)) ∧
      ((cur s).prov = false → a.toNat % 8 = 0 → addrCheck .ld a.toNat 8 = .ok () → pathOf a.toNat = 0 ∨ pathOf a.toNat = 2 →
        ∀ sp pa uc s1, xlateOp .st a.toNat s = .ok ((sp, pa, uc), s1) →
        (bits v.toNat 31 25 ≠ 0 → exec (.shres q gb) s = .next (takeFault s.sel 32 ⟨.shapeWord, 0, 0⟩ s)) ∧
        (bits v.toNat 31 25 = 0 →
          let u := (if pathOf a.toNat = 0 then overtakeBuf pa 8 else id) (publish (ofStream s.sel) s1)
          exec (.shres q gb) s = .next (commitOne { u with gv := { u.gv with shres := u.gv.shres ++ [⟨s.sel, pa, v, (cur s).asid, lowOf a.toNat⟩] } }) ∧
          u.gv.shres = s.gv.shres)) ∧
      ∀ (w : ShapeWrite) (rest done : List ShapeWrite), s.gv.shres = done ++ w :: rest →
        (∀ x ∈ done, storesWait s x.strm = true) →
        (storesWait s w.strm = false → homeWord (shresPerform s) .dev w.pa = w.val ∧
          (∀ sp' x, Outside [(.dev, w.pa, 8)] sp' x → homeByte (shresPerform s) sp' x = homeByte s sp' x) ∧
          (shresPerform s).gv.shres = done ++ rest) ∧
        (rest = [] → storesWait s w.strm = true → shresPerform s = s)) ∧
  (∀ (bf : Bool) (row pv : List Nat), row.length = pv.length →
    (∀ p ∈ row.zip pv, (decF (resFmt bf) p.1).isSpecial = false ∧ (f32 p.2).isSpecial = false) →
    let x := ((row.zip pv).map (fun p => ratOf (decF (resFmt bf) p.1) * ratOf (f32 p.2))).sum
    let r := tapPartial bf row pv
    r.2 = 0 ∧ (x = 0 → ratOf (decF fE8M31 r.1) = 0) ∧
    (x ≠ 0 → ∀ (q L : ℚ) (n : Nat), IsStep fE8M31 x q → Nearest fE8M31 x q n → IsLargest fE8M31 (decide (x < 0)) L →
      if n * q ≤ L then Holds fE8M31 r.1 (decide (x < 0)) (n * q) else decF fE8M31 r.1 = .inf (decide (x < 0)))) ∧
  ∀ (bf : Bool) (v al sl : Nat), (decF (resFmt bf) v).isSpecial = false → (f32 al).isSpecial = false → (f32 sl).isSpecial = false →
    let f := resFmt bf
    let x := ratOf (decF f v) + ratOf (f32 al) * ratOf (f32 sl)
    let r := steerElem bf v al sl
    (x = 0 → ratOf (decF f r.1) = 0 ∧ r.2 = 0) ∧
    (x ≠ 0 → ∀ (q L : ℚ) (n : Nat) (ix : Bool), IsStep f x q → Nearest f x q n → IsLargest f (decide (x < 0)) L →
      (ix = true ↔ n * q ≠ |x|) →
      (n * q ≤ L → Holds f r.1 (decide (x < 0)) (n * q) ∧ r.2 = roundFlags f x ix) ∧
      (L < n * q → decF f r.1 = .inf (decide (x < 0)) ∧ r.2 = fOF ||| fNX))

/-- Where the acting stream may issue, BUNDLE_ISSUE waits where the issue does; else it is counted as denied where the
merge collides; else it commits or takes its fault, and notes the datapaths that it held. On a salvaged Grove v1 is on
v0's datapath, and a bundle with v0 and v1 takes two cycles: the first notes the datapaths without v1 and leaves the
stream RUNNING, in the second the issue happens on v0's, and what it wrote is there at once for whatever changes it,
while the other stream reads memory, the units and this stream as they were until the end of that cycle (what of it
the other stream could see is the model's reading, log 86). A stream that may not issue is unchanged.
SECONDARY_FORCED_ISSUE commits the bundle of a secondary that has been denied 63 cycles and whose bundle is ready; the
primary, where it would issue, is STALLED for that cycle, which is then over; elsewhere nothing changes (that an event
that is not due changes nothing is the model's choice, notes/assumptions/5.md). SEGMENT_OVERRUN counts an exceeded
allowance once, saturating, marks RUN_OVERRUN as due where STRICT is set and the cap has not acted in the segment and
does not act now, and changes nothing else. (Rests on spec/02_execution_model.md, spec/95_what_each_step_holds.md,
spec/09_encoding.md.) -/
def Obligations.BundleIssueAndForcedIssue : Prop :=
  ∀ (s : State) (b : Bool) (h : Word) (ops : List Word),
    (let u := withSel b s
     let ps := if skips (cur u) h then [] else (contribs (cur u) h ops).map (fun k => k.pos)
     let both := s.gv.salvaged = true ∧ Pos.v0 ∈ ps ∧ Pos.v1 ∈ ps
     let fault := bundleFault (cur u) h ops (contribs (cur u) h ops)
     (canIssue u = false → exec (.bundleIssue b h ops) s = .next u) ∧
     (canIssue u = true → ∀ effs, issueEnd h ops u = .stall effs → exec (.bundleIssue b h ops) s = .next (stallIssue effs u)) ∧
     (canIssue u = true → (∀ effs, issueEnd h ops u ≠ .stall effs) →
       (∀ dp, (both → (cur u).half = false → dp = (ps.filter (fun p => p != .v1)).map posNum) →
          (both → (cur u).half = true → dp = [posNum .v0]) →
          (¬ both → dp = ps.map (fun p => if s.gv.salvaged = true ∧ p = .v1 then posNum .v0 else posNum p)) →
         (collides u dp = true → exec (.bundleIssue b h ops) s = .next (denySecondary u)) ∧
         (collides u dp = false →
           (both → (cur u).half = false → fault = none →
             exec (.bundleIssue b h ops) s = .next (noteIssued dp (modCur u (fun c => wake { c with half := true, denied := 0 })))) ∧
           (¬ both ∨ (cur u).half = true ∨ fault ≠ none →
             (∀ t, issueEnd h ops u = .commit t → exec (.bundleIssue b h ops) s = .next (noteIssued dp (if (cur u).half then commitLate u t else t))) ∧
             (∀ m f, issueEnd h ops u = .fault m f → exec (.bundleIssue b h ops) s = .next (noteIssued dp (faultIssue m f u)))))))) ∧
    (∀ u t : State, let v := commitLate u t
      { v with late := t.late } = t ∧
      (∀ b, let w := seen (withSel b v)
        w.mem = u.mem ∧ w.hmem = u.hmem ∧ w.dev = u.dev ∧ w.gv.spad = u.gv.spad ∧ w.gv.handles = u.gv.handles ∧
        w.gv.wbuf = u.gv.wbuf ∧ w.gv.comp = u.gv.comp ∧ w.gv.idle = u.gv.idle ∧ w.gv.owner = u.gv.owner ∧
        w.gv.uentry = u.gv.uentry ∧ groveRegs w.gv = groveRegs u.gv ∧ strm w (!b) = strm u (!b) ∧ strm w b = strm t b) ∧
      (let w := showLate v
       seen w = w ∧ w.mem = t.mem ∧ w.hmem = t.hmem ∧ w.dev = t.dev ∧ w.st0 = t.st0 ∧ w.st1 = t.st1 ∧
         w.gv = { t.gv with l1 := w.gv.l1 } ∧ ∀ l ∈ w.gv.l1, l ∈ t.gv.l1)) ∧
    (let u := withSel (!s.gv.primary) s
     (forcedDue u h ops = false → exec (.secondaryForcedIssue h ops) s = .next s) ∧
     (forcedDue u h ops = true → s.gv.salvaged = false → ∀ t, issueEnd h ops u = .commit t →
       (cur u).half = false → ∃ v, exec (.secondaryForcedIssue h ops) s = .next v ∧ v.turn = 3 ∧
         strm v (!s.gv.primary) = strm t (!s.gv.primary) ∧
         (let p := strm t s.gv.primary
          strm v s.gv.primary = { p with status := if p.status = .running ∧ p.idleSeen = none ∧ p.ending = false then .stalled else p.status }) ∧ v.mem = t.mem ∧
         v.hmem = t.hmem ∧ v.dev = t.dev ∧ v.gv = { t.gv with issued := v.gv.issued })) ∧
    ((overrunDue (strm s b) = false → exec (.segmentOverrun b) s = .next s) ∧
     (overrunDue (strm s b) = true → ∃ t, exec (.segmentOverrun b) s = .next t ∧ t.gv = { s.gv with ovrcnt := min 0xFFFF (s.gv.ovrcnt + 1) } ∧
       strm t b = { strm s b with ovr := true, overrun := s.gv.strict && !(strm s b).capped && !capActs s.gv } ∧ strm t (!b) = strm s (!b) ∧
       overrunDue (strm t b) = false ∧ { t with st0 := s.st0, st1 := s.st1, gv := s.gv } = s))

/-- ARBITRATE takes note of what the other Groves have taken, ended, allocated, presented and written (that it is told so
is the model's choice, log 1); it leaves a stream with a task as it is, and an idle one where there is no candidate.
Otherwise it takes a candidate whose effective rank no other queue's candidate exceeds, the first in queue order from
RPTR among those of that rank, moves RPTR past its queue, and, for a record, the stream runs its task: pc at the entry
point plus 8 times CODEOFF, the launch's level and ASID, G62 the task-end value, G61 the frame address, G60 the tile,
every other G register of G1 to G58 zero. SLICE_BOUNDARY moves the slice on at its time, and changes nothing before
(the model's choice, log 5). URGENT_SAVE of a stopped task that may be saved, whose image can be written, leaves its
stream IDLE and one more live image of its task in the lowest free slot (the model's choice, notes/assumptions/18.md),
or its launch FAULTED where the image cannot be written (also where its address does not translate: the model's
reading, notes/assumptions/30.md); a save that must wait leaves its stream SAVING, or STALLED for want of a slot
alone, and changes nothing else. (Rests on spec/02_execution_model.md, spec/21_traps_faults_preemption.md.) -/
def Obligations.ArbitrationSlicesAndSaves : Prop :=
  ∀ (s : State) (b : Bool),
    (∀ told : ArbTold, told.strm = b →
    let u := tellAway told s
    (hasTask (strm u b) = true → exec (.arbitrate told) s = .next u) ∧
    (choose u b = none → exec (.arbitrate told) s = .next u) ∧
    (∀ q e, choose u b = some (q, e) → (∀ x ∈ u.dev.queues, ∀ e', candOf u b x.1 = some e' → effRank u e' ≤ effRank u e ∧
        (effRank u e' = effRank u e → (q + 256 - s.gv.rptr) % 256 ≤ (x.1 + 256 - s.gv.rptr) % 256)) ∧
      (hasTask (strm u b) = false → e.resume = none → ∃ t, exec (.arbitrate told) s = .next t ∧ t.gv.rptr = (q + 1) % 256 ∧
        (let l := launchOf u (recLaunch e.w3)
         let c := strm t b
         c.status = .running ∧ c.pc = w64 (opWord l 2) + w64 (8 * recCodeoff e.w0) ∧ c.level = opPriv l ∧ c.asid = opAsid l ∧
         c.launch = recLaunch e.w3 ∧ c.queue = q ∧ gRead c 62 = taskEnd ∧ gRead c 61 = l.fbase + w64 (16 * recFrameoff e.w1) ∧
         gRead c 60 = w64 (tile48 e.w1 e.w2) ∧ (∀ n, n < 59 → gRead c n = 0)) ∧ strm t (!b) = strm u (!b)))) ∧
    (s.gv.sliceStart + s.gv.slice ≤ s.now →
      exec .sliceBoundary s = .next { s with gv := { s.gv with sliceStart := s.gv.sliceStart + s.gv.slice } }) ∧
    (s.now < s.gv.sliceStart + s.gv.slice → exec .sliceBoundary s = .next s) ∧
    (savesNow b s = false → (let u := noteSaving b s; u.gv.heldTasks.all (fun c => c.prov || !saveReady u c) = true) →
      ∃ t, exec (.urgentSave b) s = .next t ∧ t.gv = s.gv ∧ t.dev = s.dev ∧ SameMem s t ∧ strm t (!b) = strm s (!b) ∧
        strm t b = { strm s b with status := (strm t b).status } ∧ (saveHolds (strm s b) = false → t = s) ∧
        (saveHolds (strm s b) = true → (strm s b).status = .running ∨ (strm s b).status = .stalled ∨ (strm s b).status = .saving →
          (strm t b).status = if saveSettled s (strm s b) = true ∧ freeCtx s (partOf s (strm s b)) = none then .stalled else .saving)) ∧
    (savesNow b s = true → ∃ t, exec (.urgentSave b) s = .next t ∧ hasTask (strm t b) = false ∧
      ∀ kind slot, (strm s b).saveWant = some kind → freeCtx s (partOf s (strm s b)) = some slot →
        let v := publish (saveStores (strm s b)) s
        let img := putPieces (partOf s (strm s b)) (slotAddr v (partOf s (strm s b)) slot) (imagePieces v b (strm s b) (kind == 0)) v
        (∀ u, img = some u →
          ∃ x ∈ t.dev.ctxlive, x.slot = slot ∧ x.part = partOf s (strm s b) ∧ x.task = (strm s b).task ∧ x.launch = (strm s b).launch) ∧
        (img = none → (launchOf t (strm s b).launch).st = .faulted))

/-- The effective rank of a record of RANK 7 is 7; of any other ready record it is the lesser of 6 and RANK plus its age
divided by 2^20, so never 7. The end of every cycle keeps the cycle from which a record's age counts while the record
stays ready, sets it where the record becomes ready, and forgets it where the record is not ready. (States R45.) -/
def Obligations.EffectiveRankAges : Prop :=
  (∀ (s : State) (e : QEntry), recRank e.w2 = 7 → effRank s e = 7) ∧
  (∀ (s : State) (e : QEntry) (t : Nat), recRank e.w2 ≠ 7 → e.readyAt = some t →
    effRank s e = min 6 (recRank e.w2 + (s.now - t) / 2 ^ 20)) ∧
  (∀ (s : State) (e : QEntry), recRank e.w2 ≠ 7 → effRank s e ≤ 6) ∧
  ∀ (s : State) (q : Nat), (queueOf (tick s) q).entries = (queueOf s q).entries.map (fun e =>
    { e with readyAt := (if recReady s e = true then some (e.readyAt.getD s.now) else none) })

/-- PHASE_NODE_COMPLETE ends the phase's tasks on other Groves, and takes an ACTIVE launch whose Groves have arrived and
whose population is then empty to step 2; PHASE_DRAIN_DONE publishes the stores and goes on once none of them is held
back; PHASE_EXCHANGE_DONE goes on where no exchange job of the phase is left; SETTLEMENT publishes the kept tiles'
stores, discards the surplus tiles', moves the predictor's history (of the version that the operator took: the model's
choice, notes/assumptions/67.md) on by the extent, and goes on; TAP_COMPARE goes on and empties the launch's partial
buffer; PHASE_FLIP, its tap records written, makes the next phase ACTIVE with its arrivals cleared where later records
wait, and ends a launch after which no record, task or job is left: its launch-lived handles are freed, its partials
and tap marks are gone, its queue is unbound, its slot released, and a chain without a further operator completes its
packet; it waits for jobs that are left, and gives the slot of a faulted launch without tasks or jobs back (the
model's choice, notes/assumptions/77.md and 54.md); PHASE_STALL is noted once a phase, in step 1 or while step 6 waits
for a full event ring. In any other state each leaves the machine unchanged (the model's choice,
notes/assumptions/5.md). (Rests on spec/02_execution_model.md, spec/07_taps_and_shapes.md,
spec/22_front_end_firmware.md.) -/
def Obligations.PhaseStepsOfALaunch : Prop :=
  ∀ (s : State) (n : Nat),
    let l := launchOf s n
    (∀ arrived others,
      let t := settleAll (takePinned n arrived (endAway (fun a => a.launch == n && a.phase == curPhase l) s))
      let ready := (launchOf t n).st = .active ∧ allArrived t (launchOf t n) arrived = true ∧ popEmpty t n = true
      (ready → ∃ u, exec (.phaseNodeComplete n arrived others) s = .next u ∧ (launchOf u n).st = .drain ∧
        (launchOf u n).phase = l.phase ∧ SameMem t u ∧ u.st0 = s.st0 ∧ u.st1 = s.st1) ∧
      (¬ ready → exec (.phaseNodeComplete n arrived others) s = .next s)) ∧
    (let t := publish (drainStores n) s
     (l.st = .drain → published (drainStores n) t = true → exec (.phaseDrainDone n) s = .next (modLaunch t n (fun l => { l with st := .exchange }))) ∧
     (l.st = .drain → published (drainStores n) t = false → exec (.phaseDrainDone n) s = .next t) ∧
     (l.st ≠ .drain → exec (.phaseDrainDone n) s = .next s)) ∧
    (l.st = .exchange → (∀ j ∈ s.gv.jobs, ¬ (j.launch = n ∧ j.exch = true ∧ j.phase = curPhase l)) →
      exec (.phaseExchangeDone n) s = .next (modLaunch s n (fun l => { l with st := .resolve }))) ∧
    (l.st ≠ .exchange ∨ exchangeDone s n = false → exec (.phaseExchangeDone n) s = .next s) ∧
    (l.st ≠ .resolve → exec (.settlement n) s = .next s) ∧
    (l.st = .resolve → l.settled = true → exec (.settlement n) s = .next (modLaunch s n (fun l => { l with st := .compare }))) ∧
    (l.st = .resolve → l.settled = false → published (lateStores n) (publish (lateStores n) s) = true →
      ∃ t, exec (.settlement n) s = .next t ∧ (launchOf t n).st = .compare ∧ (launchOf t n).settled = true ∧
        (∀ e ∈ t.gv.wbuf, ¬ (e.launch = n ∧ (e.prov = true ∨ e.late = true))) ∧
        sptWord t (sptTab l) (opSpt l) 1 % 2 ^ 25 = l.ext % 2 ^ 25) ∧
    (∀ others shown, (l.st ≠ .compare → exec (.tapCompare n ⟨others, shown⟩) s = .next s) ∧
      (l.st = .compare → ∃ t, exec (.tapCompare n ⟨others, shown⟩) s = .next t ∧ (∀ p ∈ shown, p ∈ (launchOf t n).everPres) ∧ (launchOf t n).st = .flip ∧ launchKeys t n = [] ∧
        t.st0 = s.st0 ∧ t.st1 = s.st1 ∧ t.gv.mrf = s.gv.mrf)) ∧
    (l.st = .flip → tapSent s n = true → laterRecs s n = true → ∃ t, exec (.phaseFlip n) s = .next t ∧ (launchOf t n).st = .active ∧
      (launchOf t n).phase = l.phase + 1 ∧ (launchOf t n).arrived = [] ∧ (launchOf t n).nowPres = [] ∧ (launchOf t n).farPres = [] ∧ (launchOf t n).phaseStart = s.now) ∧
    (let none := laterRecs s n = false ∧ tasksOf s n = false ∧ pendingShape l = false ∧ l.tileEnd ≤ l.tileNext
     let k := (cmdq s l.cmdq).chain
     (l.st = .flip → tapSent s n = true → none → mayEnd s n = false →
       ∃ t, exec (.phaseFlip n) s = .next t ∧ (launchOf t n).st = .waitJobs ∧ (launchOf t n).phase = l.phase + 1) ∧
     (l.st = .flip ∧ tapSent s n = true ∧ none ∨ l.st = .waitJobs → mayEnd s n = true →
       k.active ≠ some n ∨ k.shadow = .none ∧ k.bad = .none ∧ k.todo = [] →
       ∃ t, exec (.phaseFlip n) s = .next t ∧ launchOf t n = {} ∧ launchKeys t n = [] ∧ (∀ a ∈ t.dev.tapActs, a.1 ≠ n) ∧
         (∀ j, (handleOf t j).alloc = true → (handleOf t j).launchLife = true → (handleOf t j).launch = n → (handleOf t j).freed = true) ∧
         ((queueOf s (opQueue l)).bound = some n → waitingOps (cmdq s l.cmdq) = [] → (queueOf t (opQueue l)).bound = .none) ∧
         (k.active = some n → s.dev.recovering = false → (∃ p, (cmdq s l.cmdq).cur = some p ∧ p.opc = 1) →
           (cmdq t l.cmdq).cur = .none))) ∧
    (l.st = .faulted → tasksOf s n = false → mayEnd s n = true → (cmdq s l.cmdq).chain.active ≠ some n →
      ∃ t, exec (.phaseFlip n) s = .next t ∧ launchOf t n = {}) ∧
    (l.st ≠ .flip → l.st ≠ .waitJobs → l.st ≠ .faulted → exec (.phaseFlip n) s = .next s) ∧
    (l.stalled = true ∨ (l.st ≠ .active ∧ l.st ≠ .evicted ∧ (l.st ≠ .flip ∨ tapSent s n = true)) → exec (.phaseStall n) s = .next s) ∧
    (l.stalled = false → l.st = .active ∨ l.st = .evicted ∨ (l.st = .flip ∧ tapSent s n = false) →
      ∃ t, exec (.phaseStall n) s = .next t ∧ launchOf t n = { l with stalled := true })

/-- SHAPE_RESOLUTION of a launch whose shape word has arrived leaves it resolved with the extent that the word gives, at
most the grid; otherwise nothing changes (that an event that is not due changes nothing is the model's choice,
notes/assumptions/5.md). OPERATOR_EXPAND of a queue whose front end has nothing to do changes nothing; with another
operator active and a slot free, a record that passes is loaded into the lowest free slot (the model's choice,
notes/assumptions/18.md) as the shadow operator, and one that does not is noted with its status (which one where
several apply: the model's choice, notes/assumptions/27.md); a shadow operator without a shape word whose grid passes
becomes ACTIVE with the partition's next number; while the last operator of a LAUNCH is ACTIVE, the arms of the PRED
after it are parsed and expanded, and so is the first operator of a later LAUNCH of a taken arm. (Rests on
spec/07_taps_and_shapes.md, spec/22_front_end_firmware.md.) -/
def Obligations.ShapesResolveAndOperatorsExpand : Prop :=
  ∀ (s : State) (n q : Nat),
    (shapeArrived s n = false → exec (.shapeResolution n) s = .next s) ∧
    (shapeArrived s n = true → ∃ t, exec (.shapeResolution n) s = .next t ∧ (launchOf t n).resolved = true ∧
      (launchOf t n).ext = min (bits (homeWord s .dev (launchOf s n).shapePa).toNat 24 0) (gridTiles (launchOf s n)) ∧
      (launchOf t n).tileProv = false ∧ (launchOf t n).phase = (launchOf s n).phase) ∧
    (let c := (cmdq s q).chain
     (expandDue s q = false → exec (.operatorExpand q) s = .next s) ∧
     (chainReady s q = true → ∀ k w r m, c.active = some k → c.todo = w :: r → c.shadow = none → freeSlot s = some m →
       (expandStatus s q w = stOk → ∃ t, exec (.operatorExpand q) s = .next t ∧ (launchOf t m).st = .loaded ∧ (launchOf t m).op = w ∧
         (cmdq t q).chain.shadow = some m ∧ (cmdq t q).chain.todo = r ∧ (cmdq t q).chain.active = some k ∧ SameMem s t) ∧
       (expandStatus s q w ≠ stOk → ∃ t, exec (.operatorExpand q) s = .next t ∧ (cmdq t q).chain.bad = some (expandStatus s q w) ∧
         t.dev.launches = s.dev.launches ∧ SameMem s t)) ∧
     (chainReady s q = true → c.active = none → c.hold = false → s.dev.recovering = false → c.shadow = some n →
       gridOk (launchFrom s q (launchOf s n).op) = true → opShp (launchFrom s q (launchOf s n).op) = false → (cmdq s q).part ≠ mgmtPart →
       ∃ t, exec (.operatorExpand q) s = .next t ∧ (launchOf t n).st = .active ∧ (launchOf t n).phase = 0 ∧
         (cmdq t q).chain.active = some n ∧ (cmdq t q).chain.shadow = none ∧
         (launchOf t n).seq = rget 0 s.dev.seqctr (cmdq s q).part + 1)) ∧
    (chainReady s q = false → ∀ p, armsAhead s q = some p →
      ∃ t, exec (.operatorExpand q) s = .next t ∧ (cmdq t q).parsed = true ∧ SameMem s t) ∧
    (chainReady s q = false → armsAhead s q = none → ∀ w m, laterOp s q = some w → freeSlot s = some m → expandStatus s q w = stOk →
      ∃ t, exec (.operatorExpand q) s = .next t ∧ (cmdq t q).opTaken.slot = some m ∧ (launchOf t m).op = w ∧ SameMem s t)

/-- An event that names no job, or a job that it does not fit, changes nothing (the model's choice,
notes/assumptions/5.md). JOB_START of an admitted copy, conversion, fill or fabric card whose reads succeed sets it
running with its bytes computed and no memory changed; of XRED it stages the next 4,096 elements, or applies those
staged; of XCANW it writes the next row of the canopy; of SPALLOC it divides its check slots, which gives each
eligible slot at most 16, at least 1 where they suffice, and all that is given; of GCMT it commits the next row, skips
it, or after the last divides and forms the control block (the staging room that waits: the model's sizes, log 84). A
memory error requeues the first and second attempt, of XRED with what it has staged. ROUTER_SUBMISSION takes a
submission that no earlier one of the partition precedes, a provisional one where its writes can be staged.
JOB_COMPLETE of a finished card that is not provisional writes its bytes (not before: the model's choice, log 69) and
removes it, its counter then holding the completion add; a provisional one's writes outside the Grove are held.
FABRIC_TIMEOUT, PEER_REJECT and COLL_MISMATCH fail a running fabric job. An inbound write lands in the window of the
partition whose peer table names its sender, or nowhere. (Rests on spec/15_async_generation_instructions.md,
spec/05_memory_model.md, spec/27_partitions_host_boot.md.) -/
def Obligations.JobEventsRunCards : Prop :=
  ∀ (s : State) (n : Nat) (peers : List (Nat × List Byte)),
    (jobOf s n = none → ∀ i, i ∈ [Instr.jobStart n false, .jobStart n true, .jobComplete n peers, .fabricTimeout n, .routerSubmission n,
        .peerReject n, .collMismatch n] → exec i s = .next s) ∧
    (∀ j, jobOf s n = some j →
      (jobStarts s j = false → ∀ e, exec (.jobStart n e) s = .next s) ∧
      (jobStarts s j = true → j.st = .queued →
        (j.tries < 2 → exec (.jobStart n true) s = .next (setJob { replayed j with tries := j.tries + 1 } s)) ∧
        (j.op ∉ [0x103, 0x108, 0x111, 0x112] → ∀ r u, jobRun j s = .ok (r, u) →
          (j.prov = true → 2 ^ 20 < stagedBytes s + heldSize r.out → exec (.jobStart n false) s = .next s) ∧
          ((j.prov = true → stagedBytes s + heldSize r.out ≤ 2 ^ 20) → ∃ t, exec (.jobStart n false) s = .next t ∧
            jobOf t n = some { j with st := .running, out := r.out, send := r.send, flags := w64 r.flags, asks := asksSince s u } ∧
            SameMem s t ∧ t.gv.spad = s.gv.spad ∧ t.st0 = s.st0 ∧ t.st1 = s.st1 ∧
            (∀ k, k ≠ n → jobOf t k = jobOf s k))) ∧
        (j.op = 0x111 → ∀ dp s1 bs u, locsPlaces j (jobCard j).dsts s = .ok (dp, s1) → readLocs j (jobCard j).srcs s1 = .ok (bs, u) →
          let named := spallocSlots bs (bits j.cw2.toNat 12 0)
          let part := (launchOf u j.launch).part
          let c := bits j.cw2.toNat 31 16
          let given := allocate c named u
          ((∃ k ∈ named, slotShare u part k = false) → j.prov = false →
            ∃ t, exec (.jobStart n false) s = .next t ∧ t.dev.slots = s.dev.slots ∧ ∀ i ∈ t.gv.jobs, i.seq ≠ n) ∧
          ((∀ k ∈ named, slotShare u part k = true) → ∃ t k, exec (.jobStart n false) s = .next t ∧ jobOf t n = some k ∧ k.st = .running ∧
            t.dev.slots = given.2.dev.slots ∧ SameMem s t ∧ k.out = outsOf dp (natLe 8 (given.1 +
              (if named.any (slotEligible u) = true then c - given.1 else 0) * 2 ^ 16))))) ∧
      (jobStarts s j = true → j.lost = false →
        (j.op = 0x103 → (j.st = .running → j.wait.length < (redChunk j).length ∧ j.fail ≠ 3) →
          let es := (redChunk j).filter (fun e => decide (e ∉ j.wait))
          (2 ^ 20 < stagedBytes s + 8 * es.length → exec (.jobStart n false) s = .next s) ∧
          (stagedBytes s + 8 * es.length ≤ 2 ^ 20 → ∀ k u, redStage es { j with lost := false } s = (k, none, u) → ∃ t a,
            exec (.jobStart n false) s = .next t ∧ jobOf t n = some { k with st := .running, asks := a } ∧ SameMem s t)) ∧
        (j.op = 0x103 → j.st = .running → j.wait.length = (redChunk j).length → j.fail ≠ 3 → j.prov = false → ∃ t k,
          exec (.jobStart n false) s = .next t ∧ jobOf t n = some k ∧ k.red = [] ∧ k.wait = [] ∧
          k.done = j.done + min 4096 ((jobCard j).count - j.done) ∧
          ∀ sp x, homeByte t sp x = homeByte (applyRed (jobCard j) j.red s).2 sp x) ∧
        (j.op = 0x108 → ∀ bs u, readLocs j [⟨bit j.cw2.toNat 63, j.cw0.toNat, 8192 * j.done, 8192, false, 1, false⟩] s = .ok (bs, u) →
          let p := canwPlace s j
          ∃ t k, exec (.jobStart n false) s = .next t ∧ rgetN 0 t.gv.canopy (canopyKey p.1 p.2 0) 8192 = bs ∧
            (∀ x, x < canopyKey p.1 p.2 0 ∨ canopyKey p.1 p.2 0 + 8192 ≤ x → rget 0 t.gv.canopy x = rget 0 s.gv.canopy x) ∧
            (bankOf t p.1).eng ≠ none ∧ jobOf t n = some k ∧ k.done = j.done + 1 ∧ k.st = .running ∧ SameMem s t) ∧
        (j.op = 0x112 → j.st = .running → ∀ e,
          let r := j.rows.getD j.done []
          let part := (launchOf s j.launch).part
          let bad := rowBad s part (gcmtSlots s part (j.rows.take j.done) []) r
          let k := { j with done := j.done + 1 }
          let q := rowSlot r
          (j.done < j.rows.length →
            (rowValid r = false → exec (.jobStart n e) s = .next (setJob k s)) ∧
            (rowValid r = true → bad = true → exec (.jobStart n e) s = .next (setJob k (launchCond j.launch .gcmtRow s))) ∧
            (rowValid r = true → bad = false → ∃ t, exec (.jobStart n e) s = .next t ∧ jobOf t n = some k ∧
              (let el := slotEligible s q
               let x := (r.getD 0 0).toNat
               let toks := rowTokens s r
               (slotWord t q 0).toNat % 2 ^ 32 = ((slotWord s q 0).toNat % 2 ^ 32 ||| (bits x 18 18 + 2 * bits x 19 19 + 4 * bits x 20 20 +
                 if el = true then 2 ^ 28 * bits x 21 21 else 0)) ∧
               (slotWord t q 0).toNat / 2 ^ 32 = (if el = true then ((slotWord s q 0).toNat / 2 ^ 32 + toks.length) % 2 ^ 32
                 else (slotWord s q 0).toNat / 2 ^ 32) ∧
               slotWord t q 1 = slotWord s q 1 ∧ slotAlloc t q = slotAlloc s q ∧
               slotEst t q = (if el = true then estAfter (slotEst s q) (min (rowNacc r) (slotAlloc s q)) else slotEst s q) ∧
               slotWord t q 3 = (if el = true ∧ toks ≠ [] then w64 (rget 0 s.dev.seqctr part + 1) else slotWord s q 3) ∧
               ∀ p i, p ≠ q → i < 4 → slotWord t p i = slotWord s p i))) ∧
          (j.done = j.rows.length → ∃ t m, exec (.jobStart n e) s = .next t ∧ jobOf t n = some m ∧ m.done = j.done + 1 ∧ SameMem s t ∧
            (let named := gcmtSlots s part j.rows []
             let given := allocate (leNat ((j.send.drop 58).take 2)) named s
             t.dev.slots = given.2.dev.slots ∧
             m.out = outsOf (j.out.map (fun o => (o.1, o.2.1))) (controlBlock given.2 j.send named))))) ∧
      (j.st = .running → j.lost = true → j.tries < 2 → ∀ e, exec (.jobStart n e) s = .next (setJob { replayed j with tries := j.tries + 1 } s)) ∧
      ((replayed j).st = .queued ∧ (replayed j).lost = false ∧
        (j.op ≠ 0x103 → (replayed j).out = [] ∧ (replayed j).send = [] ∧ (replayed j).red = [] ∧ (replayed j).done = 0) ∧
        (j.op = 0x103 → (replayed j).done = j.done ∧ ∀ i, i ∈ (replayed j).red ↔ i ∈ j.red ∧ ∀ l ∈ i.lines, l ∉ j.lostLines)) ∧
      (submitReady s j = false → exec (.routerSubmission n) s = .next s) ∧
      (submitReady s j = true → (∀ i ∈ s.gv.jobs, submits i = true → i.seq < n → (launchOf s i.launch).part ≠ (launchOf s j.launch).part) →
        ∀ ps u, locsPlaces j (jobCard j).dsts s = .ok (ps, u) → ∃ t k, SameMem s t ∧
          jobOf t n = some k ∧ k.done = 1 ∧ k.st = .running ∧ k.out.map (fun o => (o.1, o.2.1)) <+: ps ∧
          exec (.routerSubmission n) s = .next (if j.prov = true ∧ 2 ^ 20 < stagedBytes s + heldSize k.out then u else t)) ∧
      (jobFinishes s j = false → exec (.jobComplete n peers) s = .next s) ∧
      (jobFinishes s j = true → j.op ≠ 0x106 → j.prov = false → ∃ t, exec (.jobComplete n peers) s = .next t ∧
        (∀ i ∈ t.gv.jobs, i.seq ≠ n) ∧
        (s.gv.wbuf = [] → ∀ sp x, homeByte t sp x = homeByte (jobCounter j false (applyRed (jobCard j) j.red (putPlaces j.out s)).2) sp x)) ∧
      (jobFinishes s j = true → j.op ≠ 0x106 → j.prov = true → ∃ t k, exec (.jobComplete n peers) s = .next t ∧ jobOf t n = some k ∧
        k.st = .heldWrites ∧ SameMem s t) ∧
      (jobFinishes s j = true → j.op = 0x106 →
        (collResult j peers = none → exec (.jobComplete n peers) s = .next s) ∧
        (∀ r dp u, collResult j peers = some r → locsPlaces j (jobCard j).dsts s = .ok (dp, u) → j.prov = false →
          ∃ t, exec (.jobComplete n peers) s = .next t ∧ ∀ i ∈ t.gv.jobs, i.seq ≠ n)) ∧
      (∀ i r, (i = .fabricTimeout n ∧ r = 5 ∧ fabricJob j = true) ∨ (i = .peerReject n ∧ r = 6 ∧ fabricJob j = true) ∨
          (i = .collMismatch n ∧ r = 4 ∧ j.st = .running ∧ j.op = 0x106) →
        ∃ t, exec i s = .next t ∧ (j.prov = false → ∀ k ∈ t.gv.jobs, k.seq ≠ n) ∧
          (j.prov = true → jobOf t n = some { j with fail := r, st := .heldWrites } ∧ SameMem s t)) ∧
      (fabricJob j = false → ∀ i, i ∈ [Instr.fabricTimeout n, .peerReject n, .collMismatch n] → exec i s = .next s)) ∧
    (∀ (c : Nat) (named : List Nat),
      let el := named.eraseDups.filter (slotEligible s)
      let a := allocate c named s
      a.1 = min c (16 * el.length) ∧ a.1 = (el.map (slotAlloc a.2)).sum ∧
      (∀ k ∈ el, slotAlloc a.2 k ≤ 16 ∧ (el.length ≤ c → 1 ≤ slotAlloc a.2 k)) ∧
      (∀ k ∈ named, k ∉ el → slotAlloc a.2 k = 0) ∧
      ∀ k i, i < 4 → k ∉ named ∨ i ≠ 2 → slotWord a.2 k i = slotWord s k i) ∧
    ∀ (who : FabricSender) (off : Nat) (bs : List Byte),
      let named (p i : Nat) : Prop := i < bits (ptw s p 12) 10 0 ∧ bits (peerWord s p i 0) 63 62 = 1 ∧
        bits (peerWord s p i 0) 31 0 = who.job ∧ peerWord s p i 1 = who.addrLow.toNat ∧ peerWord s p i 2 = who.addrHigh.toNat
      ((∀ p ∈ s.dev.live, ∀ i, ¬ named p i) → exec (.inboundRmaWrite who off bs) s = .next s) ∧
      ((∃ p ∈ s.dev.live, ∃ i, named p i) → ∃ p ∈ s.dev.live, (∃ i, named p i) ∧
        (ptw s p 14 < off + bs.length → exec (.inboundRmaWrite who off bs) s = .next s) ∧
        (off + bs.length ≤ ptw s p 14 → ∀ t, devStore p (ptw s p 13 + off) bs s = some t → exec (.inboundRmaWrite who off bs) s = .next t))

/-- ORCHARD_READ_ISSUE first gives handles that wait for room what is free (their order is the model's choice,
notes/assumptions/6.md), then issues the read that the stack serves next and makes its REQUESTED handle IN_FLIGHT; a
read of a lost page or of a failed stack is counted and faults its handle; ORCHARD_PAGE_LAND counts the read of the
page that lands and the codewords that it corrected, lands it in its handle, and an uncorrectable page is lost and
faults its handle; STKFAIL leaves no read unissued or in flight, counts each and makes their handles FAULTED;
EVICTION_END returns a handle to INVALID, or to REQUESTED where it is demanded; RELOCATION_START takes a block out of
the free pool, or sets NOSPARE; RELOCATION_COMMIT maps the logical block to the new one with its read count zero, the
content unchanged, and counts the codewords that the copy corrected; BLOCK_ERASE returns the old block to the free
pool, or retires it. Where none fits, nothing else changes (the model's choice, notes/assumptions/5.md). (Rests on
spec/23_expert_streaming.md, spec/24_memory_reliability_thermal.md.) -/
def Obligations.OrchardEventsMoveHandlesAndBlocks : Prop :=
  ∀ (s : State) (k h : Nat) (corrected : List Nat),
    (let u := retryRooms s
     (nextRead u (stackOf u k) = none → exec (.orchardReadIssue k) s = .next u) ∧
     (∀ r, nextRead u (stackOf u k) = some r →
       (r.lpn ∉ (stackOf u k).lost → (stackOf u k).stkfail = false → ∃ t, exec (.orchardReadIssue k) s = .next t ∧
         (whOf t r.handle).st = (if (whOf u r.handle).st = whRequested then whInFlight else (whOf u r.handle).st) ∧
         { r with issued := true, block := physOf (stackOf u k) (r.lpn / blockPages) } ∈ (stackOf t k).reads ∧ SameMem u t) ∧
       (r.lpn ∈ (stackOf u k).lost ∨ (stackOf u k).stkfail = true → ∃ t, exec (.orchardReadIssue k) s = .next t ∧ (whOf t r.handle).st = whFaulted ∧
         (stackOf t k).pread = min (2 ^ 48 - 1) ((stackOf u k).pread + 1)))) ∧
    ((stackOf s k).reads = [] → ∀ lost, exec (.orchardPageLand k corrected lost) s = .next s) ∧
    (∀ r, (stackOf s k).reads.find? (rowsWritten s) = some r →
      ∀ lost, exec (.orchardPageLand k corrected lost) s = .next (pageLanded r (dropRead k r s))) ∧
    ((stackOf s k).reads.find? (rowsWritten s) = none →
      (∀ r, (stackOf s k).reads.find? (fun r => r.issued && r.writes.isNone) = some r → liveRead s r = true →
        ∃ t, exec (.orchardPageLand k corrected true) s = .next t ∧ (whOf t r.handle).st = whFaulted ∧ r.lpn ∈ (stackOf t k).lost ∧
          (stackOf t k).cecw = min (2 ^ 32 - 1) ((stackOf s k).cecw + corrected.length) ∧ rget 0 (stackOf t k).rdc r.block = min (2 ^ 32 - 1) (rget 0 (stackOf s k).rdc r.block + 1)) ∧
      (∀ r, (stackOf s k).reads.find? (fun r => r.issued && r.writes.isNone && canLand s r) = some r → liveRead s r = true →
        (whOf s r.handle).hbm = true → ∃ t, exec (.orchardPageLand k corrected false) s = .next t ∧
          r.page ∈ (whOf t r.handle).landed ∧ (stackOf t k).cecw = min (2 ^ 32 - 1) ((stackOf s k).cecw + corrected.length) ∧ rget 0 (stackOf t k).rdc r.block = min (2 ^ 32 - 1) (rget 0 (stackOf s k).rdc r.block + 1) ∧
          ((whOf s r.handle).st = whInFlight → (r.page :: (whOf s r.handle).landed.filter (fun p => p != r.page)).length = (whOf s r.handle).npage →
            (whOf t r.handle).st = if pinCount (whOf s r.handle) = 0 then whResident else whPinned))) ∧
    (∃ t, exec (.stkfail k) s = .next t ∧ (stackOf t k).stkfail = true ∧ (∀ r ∈ (stackOf t k).reads, r.writes ≠ none) ∧
      (∀ r ∈ (stackOf s k).reads, r.writes = none → liveRead s r = true → (whOf t r.handle).st = whFaulted) ∧
      (let n := ((stackOf s k).reads.filter (fun r => r.writes.isNone)).length
       n ≠ 0 → (stackOf t k).pread = min (2 ^ 48 - 1) ((stackOf s k).pread + n)) ∧
      ∀ g, (∀ r ∈ (stackOf s k).reads, r.handle ≠ g) → (whOf t g).st = (whOf s g).st) ∧
    (evictionOver s (whOf s h) = false → exec (.evictionEnd h) s = .next s) ∧
    (evictionOver s (whOf s h) = true → ∃ t, exec (.evictionEnd h) s = .next t ∧ OnlyHandle s t h ∧
      ((whOf s h).demand = false → { whOf t h with was := none } = {}) ∧
      ((whOf s h).demand = true → (whOf t h).st = whRequested ∧ (whOf t h).roomy = false ∧ (whOf t h).landed = [])) ∧
    (nextReloc (stackOf s k) = none → exec (.relocationStart k) s = .next s) ∧
    (∀ r, nextReloc (stackOf s k) = some r →
      (leastErased (stackOf s k) (freePool (stackOf s k)) = none →
        exec (.relocationStart k) s = .next (modStack s k (fun m => { m with nospare := true }))) ∧
      (∀ b, leastErased (stackOf s k) (freePool (stackOf s k)) = some b → ∃ t, exec (.relocationStart k) s = .next t ∧
        b ∉ freePool (stackOf t k) ∧ (∀ c, c ≠ b → (c ∈ freePool (stackOf t k) ↔ c ∈ freePool (stackOf s k))) ∧
        (stackOf t k).relocs.head? = some { r with stage := 1, old := physOf (stackOf s k) r.lblk, new := b })) ∧
    (∀ copied : CopyFound, ((∀ r, running (stackOf s k) = some r → r.stage ≠ 1) → exec (.relocationCommit k copied) s = .next s) ∧
      (∀ r, running (stackOf s k) = some r → r.stage = 1 → ∃ t, exec (.relocationCommit k copied) s = .next t ∧
        (stackOf t k).cecw = min (2 ^ 32 - 1) ((stackOf s k).cecw + copied.corrected) ∧
        physOf (stackOf t k) r.lblk = r.new ∧ rget 0 (stackOf t k).rdc r.new = 0 ∧ t.dev.orch = s.dev.orch ∧
        (∀ b, b ≠ r.lblk → physOf (stackOf t k) b = physOf (stackOf s k) b))) ∧
    (∀ ok, (erasable (stackOf s k) = none → exec (.blockErase k ok) s = .next s) ∧
      (∀ r, erasable (stackOf s k) = some r → ∃ t, exec (.blockErase k ok) s = .next t ∧
        (ok = true → r.old ∈ (stackOf t k).free) ∧ (ok = false → r.old ∈ (stackOf t k).retired)))

/-- An access to a row that is open activates nothing; one to another row counts one activation and opens the row, and
when the row's count comes to MAT its management action clears the count, closes the row and holds the bank 320
cycles. An access waits for a retraining channel, a transfer to be sent again, a management window, an earlier waiting
access, or, a write, a poisoned bank; a failed channel serves nothing; a write to a retired bank is dropped and
counted. An error that a row with a request of the Grove's own on its way meets is met by that request (the model's
choice, notes/assumptions/50.md). REMAP_RELOAD, LINK_CRC, LINK_RETRAIN_DONE, the window's end and the idle close act
where they are due and change nothing elsewhere (notes/assumptions/5.md); that eight failed replays retrain the
channel and how they count is the model's reading (notes/assumptions/50.md). A thermal reading steps the column's gap
and cap, which the Grove follows from the cycle's end, once, within 0 to 448 in steps of 64 and 0 to 2, unless the
inlet holds them; an inlet above 45, in a reading or as its own event, holds every column at 448 and 2 until it falls
below 40. (Rests on spec/24_memory_reliability_thermal.md, spec/27_partitions_host_boot.md.) -/
def Obligations.HbmAndThermalEvents : Prop :=
  (∀ (u bank row : Nat) (p : Pc),
    let q := touchRow u bank row p
    let k := 8192 * bank + row
    (rget 0 p.openRow bank = row + 1 → q.actcnt = p.actcnt ∧ q.mc = p.mc ∧ q.openRow = p.openRow ∧ q.mgmtcnt = p.mgmtcnt) ∧
    (rget 0 p.openRow bank ≠ row + 1 → q.actcnt = min (2 ^ 48 - 1) (p.actcnt + 1) ∧
      (rget 0 p.mc k + 1 < p.mat → rget 0 q.openRow bank = row + 1 ∧ rget 0 q.mc k = rget 0 p.mc k + 1 ∧ q.busy = p.busy ∧ q.mgmtcnt = p.mgmtcnt) ∧
      (p.mat ≤ rget 0 p.mc k + 1 → rget 0 q.openRow bank = 0 ∧ rget 0 q.mc k = 0 ∧ rget 0 q.busy bank = u + 320 ∧
        q.mgmtcnt = min (2 ^ 32 - 1) (p.mgmtcnt + 1)))) ∧
  (∀ (st pc bank row : Nat) (evt : HbmEvt) (s : State),
    let p := pcOf s st pc
    let c := pcOf s st (chanPc pc)
    let fits := st < 8 ∧ pc < 128 ∧ bank < 32 ∧ row < 8192
    (¬ fits → exec (.hbmAccess st pc bank row evt) s = .next s) ∧
    (let own := if evtError evt then askOf s st pc bank row else none
     let q : HbmReq := match own with | some o => ownReq s o evt | none => otherReq st pc bank row evt
     let u := match own with | some o => { s with asked := s.asked.erase o } | none => s
     let go := exec (.hbmAccess st pc bank row evt) s
     q.bank = bank ∧ q.row = row ∧ q.own = own.isSome ∧ (evt = .write → q.evt = .write) ∧
     (fits → c.failed = true → go = .next (loseLines q u) ∧ (own = none → go = .next s)) ∧
     (fits → c.failed = false → mustWait u st pc q = true → ∃ t, go = .next t ∧
        (pcOf t st pc).wait = p.wait ++ [{ q with counted := inWindow s st pc bank }] ∧ (pcOf t st pc).actcnt = p.actcnt ∧
        (pcOf t st pc).bocnt = (if inWindow s st pc bank = true then min (2 ^ 32 - 1) (p.bocnt + 1) else min (2 ^ 32 - 1) p.bocnt)) ∧
     (fits → c.failed = false → mustWait u st pc q = false →
        (bank ∈ p.retiredBanks → evt = .write →
          go = .next (modPc u st pc (fun p => { p with remapdrop := min (2 ^ 16 - 1) (p.remapdrop + 1) }))) ∧
        (bank ∉ p.retiredBanks ∨ evt ≠ .write → go = .next (serveHbm st pc q u)))) ∧
    (windowOver s st pc bank = false → exec (.hbmMgmtWindowEnd st pc bank) s = .next s) ∧
    (windowOver s st pc bank = true → p.wait = [] → ∃ t, exec (.hbmMgmtWindowEnd st pc bank) s = .next t ∧
      pcOf t st pc = { p with busy := rset 0 p.busy bank 0 }) ∧
    (rowIdle s st pc bank = false → exec (.hbmRowIdleClose st pc bank) s = .next s) ∧
    (rowIdle s st pc bank = true → ∃ t, exec (.hbmRowIdleClose st pc bank) s = .next t ∧ rget 0 (pcOf t st pc).openRow bank = 0) ∧
    (reloadBank p = none → ∀ ok, exec (.remapReload st pc ok) s = .next s) ∧
    (∀ b, reloadBank p = some b →
      (p.wait = [] → ∃ t, exec (.remapReload st pc true) s = .next t ∧ b ∉ (pcOf t st pc).poison ∧
        (pcOf t st pc).reloads = min (2 ^ 16 - 1) (p.reloads + 1)) ∧
      (p.reloadTries < 2 → exec (.remapReload st pc false) s = .next (modPc s st pc (fun p => { p with reloadTries := p.reloadTries + 1 }))) ∧
      (2 ≤ p.reloadTries → ∃ t, exec (.remapReload st pc false) s = .next t ∧ b ∈ (pcOf t st pc).retiredBanks ∧
        ∀ q, p.wait = [q] → q.bank = b → q.evt = .write → c.failed = false → c.retraining = false → p.replay = none →
          inWindow s st pc b = false → (pcOf t st pc).wait = [] ∧ (pcOf t st pc).remapdrop = min (2 ^ 16 - 1) (p.remapdrop + 1))) ∧
    (let q : HbmReq := match askOf s st pc bank row with | some o => ownReq s o evt | none => otherReq st pc bank row evt
     let go := exec (.linkCrc st ⟨pc, bank, row, evt⟩) s
     (¬ fits ∨ c.failed = true ∨ c.retraining = true → go = .next s) ∧
     (fits → c.failed = false → c.retraining = false →
       (p.replay ≠ none → ∃ t, go = .next t ∧ (pcOf t st pc).crcerr = min (2 ^ 32 - 1) (p.crcerr + 1) ∧ (pcOf t st pc).replay = p.replay ∧
         (p.replays < 8 → (pcOf t st pc).replays = p.replays + 1 ∧ (pcOf t st (chanPc pc)).retraining = false) ∧
         (8 ≤ p.replays → (pcOf t st (chanPc pc)).retraining = true ∧ (pcOf t st pc).retrain = min (2 ^ 16 - 1) (p.retrain + 1))) ∧
       (p.replay = none → mustWait s st pc q = true → go = .next s) ∧
       (p.replay = none → mustWait s st pc q = false → ∃ t, go = .next t ∧
         (pcOf t st pc).crcerr = min (2 ^ 32 - 1) (p.crcerr + 1) ∧ (pcOf t st pc).replay = some q ∧ (pcOf t st pc).replays = 1))) ∧
    (c.retraining = false → ∀ ok, exec (.linkRetrainDone st pc ok) s = .next s) ∧
    (c.retraining = true →
      (∃ t, exec (.linkRetrainDone st pc true) s = .next t ∧ (pcOf t st (chanPc pc)).retraining = false) ∧
      (c.retries < 2 → ∃ t, exec (.linkRetrainDone st pc false) s = .next t ∧ (pcOf t st (chanPc pc)).retraining = true ∧
        (pcOf t st (chanPc pc)).retries = c.retries + 1) ∧
      (2 ≤ c.retries → ∃ t, exec (.linkRetrainDone st pc false) s = .next t ∧ (pcOf t st (chanPc pc)).failed = true))) ∧
  (∀ (temp tg tm g m : Nat) (hot : Bool), g ≤ 448 → g % 64 = 0 → m ≤ 2 →
    (thermStep temp tg tm hot g m).1 ≤ 448 ∧ (thermStep temp tg tm hot g m).1 % 64 = 0 ∧ (thermStep temp tg tm hot g m).2 ≤ 2) ∧
  ∀ (col temp watts tin tout : Nat) (s : State),
    (16 ≤ col → exec (.thermalReading col temp watts tin tout) s = .next s) ∧
    (col < 16 →
      let gm := thermStep (temp % 256) s.dev.tg s.dev.tm (decide (s.dev.pcap < watts % 65536)) (rget 0 s.dev.colGap col) (rget 0 s.dev.colMcap col)
      let hot : Bool := decide (45 < tin % 256) || (s.dev.inletHot && !decide (tin % 256 < 40))
      ∃ t, exec (.thermalReading col temp watts tin tout) s = .next t ∧ rget 0 t.dev.colTemp col = temp % 256 ∧ t.dev.tin = tin % 256 ∧
        t.dev.inletHot = hot ∧ t.gv = s.gv ∧ SameMem s t ∧
        (45 < tin % 256 → ∀ c, c < 16 → rget 0 t.dev.colGap c = 448 ∧ rget 0 t.dev.colMcap c = 2) ∧
        (hot = true → tin % 256 ≤ 45 → t.dev.colGap = s.dev.colGap ∧ t.dev.colMcap = s.dev.colMcap) ∧
        (hot = false → rget 0 t.dev.colGap col = gm.1 ∧ rget 0 t.dev.colMcap col = gm.2 ∧
          ∀ c, c ≠ col → rget 0 t.dev.colGap c = rget 0 s.dev.colGap c ∧ rget 0 t.dev.colMcap c = rget 0 s.dev.colMcap c)) ∧
    (tick s).gv.gap = rget 0 s.dev.colGap (s.gv.id % 16) ∧ (tick s).gv.mcap = rget 0 s.dev.colMcap (s.gv.id % 16) ∧
    (tin ≤ 45 → exec (.inletOvertemp tin) s = .next s) ∧
    (45 < tin → ∃ t, exec (.inletOvertemp tin) s = .next t ∧ t.dev.inletHot = true ∧ t.gv = s.gv ∧
      ∀ c, c < 16 → rget 0 t.dev.colGap c = 448 ∧ rget 0 t.dev.colMcap c = 2) ∧
    (40 ≤ tin → exec (.inletFallsBelow40 tin) s = .next s) ∧
    (tin < 40 → exec (.inletFallsBelow40 tin) s = .next { s with dev := { s.dev with inletHot := false, tin := tin % 256 } })

/-- A packet whose queue cannot perform it changes nothing (the model's choice, notes/assumptions/5.md); one with a bad
length, reserved bit or completion address completes REFUSED, and then one that its queue may not have DENIED (that
order is the model's choice, notes/assumptions/27.md). Otherwise NOP and an open FENCE complete OK, and a FENCE that
is not open waits; SIGNAL adds to, or stores, its word, or writes a chain word; WAITC completes once its word has
reached the target; HCOPY writes the bytes it read; QUERY writes its 64 bytes (the layout of SEL 1's is a free value,
notes/assumptions/16.md); PATCH stores and measures an accepted image (whose LENGTH is that of the whole image, and
with no measure past M63: the model's choice, notes/assumptions/52.md) and answers its length, and SIG_BAD for
another; ATTEST writes its report and answers 4,096; each access of SIGNAL, WAITC, HCOPY, QUERY, PATCH and ATTEST that
fails (and is not held back by its bank), of the first or the second address, and either address where it is not
aligned, HCOPY's too (the model's choice, notes/assumptions/51.md), is FAULTED. A completed packet leaves its queue.
(Rests on spec/22_front_end_firmware.md, spec/27_partitions_host_boot.md.) -/
def Obligations.PacketsOfEveryQueueComplete : Prop :=
  (∀ (p : Pkt) (s : State), mayPerform s p = false → ∀ i, CheckedPacket p i ∨ i = .signalRefused p ∨ i = .queryRefused p ∨ i = .launch p → exec i s = .next s) ∧
  (∀ (p : Pkt) (s : State), mayPerform s p = true →
    CompletesAs (.signalRefused p) s p stRefused 0 (beginPacket p s) ∧ CompletesAs (.queryRefused p) s p stRefused 0 (beginPacket p s) ∧
    (nwOk p && payOk p && caddrOk p = false → ∀ i, CheckedPacket p i → CompletesAs i s p stRefused 0 (beginPacket p s)) ∧
    (nwOk p && payOk p && caddrOk p = true → accepted s p = false → ∀ i, CheckedPacket p i →
      CompletesAs i s p stDenied 0 (beginPacket p s))) ∧
  (∀ (q st : Nat) (r : Word) (u : State) (p : Pkt), (cmdq u q).cur = some p → (cmdq (endPacket q st r u) q).cur = none ∧
    (p.cmpl = false → SameMem u (endPacket q st r u))) ∧
  ∀ (p : Pkt) (s : State), Performs s p →
    let b := beginPacket p s
    let part := cqPart b p.q
    CompletesAs (.nop p) s p stOk 0 b ∧
    (payN p 0 % 8 ≠ 0 → CompletesAs (.signalAdd p) s p stFaulted 0 b ∧ CompletesAs (.signalStore p) s p stFaulted 0 b ∧ CompletesAs (.waitc p) s p stFaulted 0 b ∧
      CompletesAs (.hcopy p) s p stFaulted 0 b ∧ CompletesAs (.patch p) s p stFaulted 0 b ∧ CompletesAs (.attest p) s p stFaulted 0 b) ∧
    (payN p 0 % 8 = 0 →
      (∀ t, devStore part (payN p 0) (natLe 8 (payN p 2)) b = some t → CompletesAs (.signalStore p) s p stOk 0 t) ∧
      (devStore part (payN p 0) (natLe 8 (payN p 2)) b = none → CompletesAs (.signalStore p) s p stFaulted 0 b) ∧
      (∀ u, devLoad part (payN p 0) 8 b = (none, u) → u.dev.waits = false →
        CompletesAs (.signalAdd p) s p stFaulted 0 u ∧ CompletesAs (.waitc p) s p stFaulted 0 u) ∧
      (∀ u, hcopySource part (payN p 0) (payN p 2) b = (none, u) → u.dev.waits = false → CompletesAs (.hcopy p) s p stFaulted 0 u) ∧
      (∀ bs u, hcopySource part (payN p 0) (payN p 2) b = (some bs, u) → payN p 1 % 8 ≠ 0 ∨ devStore part (payN p 1) bs u = none →
        CompletesAs (.hcopy p) s p stFaulted 0 u) ∧
      (∀ u, devLoad part (payN p 0) (payN p 1) b = (none, u) → u.dev.waits = false → CompletesAs (.patch p) s p stFaulted 0 u) ∧
      (∀ u, devLoad part (payN p 0) 32 b = (none, u) → u.dev.waits = false → CompletesAs (.attest p) s p stFaulted 0 u) ∧
      (∀ bs u, devLoad part (payN p 0) 8 b = (some bs, u) →
        (∀ t, devStore part (payN p 0) (natLe 8 (counterAdd (leW bs) (payN p 2 % 2 ^ 63) (bit (payN p 2) 63)).toNat) u = some t →
          CompletesAs (.signalAdd p) s p stOk 0 t) ∧
        (devStore part (payN p 0) (natLe 8 (counterAdd (leW bs) (payN p 2 % 2 ^ 63) (bit (payN p 2) 63)).toNat) u = none →
          CompletesAs (.signalAdd p) s p stFaulted 0 u) ∧
        ((leW bs).toNat < payN p 1 → exec (.waitc p) s = .next u) ∧
        (payN p 1 ≤ (leW bs).toNat → CompletesAs (.waitc p) s p stOk 0
          (if bit (payN p 2) 63 then modCq u p.q (fun c => { c with cw := rset 0 c.cw (payN p 2 % 8) (leW bs) }) else u))) ∧
      (payN p 1 % 8 = 0 → ∀ bs u t, hcopySource part (payN p 0) (payN p 2) b = (some bs, u) → devStore part (payN p 1) bs u = some t →
        CompletesAs (.hcopy p) s p stOk 0 t) ∧
      (∀ bs u, devLoad part (payN p 0) (payN p 1) b = (some bs, u) →
        (imageAccepted bs = false → CompletesAs (.patch p) s p stSigBad 0 u) ∧
        (imageAccepted bs = true → ∃ t, CompletesAs (.patch p) s p stOk (w64 bs.length) t ∧ t.dev.patches = u.dev.patches ++ [bs] ∧
          (lastMeasure u < 63 → rget 0 t.dev.meas (lastMeasure u + 1) =
            digestNum (sha256 (digestBytes (rget 0 u.dev.meas (lastMeasure u)) ++ sha256 bs))))) ∧
      (∀ nonce u, devLoad part (payN p 0) 32 b = (some nonce, u) →
        let body := reportBody u part (cmdq u p.q).pseq nonce
        let r := devStore part (payN p 1) (body ++ padTo 384 (Config.signReport body)) u
        (payN p 1 % 8 = 0 → ∀ t, r = some t → CompletesAs (.attest p) s p stOk (w64 4096) t) ∧
        (payN p 1 % 8 ≠ 0 ∨ r = none → CompletesAs (.attest p) s p stFaulted 0 u))) ∧
    (payN p 0 = 0 → CompletesAs (.signalChainWord p) s p stOk 0
      (modCq b p.q (fun c => { c with cw := rset 0 c.cw (payN p 1 % 8) (p.pay.getD 2 0) }))) ∧
    (payN p 0 ≠ 0 → CompletesAs (.signalChainWord p) s p stRefused 0 b) ∧
    (fenceOpen b p = true → CompletesAs (.cqFence p) s p stOk 0 b) ∧ (fenceOpen b p = false → exec (.cqFence p) s = .next b) ∧
    ∀ i ws, i = .queryStatus p ∧ ws = [pairStatus b part] ∨
        i = .queryQueue p ∧ ws = Config.queryLayout ([w64 (cmdq b p.q).head, w64 (cmdq b p.q).tail, w64 (cmdq b p.q).ctl] ++
          (List.range 8).map (fun k => rget 0 (cmdq b p.q).cw k)) ∨
        i = .querySlots p ∧ ws = [w64 (((List.range 64).map (fun n => if (launchOf b n).st == .empty then 0 else 2 ^ n)).sum)] →
      let r := devStore part (payN p 1) (wordBytes (eightWords ws)) b
      (payN p 1 % 8 = 0 → ∀ t, r = some t → CompletesAs i s p stOk 0 t) ∧
      (payN p 1 % 8 ≠ 0 ∨ r = none → CompletesAs i s p stFaulted 0 b)

/-- Performed and passing its own checks: LAUNCH loads its first operator into a free slot (one with a PRIV operator is
DENIED from a HOST queue); PRED waits for its test or is refused, and its test, which waits while the control pair
recovers, completes with the arm it keeps; SEQCFG and SEEDSEQ of a slot in the share are kept for the next operator
boundary and complete at once (the model's choice, notes/assumptions/25.md); TAPCFG and SPTCFG write their entry into
the partition's current table, or wait while an operator holds an older version (notes/assumptions/26.md); QCFG
configures an empty unbound queue in the share; HBIND binds an INVALID handle, clears a FAULTED or RESIDENT one
without references, and binds a FAULTED one anew, is BUSY in every other state of the handle, where the clear finds
references and where a bind finds no room, REFUSED at a bad placement and DENIED outside the share; EVQCFG configures
its ring, REFUSED where its base is not aligned (notes/assumptions/53.md); PREEMPT stops its queue, and at the urgent
level evicts the partition's ACTIVE launches (notes/assumptions/28.md); RESUME lets the queue go on; both are DENIED
for another partition's queue (notes/assumptions/27.md). The five entries named are the model's choices. An event
whose queue performs no packet changes nothing (notes/assumptions/5.md). (Rests on spec/22_front_end_firmware.md,
spec/07_taps_and_shapes.md, spec/08_generation_loop.md, spec/23_expert_streaming.md,
spec/21_traps_faults_preemption.md.) -/
def Obligations.ConfigurationPacketsComplete : Prop :=
  (∀ (q : Nat) (s : State), (cmdq s q).cur = none → exec (.predTest q) s = .next s ∧ exec (.waitcSatisfied q) s = .next s) ∧
  (∀ (p : Pkt) (s : State), (cmdq s p.q).cur = some p → mayPerform s p = true →
    (p.opc = 2 → s.dev.recovering = true → exec (.predTest p.q) s = .next s) ∧
    (p.opc = 2 → s.dev.recovering = false → ∀ u v w, parseArms p s = (some true, u) → wordAt u p 0 = (some w, v) →
      CompletesAs (.predTest p.q) s p stOk (w64 (predHolds p w).toNat) (takeArm p (predHolds p w) v)) ∧
    (p.opc = 4 → ∀ w v, wordAt s p 0 = (some w, v) → payN p 1 ≤ w.toNat → CompletesAs (.waitcSatisfied p.q) s p stOk 0
      (if bit (payN p 2) 63 then modCq v p.q (fun c => { c with cw := rset 0 c.cw (payN p 2 % 8) w }) else v))) ∧
  (∀ (p : Pkt) (s : State), p.opc = 1 → (cmdq s p.q).cur = none → mayPerform s p = true → nwOk p && payOk p && caddrOk p = true →
    accepted s p = false → CompletesAs (.launch p) s p stDenied 0 (beginPacket p s)) ∧
  ∀ (p : Pkt) (s : State), Performs s p →
    let b := beginPacket p s
    let part := cqPart b p.q
    (p.opc = 1 → (cmdq s p.q).cur = none → (cmdq s p.q).opTaken = {} → ∀ w r n, launchOps p = w :: r → freeSlot s = some n →
      (let u := modCq b p.q (fun c => { c with chain := { todo := w :: r } })
       expandStatus u p.q w = stOk) →
      ∃ t, exec (.launch p) s = .next t ∧ (launchOf t n).st = .loaded ∧ (launchOf t n).op = w ∧
        (cmdq t p.q).chain.shadow = some n ∧ (cmdq t p.q).chain.todo = r ∧ (cmdq t p.q).cur = some p ∧ SameMem s t) ∧
    (∀ u, parseArms p b = (some false, u) → CompletesAs (.pred p) s p stRefused 0 (skipArms p u)) ∧
    (∀ a u, parseArms p b = (a, u) → a ≠ some false → exec (.pred p) s = .next u) ∧
    (∀ i, i = .seqcfg p ∨ i = .seedseq p →
      (slotShare b part (bits (payN p 0) 11 0) = true →
        CompletesAs i s p stOk 0 { b with dev := { b.dev with slotPend := b.dev.slotPend ++ [(part, p)] } }) ∧
      (slotShare b part (bits (payN p 0) 11 0) = false → CompletesAs i s p stRefused 0 b)) ∧
    (let v := rget 0 b.dev.tapCur part
     (pointOk b p = false → CompletesAs (.tapcfgPoint p) s p stRefused 0 b) ∧
     (pointOk b p = true → tableWaits b part v (fun l => l.tapVer) = true → exec (.tapcfgPoint p) s = .next b) ∧
     (pointOk b p = true → tableWaits b part v (fun l => l.tapVer) = false → p.pay.length = 21 → ∃ t, CompletesAs (.tapcfgPoint p) s p stOk 0 t ∧
       ∀ k w, k < 64 → w < 20 → tapWord t (tableNo part (rget 0 t.dev.tapCur part)) k w =
         if k = bits (payN p 0) 13 8 then payN p (1 + w) else tapWord b (tableNo part v) k w)) ∧
    (let v := rget 0 b.dev.steerCur part
     (steerOk b p = false → CompletesAs (.tapcfgSteer p) s p stRefused 0 b) ∧
     (steerOk b p = true → tableWaits b part v (fun l => l.steerVer) = true → exec (.tapcfgSteer p) s = .next b) ∧
     (steerOk b p = true → tableWaits b part v (fun l => l.steerVer) = false → p.pay.length = 3 → ∃ t, CompletesAs (.tapcfgSteer p) s p stOk 0 t ∧
       ∀ k w, k < 64 → w < 2 → steerWord t (tableNo part (rget 0 t.dev.steerCur part)) k w =
         if k = bits (payN p 0) 13 8 then payN p (1 + w) else steerWord b (tableNo part v) k w)) ∧
    (let v := rget 0 b.dev.sptCur part
     (sptOk p = false → CompletesAs (.sptcfg p) s p stRefused 0 b) ∧
     (sptOk p = true → tableWaits b part v (fun l => l.sptVer) = true → exec (.sptcfg p) s = .next b) ∧
     (sptOk p = true → tableWaits b part v (fun l => l.sptVer) = false → p.opc = 0x13 → p.pay.length = 5 → ∃ t, CompletesAs (.sptcfg p) s p stOk 0 t ∧
       ∀ k w, k < 256 → w < 4 → sptWord t (tableNo part (rget 0 t.dev.sptCur part)) k w =
         if k = payN p 0 then payN p (1 + w) else sptWord b (tableNo part v) k w)) ∧
    (let q := bits (payN p 0) 7 0
     pathOf (payN p 1) = 0 → qualOf (payN p 1) = 0 → payN p 1 % (32 * 2 ^ bits (payN p 0) 27 23) = 0 →
       (queueShare b part q = false → CompletesAs (.qcfg p) s p stDenied 0 b) ∧
       (queueShare b part q = true → (queueOf b q).bound ≠ none ∨ (queueOf b q).entries ≠ [] → CompletesAs (.qcfg p) s p stBusy 0 b) ∧
       (queueShare b part q = true → (queueOf b q).bound = none → (queueOf b q).entries = [] → ∃ t, CompletesAs (.qcfg p) s p stOk 0 t ∧
         queueOf t q = { queueOf b q with
                            mailbox := bit (payN p 0) 8, rank := bits (payN p 0) 11 9, pinned := bit (payN p 0) 12, occ := bits (payN p 0) 22 13,
                            logcap := bits (payN p 0) 27 23, spill := p.pay.getD 1 0, serial := 0 })) ∧
    (let h := hbHandle p
     (handleShare b part h = false → ∀ i, i = .hbindBind p ∨ i = .hbindClear p ∨ i = .hbindRebind p ∨ i = .hbindRefused p → CompletesAs i s p stDenied 0 b) ∧
     (let clean := bits (payN p 0) 63 17 = 0 ∧ bit (payN p 0) 13 = false ∧ bits (payN p 2) 63 16 = 0 ∧
       (bit (payN p 0) 16 = true ∨ bits (payN p 3) 63 29 = 0 ∧ bits (payN p 3) 15 13 = 0)
     (handleShare b part h = true → ¬ clean → ∀ i, i = .hbindBind p ∨ i = .hbindClear p ∨ i = .hbindRebind p ∨ i = .hbindRefused p → CompletesAs i s p stRefused 0 b) ∧
     (handleShare b part h = true → clean →
       CompletesAs (.hbindRefused p) s p stRefused 0 b ∧
       ((whOf b h).st ≠ whInvalid → CompletesAs (.hbindBind p) s p stBusy 0 b) ∧
       ((whOf b h).st = whInvalid → placeOk b p = true → ∀ t, bindHandle h (hbWanted b p) [] b = some t → CompletesAs (.hbindBind p) s p stOk 0 t) ∧
       ((whOf b h).st = whInvalid → placeOk b p = true → bindHandle h (hbWanted b p) [] b = none → CompletesAs (.hbindBind p) s p stBusy 0 b) ∧
       ((whOf b h).st = whInvalid → placeOk b p = false → CompletesAs (.hbindBind p) s p stRefused 0 b) ∧
       ((whOf b h).st ≠ whFaulted ∧ (whOf b h).st ≠ whResident ∨ (whOf b h).refs ≠ 0 → CompletesAs (.hbindClear p) s p stBusy 0 b) ∧
       ((whOf b h).st = whFaulted ∨ (whOf b h).st = whResident → (whOf b h).refs = 0 →
         CompletesAs (.hbindClear p) s p stOk 0 (retryRooms (modWh (dropReads h b) h (fun _ => {})))) ∧
       ((whOf b h).st ≠ whFaulted → CompletesAs (.hbindRebind p) s p stBusy 0 b) ∧
       ((whOf b h).st = whFaulted → ∃ t, CompletesAs (.hbindRebind p) s p stOk 0 t ∧ (whOf t h).st = whRequested ∧ (whOf t h).landed = [] ∧
         (whOf t h).parts = (whOf b h).parts ∧ (whOf t h).base = (whOf b h).base)))) ∧
    (let key := ringKey part (bits (payN p 0) 1 0) (bits (payN p 0) 7 4)
     (payN p 1 % (ringEntry key * 2 ^ bits (payN p 0) 12 8) ≠ 0 → CompletesAs (.evqcfg p) s p stRefused 0 b) ∧
     (payN p 1 % (ringEntry key * 2 ^ bits (payN p 0) 12 8) = 0 → pathOf (payN p 1) = 0 ∨ pathOf (payN p 1) = 2 ∨ pathOf (payN p 1) = 5 →
       qualOf (payN p 1) = 0 → ∀ w u, wordAt b p 2 = (some w, u) → ∃ t, CompletesAs (.evqcfg p) s p stOk 0 t ∧ rget {} t.dev.evrings key =
         { conf := true, log2n := bits (payN p 0) 12 8, irq := bit (payN p 0) 13, base := p.pay.getD 1 0, cons := p.pay.getD 2 0, prod := 0 })) ∧
    (let q := bits (payN p 0) 5 0
     (cqPart b q ≠ part → CompletesAs (.preempt p) s p stDenied 0 b ∧ CompletesAs (.resume p) s p stDenied 0 b) ∧
     (cqPart b q = part →
       (bit (payN p 0) 8 = false → CompletesAs (.preempt p) s p stOk 0 (preemptQueue q b) ∧ (cmdq (preemptQueue q b) q).ctl ≠ 0) ∧
       (bit (payN p 0) 8 = true →
         let u := evictPartition part q (if (cmdq b q).ctl = 0 then preemptQueue q b else b)
         (∀ x ∈ u.dev.launches, ¬ (x.2.part = part ∧ x.2.st = .active)) ∧
         (evictionDone u part = true → CompletesAs (.preempt p) s p stOk 0 u) ∧ (evictionDone u part = false → exec (.preempt p) s = .next u)) ∧
       ∃ t, CompletesAs (.resume p) s p stOk 0 t ∧ (cmdq t q).ctl ≠ 1 ∧ (cmdq t q).chain.hold = false))

/-- The tail doorbell sets the tail; the reset doorbell clears ERROR and moves the head to the tail (head and tail are
byte offsets modulo the ring's size: the model's choice, notes/assumptions/51.md). PACKET_PARSE does nothing where no
packet can be parsed; an unreadable or bad header stops the queue in ERROR; a packet to be skipped is passed over; a
whole packet is passed, and is then the queue's next packet, or completes REFUSED or, where it is well formed, DENIED
(that order is the model's choice, notes/assumptions/27.md). A record that waits for a ring with room is written,
behind its sequence number and at the ring's entry of the producer index, with no other byte of memory changed, and
that index moves on by one. CTRL_MISMATCH counts and recovers, and the third in a row makes the partition fatal and
stops its queues; CTRL_RECOVERY_DONE ends the recovery; a failed worker leaves service. Out of range nothing changes
(notes/assumptions/5.md). (Rests on spec/22_front_end_firmware.md, spec/27_partitions_host_boot.md.) -/
def Obligations.FrontEndEvents : Prop :=
  ∀ (s : State) (q : Nat) (v : Word),
    (64 ≤ q → exec (.cqTailDoorbell q v) s = .next s ∧ exec (.cqResetDoorbell q) s = .next s) ∧
    (q < 64 → (∃ t, exec (.cqTailDoorbell q v) s = .next t ∧ cmdq t q = { cmdq s q with tail := v.toNat % 2 ^ 32 } ∧ SameMem s t ∧
        ∀ k, k ≠ q → cmdq t k = cmdq s k) ∧
      ∃ t, exec (.cqResetDoorbell q) s = .next t ∧ (cmdq t q).ctl ≠ 2 ∧ (cmdq t q).head = (cmdq s q).tail % 2 ^ (cmdq s q).log2sz ∧
        cqAvail (cmdq t q) = 0 ∧ ∀ k, k ≠ q → cmdq t k = cmdq s k) ∧
    (parseDue s q = false → exec (.packetParse q) s = .next s) ∧
    (parseDue s q = true →
      let s0 := nextQueue q s
      (∀ u, headHdr s0 q = (none, u) → exec (.packetParse q) s = .next (queueError q u)) ∧
      (∀ h u, headHdr s0 q = (some h, u) →
        (hdrNw h < 2 ∨ opcAssigned (hdrOpc h) = false → exec (.packetParse q) s = .next (queueError q u) ∧ (cmdq (queueError q u) q).ctl = 2) ∧
        (2 ≤ hdrNw h → opcAssigned (hdrOpc h) = true →
          ((cmdq u q).skipNow ≠ 0 → ∃ t, exec (.packetParse q) s = .next t ∧ (cmdq t q).skipNow = (cmdq u q).skipNow - 1 ∧
            (cmdq t q).head = ((cmdq u q).head + 8 * hdrNw h) % 2 ^ (cmdq u q).log2sz) ∧
          ((cmdq u q).skipNow = 0 → ∀ ws w, cqWords q (cmdq u q).head (hdrNw h) u = (some ws, w) →
            let p := pktOf q ws
            let x := countArm q (passPacket q p.nw w)
            let good := bits (ws.getD 0 0).toNat 45 32 = 0 ∧ nwOk p = true ∧ payOk p = true ∧ caddrOk p = true
            (¬ good → exec (.packetParse q) s = .next (endPacket q stRefused 0 (beginPacket p x))) ∧
            (good → accepted x p = false → exec (.packetParse q) s = .next (endPacket q stDenied 0 (beginPacket p x))) ∧
            (good → accepted x p = true → ∃ t, exec (.packetParse q) s = .next t ∧ (cmdq t q).ready = some p ∧
              (cmdq t q).head = ((cmdq w q).head + 8 * p.nw) % 2 ^ (cmdq w q).log2sz))))) ∧
    ((∀ w ∈ s.dev.ringWait, w.ring ≠ q) → exec (.eventRingRoom q) s = .next s) ∧
    (∀ w, s.dev.ringWait.find? (fun w => w.ring == q) = some w → (ringRoom q s).1 = true → ∃ t, exec (.eventRingRoom q) s = .next t ∧
      t.dev.ringWait = s.dev.ringWait.erase w ∧ (rget {} t.dev.evrings q).prod = ((rget {} s.dev.evrings q).prod + 1) % 2 ^ 64 ∧
      let r := rget {} s.dev.evrings q
      let u := nextSeq (ringPart q) (modDev (ringRoom q s).2 (fun d => { d with ringWait := d.ringWait.erase w }))
      match devStore (ringPart q) (r.base.toNat + ringEntry q * (r.prod % 2 ^ r.log2n)) (wordBytes (w64 u.1 :: w.words)) u.2 with
      | some v => SameMem v t
      | none => SameMem s t) ∧
    (16 ≤ q → exec (.ctrlMismatch q) s = .next s) ∧
    (q < 16 → s.dev.runm < 2 → ∃ t, exec (.ctrlMismatch q) s = .next t ∧ t.dev.recovering = true ∧ t.dev.runm = s.dev.runm + 1 ∧
      t.dev.mism = min (2 ^ 32 - 1) (s.dev.mism + 1) ∧ t.st0 = s.st0 ∧ t.st1 = s.st1 ∧ t.dev.launches = s.dev.launches) ∧
    (q < 16 → 2 ≤ s.dev.runm → ∃ t, exec (.ctrlMismatch q) s = .next t ∧ q ∈ t.dev.fatal ∧
      ∀ k, k < 63 → (cmdq s k).part = q → (cmdq t k).ctl = 2 ∧ (cmdq t k).cur = none) ∧
    exec .ctrlRecoveryDone s = .next { s with dev := { s.dev with recovering := false } } ∧
    exec .workerSelfcheckFail s = .next { s with dev := { s.dev with workers := s.dev.workers - 1 } }

/-- POWER_ON of a device that is not up ends at STEP 7 with the ROM measured, or stops at its failing step with FAIL.
DEVICE_RESET acts only with 0xA5: bring-up runs again, no partition is LIVE, nothing runs, and home memory, host
memory (the model's choice, notes/assumptions/56.md), the Orchard and the patches are kept. A table write to a LIVE
entry is dropped and sets BUSYWR; to another it stores the named bits. START makes a valid entry that meets no LIVE
partition's shares LIVE with fresh counters, else, a LIVE partition's own included, sets REFUSED, which it clears
where it succeeds (the model's choice, notes/assumptions/54.md). STOP takes a LIVE partition out, its queues to ERROR,
its weight handles INVALID. A write of 1 clears BUSYWR and REFUSED. The image loader starts only with good fields and
free blocks, and when it is done each page holds the host bytes named for it, as they read then (bad fields and that
time: the model's choice, notes/assumptions/55.md). What does not apply changes nothing (notes/assumptions/5.md).
(Rests on spec/27_partitions_host_boot.md.) -/
def Obligations.BootAndPartitionEvents : Prop :=
  (∀ (f : Option Nat) (v : Bool) (s : State), (s.dev.boot = 7 ∨ s.dev.bootFail = true → exec (.powerOn f v) s = .next s) ∧
    (s.dev.boot ≠ 7 → s.dev.bootFail = false → ∃ t, exec (.powerOn f v) s = .next t ∧ SameMem s t ∧ t.dev.live = s.dev.live ∧
      (f = none → t.dev.boot = 7 ∧ t.dev.bootFail = false ∧ t.gv.salvaged = v ∧ rget 0 t.dev.meas 0 = Config.romDigest) ∧
      ∀ k, f = some k → t.dev.boot = max 1 (min 6 k) ∧ t.dev.bootFail = true)) ∧
  (∀ (v : Byte) (s : State), (v ≠ 0xA5 → exec (.deviceReset v) s = .next s) ∧
    (v = 0xA5 → ∃ t, exec (.deviceReset v) s = .next t ∧ SameMem s t ∧ t.dev.boot = 0 ∧ t.dev.bootFail = false ∧ t.dev.live = [] ∧
      t.dev.launches = [] ∧ t.dev.cmdqs = [] ∧ t.dev.orch = s.dev.orch ∧ t.dev.patches = s.dev.patches ∧ t.st0 = {} ∧ t.st1 = {} ∧
      t.gv.jobs = [] ∧ t.gv.handles = [])) ∧
  (∀ (e w : Nat) (v : Word) (s : State), (16 ≤ e ∨ 16 ≤ w → exec (.partitionTableWrite e w v) s = .next s) ∧
    (e < 16 → w < 16 → ∃ t, exec (.partitionTableWrite e w v) s = .next t ∧
      (e ∈ s.dev.live → t.dev.pctl = s.dev.pctl ||| w64 (2 ^ 63) ∧ t.dev.ptab = s.dev.ptab) ∧
      (e ∉ s.dev.live → t.dev.pctl = s.dev.pctl ∧ rget 0 t.dev.ptab (16 * e + w) = v &&& w64 (ptabMask w) ∧
        ∀ k, k ≠ 16 * e + w → rget 0 t.dev.ptab k = rget 0 s.dev.ptab k))) ∧
  (∀ (p : Nat) (s : State), (16 ≤ p → exec (.pctlStart p) s = .next s) ∧
    (p < 16 → ¬ MayStart s p → exec (.pctlStart p) s = .next { s with dev := { s.dev with pctl := withField s.dev.pctl 62 1 1 } }) ∧
    (p < 16 → MayStart s p → ∃ t, exec (.pctlStart p) s = .next t ∧ t.dev.live = s.dev.live ++ [p] ∧ rget 0 t.dev.seqctr p = 0 ∧
      rget 0 t.dev.jobctr p = 0 ∧ bit t.dev.pctl.toNat 62 = false ∧ t.dev.cmdqs = s.dev.cmdqs ∧ SameMem s t ∧
      (∀ q k, slotShare s p q = true → k < 4 → slotWord t q k = 0)) ∧
    (p ∉ s.dev.live → exec (.pctlStop p) s = .next s) ∧
    (p ∈ s.dev.live → ∃ t, exec (.pctlStop p) s = .next t ∧ p ∉ t.dev.live ∧ (∀ q ∈ s.dev.live, q ≠ p → q ∈ t.dev.live) ∧
      (∀ q, q < 63 → (cmdq s q).part = p → (cmdq t q).ctl = 2 ∧ (cmdq t q).cur = none) ∧
      ∀ h, handleShare s p h = true → (whOf t h).st = whInvalid)) ∧
  (∀ (v : Word) (s : State), ∃ t, exec (.pctlFlagClear v) s = .next t ∧ t = { s with dev := { s.dev with pctl := t.dev.pctl } } ∧
    ∀ k, bit t.dev.pctl.toNat k = (bit s.dev.pctl.toNat k && !(decide (k = 62 ∨ k = 63) && bit v.toNat k))) ∧
  (∀ (src lpn0 npg : Word) (s : State), (s.dev.loading = true → exec (.imageLoad src lpn0 npg) s = .next s) ∧
    (s.dev.loading = false → ∃ t, exec (.imageLoad src lpn0 npg) s = .next t ∧ OnlyLoader s t ∧ rget 0 t.dev.loader 0 = src ∧
      rget 0 t.dev.loader 1 = lpn0 ∧ rget 0 t.dev.loader 2 = npg ∧
      (LoadMayGo s lpn0.toNat npg.toNat → t.dev.loading = true ∧ rget 0 t.dev.loader 3 = 0) ∧
      (¬ LoadMayGo s lpn0.toNat npg.toNat → t.dev.loading = false ∧ rget 0 t.dev.loader 3 = 2))) ∧
  ∀ s : State, (s.dev.loading = false → exec .imageLoadDone s = .next s) ∧
    (s.dev.loading = true → ∃ t, exec .imageLoadDone s = .next t ∧ t.dev.loading = false ∧ rget 0 t.dev.loader 3 = 1 ∧ SameMem s t ∧
      ∀ i, i < loaderN s 2 → orchPage t (laddrStack (loaderN s 1)) (laddrPage (loaderN s 1) + i) =
        homeBytes s .host (loaderN s 0 + pageBytes * i) pageBytes)

/-- ARB stores SLICE of at least 256 and STRICT, starts a slice, and clears OVRCNT with bit 32. PORTMAP stores its named
bits and starts again the walks of the ports whose field changes; a PS word starts the walks of the ports bound to its
set. CANOPY stores DTRAP, and clears the debt where bit 32 is set; the debt-clear event is such a write with bit 32
set. Any HINTDROP write clears it. WATCH stores its fields; a write to an RS word clears that word. A control register
stores its named bits, and a number that no write reaches is unchanged. BAR0 writes act as the events they are (table,
PCTL, doorbells, reset), set the power cap within 600 to 1,800 W, store peer and loader words, configure a command
queue without packets, and start the image loader; a virtual function reads and writes its own queues' blocks only.
REGISTER_WRITE's numbers, control registers, BAR0 from 2^20 and the virtual functions from 2^24, and that others
change nothing, are the model's choice (notes/assumptions/57.md and 5.md). (Rests on spec/02_execution_model.md,
spec/03_registers_operands.md, spec/24_memory_reliability_thermal.md, spec/27_partitions_host_boot.md.) -/
def Obligations.RegisterWriteEvents : Prop :=
  (∀ (v : Word) (s : State), ∃ t, exec (.arbSliceWrite v) s = .next t ∧
    t.gv = { s.gv with slice := max 256 (v.toNat % 2 ^ 16), strict := bit v.toNat 63, sliceStart := s.now,
                       ovrcnt := (if bit v.toNat 32 then 0 else s.gv.ovrcnt) } ∧
    (∀ b n, n ≠ 5 → ctlRead t b n = ctlRead s b n) ∧ SameMem s t ∧ t.dev = s.dev ∧
    (bit v.toNat 32 = true → exec (.arbOvrcntClear v) s = .next t ∧ t.gv.ovrcnt = 0) ∧
    (bit v.toNat 32 = false → exec (.arbOvrcntClear v) s = .next s)) ∧
  (∀ (v : Word) (s : State), ∃ t, exec (.portmapWrite v) s = .next t ∧ ctlRead t s.sel 3 = some (v &&& 0x8F8F8F8F8F8F8F8F) ∧
    (∀ n, n ≠ 3 → ctlRead t s.sel n = ctlRead s s.sel n) ∧ SameMem s t ∧ SameG s t ∧ SameRest s t ∧
    ∀ p, p < 8 → rget Walk.start (cur t).walk p =
      if bits (cur s).portmap.toNat (8 * p + 7) (8 * p) = bits (cur t).portmap.toNat (8 * p + 7) (8 * p) then rget Walk.start (cur s).walk p
      else Walk.start) ∧
  (∀ (m k : Nat) (v : Word) (s : State), (16 ≤ m ∨ 8 ≤ k → exec (.psWrite m k v) s = .next s) ∧
    (m < 16 → k < 8 → ∃ t, exec (.psWrite m k v) s = .next t ∧ ctlRead t s.sel (0x80 + 8 * m + k) = some (v &&& psKept k) ∧
      (∀ n, n ≠ 0x80 + 8 * m + k → ctlRead t s.sel n = ctlRead s s.sel n) ∧ SameMem s t ∧ SameG s t ∧ SameRest s t ∧
      ∀ p, p < 8 → rget Walk.start (cur t).walk p =
        if bits (cur s).portmap.toNat (8 * p + 3) (8 * p) = m then Walk.start else rget Walk.start (cur s).walk p)) ∧
  (∀ (v : Word) (s : State), (bit v.toNat 32 = false → exec (.canopyDebtClear v) s = .next s) ∧
    (bit v.toNat 32 = true → exec (.canopyDebtClear v) s =
      .next { s with gv := { s.gv with dtrap := bit v.toNat 62, debt := false, debtcnt := 0 } }) ∧
    exec (.hintdropClear v) s = .next { s with gv := { s.gv with hintdrop := 0 } }) ∧
  (∀ (st pc off : Nat) (v : Word) (s : State),
    (8 ≤ st ∨ 128 ≤ pc → exec (.hbmWatchWrite st pc v) s = .next s ∧ exec (.hbmCounterClear st pc off) s = .next s) ∧
    exec (.hbmCounterClear st pc 8) s = .next s ∧
    (st < 8 → pc < 128 →
      (∃ t, exec (.hbmWatchWrite st pc v) s = .next t ∧ SameMem s t ∧
        hbmWord (rget {} t.dev.hbm (128 * st + pc)) 8 = v &&& 0x800000000003FFFF ∧
        (∀ k, k ≠ 8 → k ≠ 0x10 → hbmWord (rget {} t.dev.hbm (128 * st + pc)) k = hbmWord (rget {} s.dev.hbm (128 * st + pc)) k) ∧
        ∀ k, k ≠ 128 * st + pc → rget {} t.dev.hbm k = rget {} s.dev.hbm k) ∧
      ∃ t, exec (.hbmCounterClear st pc off) s = .next t ∧ SameMem s t ∧
        (off ∈ [0x18, 0x20, 0x28, 0x30, 0x38] → hbmWord (rget {} t.dev.hbm (128 * st + pc)) off = 0) ∧
        (∀ k, k ≠ off ∨ off ∉ [0x18, 0x20, 0x28, 0x30, 0x38] →
          hbmWord (rget {} t.dev.hbm (128 * st + pc)) k = hbmWord (rget {} s.dev.hbm (128 * st + pc)) k) ∧
        ∀ k, k ≠ 128 * st + pc → rget {} t.dev.hbm k = rget {} s.dev.hbm k)) ∧
  (∀ (n : Nat) (v : Word) (s : State), n < 0x1000 →
    (ctlReadOnly n ∨ ¬ ctlExists n → exec (.registerWrite n v) s = .next s) ∧
    (∃ t, exec (.registerWrite n v) s = .next t ∧ SameMem s t ∧ SameG s t ∧ (∀ w, ctlStored n v = some w → ctlRead t s.sel n = some w) ∧
      ∀ k, k ≠ n → ctlRead t s.sel k = ctlRead s s.sel k) ∧
    (n = 5 → exec (.registerWrite n v) s = exec (.arbSliceWrite v) s) ∧ (n = 3 → exec (.registerWrite n v) s = exec (.portmapWrite v) s) ∧
    (n = 0x802 → exec (.registerWrite n v) s = exec (.hintdropClear v) s) ∧
    (n = 0x810 → (bit v.toNat 32 = true → exec (.registerWrite n v) s = exec (.canopyDebtClear v) s) ∧
      (bit v.toNat 32 = false → exec (.registerWrite n v) s = .next { s with gv := { s.gv with dtrap := bit v.toNat 62 } }))) ∧
  (∀ (off : Nat) (v : Word) (s : State), off < 2 ^ 20 → off % 8 = 0 →
    let go := exec (.registerWrite (2 ^ 20 + off) v) s
    (off < 0x800 → go = exec (.partitionTableWrite (off / 128) (off / 8 % 16) v) s) ∧
    (off = 0x800 → ∀ u, exec (.pctlFlagClear v) s = .next u → go =
      if bits v.toNat 5 4 = 1 then exec (.pctlStart (v.toNat % 16)) u
      else if bits v.toNat 5 4 = 2 then exec (.pctlStop (v.toNat % 16)) u else .next u) ∧
    (off = 0x810 → go = exec (.deviceReset (v.setWidth 8)) s) ∧
    (off = 0x820 → ∃ t, go = .next t ∧ t.dev.pcap = max 600 (min 1800 (v.toNat % 65536)) ∧ t.dev.capon = decide (t.dev.pcap < s.dev.pnow)) ∧
    (0x8000 ≤ off → off < 0x10000 → ∃ t, go = .next t ∧
      (let group := bits (bar0Read t (off / 32 * 32)).toNat 63 62 = 2
       bar0Read t off = (if off % 32 = 0 then v &&& 0xFC000000FFFFFFFF else if off % 32 = 8 then v
         else if off % 32 = 16 then (if group then v &&& 0x3F3F else v) else (if group then 0 else v &&& 0x7FFFFFFFFFFF))) ∧
      ∀ k, k ≠ off → k % 8 = 0 → k / 32 ≠ off / 32 ∨ off % 32 ≠ 0 → bar0Read t k = bar0Read s k) ∧
    (0x2000 ≤ off → off < 0x2020 → s.dev.loading = true → go = .next s) ∧
    (0x2000 ≤ off → off < 0x2018 → s.dev.loading = false → ∃ t, go = .next t ∧ bar0Read t off = v ∧ OnlyLoader s t) ∧
    (off = 0x2018 → s.dev.loading = false → ∃ t, go = .next t ∧ OnlyLoader s t ∧
      (LoadMayGo s (loaderN s 1) (loaderN s 2) → t.dev.loading = true ∧ bar0Read t 0x2018 = 0) ∧
      (¬ LoadMayGo s (loaderN s 1) (loaderN s 2) → t.dev.loading = false ∧ bar0Read t 0x2018 = 2)) ∧
    (0x1000 ≤ off → off < 0x2000 →
      let q := (off - 0x1000) / 64
      let c := cmdq s q
      (off % 64 = 16 → go = exec (.cqTailDoorbell q v) s) ∧ (off % 64 = 32 → go = exec (.cqResetDoorbell q) s) ∧
      (cqHolds c = true → off % 64 ≠ 16 → off % 64 ≠ 32 → go = .next s) ∧
      (cqHolds c = false →
        (off % 64 = 0 → ∃ t, go = .next t ∧ (cmdq t q).owner = bit v.toNat 7 ∧ (cmdq t q).log2sz = max 12 (min 24 (v.toNat % 32)) ∧
          cqAvail (cmdq t q) = 0) ∧
        (off % 64 = 8 → ∃ t, go = .next t ∧ cmdq t q = { c with base := v }) ∧
        (off % 64 = 40 → q ≠ 63 → ∃ t, go = .next t ∧ cmdq t q = { c with part := v.toNat % 16 }))) ∧
    (off = 0x808 ∨ off = 0x828 ∨ off = 0x830 ∨ off = 0x838 ∨ 0x10000 ≤ off → go = .next s)) ∧
  ∀ (p off : Nat) (v : Word) (s : State), p < 16 → off < 4096 → off % 8 = 0 →
    let go := exec (.registerWrite (2 ^ 24 + 4096 * p + off) v) s
    ((partQueues s p)[off / 64]? = none → go = .next s ∧ vfRead s p off = 0) ∧
    (∀ q, (partQueues s p)[off / 64]? = some q → (cmdq s q).part = p ∧ vfRead s p off = bar0Read s (0x1000 + 64 * q + off % 64) ∧ (off % 64 = 16 → go = exec (.cqTailDoorbell q v) s) ∧
      (off % 64 = 32 → go = exec (.cqResetDoorbell q) s) ∧
      ∃ t, go = .next t ∧ (cmdq t q).part = p ∧ (cmdq t q).owner = (cmdq s q).owner ∧ ∀ k, k ≠ q → cmdq t k = cmdq s k)

/-- Taking a fault leaves both memories, the device-wide units and the other stream as they were. A task that is not
provisional keeps its registers, flags and pc; its FSTAT holds MASK, CODE and RIDX, its stream is FAULTED, and its
save is asked for. A provisional task is held at the Grove with that state and its stream is IDLE (R192). An op alone
that faults, and a faulting bundle, take exactly that. The mask of an issue has the bit of every position that faults;
faults of all ops come before their waits, but an issue that only CANOPY_EARLY and a wait hold back waits (the model's
reading, notes/assumptions/19.md). An enabled op that reads or writes a register written earlier in the group raises
GROUP_HAZARD in its position, as does the later of two ops of one issue that write one register (that it alone is
named is the model's choice, notes/assumptions/92.md), and one that reads a lost register raises MEM_UE with the
load's address; neither has an effect but on the walks of its ports, which later slots of the same issue then find
moved on. (Rests on spec/09_encoding.md, spec/21_traps_faults_preemption.md, spec/07_taps_and_shapes.md.) -/
def Obligations.FaultEntryAndHazards : Prop :=
  (∀ (b : Bool) (m : Nat) (f : FaultInfo) (s : State),
    let t := takeFault b m f s
    let c := strm s b
    SameMem s t ∧ t.dev = s.dev ∧ strm t (!b) = strm s (!b) ∧ t.now = s.now ∧
    (c.prov = false → t.gv = s.gv ∧ (∀ n, gRead (strm t b) n = gRead c n) ∧ (strm t b).flags = c.flags ∧ (strm t b).mxc = c.mxc ∧
      (strm t b).seqstat = c.seqstat ∧ (strm t b).pc = c.pc ∧ (strm t b).ridx = c.ridx ∧ (strm t b).status = .faulted ∧ (strm t b).saveWant = some 0 ∧
      (strm t b).fstat = fstatWord m (fcode f.code) c.ridx ∧ (strm t b).faultCause = f.cause ∧ (strm t b).faultAddr = f.addr) ∧
    (c.prov = true → (strm t b).status = .idle ∧ hasTask (strm t b) = false ∧ ∃ h, t.gv.heldTasks = s.gv.heldTasks ++ [h] ∧
      h.status = .faulted ∧ h.task = c.task ∧ h.pc = c.pc ∧ (∀ n, gRead h n = gRead c n) ∧ h.saveWant = some 0 ∧
      h.fstat = fstatWord m (fcode f.code) c.ridx ∧ h.faultCause = f.cause ∧ h.faultAddr = f.addr)) ∧
  (∀ (m : Nat) (f : FCode) (r : Nat), m < 128 → r < 64 →
    bits (fstatWord m (fcode f) r).toNat 6 0 = m ∧ bits (fstatWord m (fcode f) r).toNat 23 16 = fcode f ∧
    bits (fstatWord m (fcode f) r).toNat 47 42 = r) ∧
  (∀ (p : Pos) (q : Guard) (op : OpM) (s : State) (f : FaultInfo), guardOn (cur s) q = true →
    op (ctxAt p s) s = .error (.fault f) → issueOne p q op s = .next (takeFault s.sel (2 ^ posNum p) f s)) ∧
  (∀ (h : Word) (ops : List Word) (s : State) (m : Nat) (f : FaultInfo), issueEnd h ops s = .fault m f →
    SameMem s (faultIssue m f s) ∧ (faultIssue m f s).dev = s.dev ∧ strm (faultIssue m f s) (!s.sel) = strm s (!s.sel) ∧
    ((cur s).prov = false → (strm (faultIssue m f s) s.sel).status = .faulted ∧ (strm (faultIssue m f s) s.sel).pc = (cur s).pc ∧
      (faultIssue m f s).gv = s.gv ∧ ∀ n, gRead (strm (faultIssue m f s) s.sel) n = gRead (cur s) n)) ∧
  (∀ (h : Word) (ops : List Word) (s : State),
    let ks := contribs (cur s) h ops
    let s0 := modCur s (fun c => wake { c with blen := hLen h })
    bundleFault (cur s) h ops ks = none → skips (cur s) h = false → interlocked s0 ks = false →
    (ks.any (fun k => k.pos == .m) = true → capReady s = true) → ∀ x r, (perform s0 h ks).faults = x :: r →
    ((perform s0 h ks).stalls = [] ∨ (∃ y ∈ x :: r, y.2.code ≠ .canopyEarly) →
      ∃ m, issueEnd h ops s = .fault m x.2 ∧ ∀ p : Pos, bit m (posNum p) = decide (∃ y ∈ x :: r, y.1 = p)) ∧
    ((perform s0 h ks).stalls ≠ [] → (∀ y ∈ x :: r, y.2.code = .canopyEarly) →
      issueEnd h ops s = .stall (perform s0 h ks).stalls)) ∧
  ∀ (s : State) (h : Word) (a : IssueAcc) (k : Contrib) (i : Instr), decodeOp k.pos k.w = .ok i → (opOf i).isSome = true → hRpt h = 0 →
    guardOn (cur s) (guardOf k.w) = true → (∀ g ∈ guardReg (guardOf k.w), lostBy (cur s) g = none) →
    let f := foot (opCtx s k) i
    ((∃ g, (g ∈ f.rd ∨ g ∈ f.wr) ∧ g ∈ (cur s).grpW ∨ g ∈ f.wr ∧ g ∈ a.iw) →
      (performOne s h a k).faults = a.faults ++ [(k.pos, ⟨.groupHazard, 0, 0⟩)] ∧
        ∃ w, (performOne s h a k).st = modCur a.st (fun c => { c with walk := w })) ∧
    (hazard (cur s) a ⟨guardReg (guardOf k.w), []⟩ = false → hazard (cur s) a f = false → ∀ w, f.rd.findSome? (lostBy (cur s)) = some w →
      (performOne s h a k).faults = a.faults ++ [(k.pos, ⟨.memUe, 0, w⟩)] ∧
        ∃ w, (performOne s h a k).st = modCur a.st (fun c => { c with walk := w }))
end

