-- ==== Sys2Proof/Laws/Maps.lean ====
section
/-!
SUPPORT. What a table reads after it is written, that writing keeps its canonical form, and little-endian numbers.
-/

namespace Sys2Proof.Machine

theorem rget_nil (d : α) (k : Nat) : rget d [] k = d := rfl

theorem rget_rdel (d : α) (m : RMap α) (k i : Nat) : rget d (rdel m k) i = if i = k then d else rget d m i := by
  induction m with
  | nil => simp [rget, rdel]
  | cons x r ih =>
    obtain ⟨n, v⟩ := x
    by_cases h : n = k
    · subst h
      by_cases hi : i = n
      · subst hi; simp [rdel, ih]
      · have : n ≠ i := fun e => hi e.symm
        simp [rdel, rget, ih, hi, this]
    · by_cases hn : n = i
      · subst hn; simp [rdel, rget, h]
      · simp [rdel, rget, h, hn, ih]

theorem rget_rins (d : α) (m : RMap α) (k i : Nat) (v : α) :
    rget d (rins (rdel m k) k v) i = if i = k then v else rget d m i := by
  induction m with
  | nil =>
    by_cases h : i = k
    · simp [rdel, rins, rget, h]
    · have h' : k ≠ i := fun e => h e.symm
      simp [rdel, rins, rget, h, h']
  | cons x r ih =>
    obtain ⟨n, w⟩ := x
    by_cases hn : n = k
    · subst hn
      simp only [rdel, if_true]
      rw [ih]
      by_cases hi : i = n
      · simp [hi]
      · have : n ≠ i := fun e => hi e.symm
        simp [hi, rget, this]
    · simp only [rdel, if_neg hn]
      by_cases hk : k < n
      · simp only [rins, if_pos hk, rget]
        by_cases hi : k = i
        · subst hi; simp
        · have hi' : i ≠ k := fun e => hi e.symm
          by_cases hni : n = i
          · simp [hi, hi', hni]
          · simp [hi, hi', hni, rget_rdel]
      · simp only [rins, if_neg hk, rget, ih]
        by_cases hni : n = i
        · subst hni; simp [hn]
        · simp [hni]

/-- A table reads what was written, and every other entry as before. -/
theorem rget_rset [DecidableEq α] (d : α) (m : RMap α) (k i : Nat) (v : α) :
    rget d (rset d m k v) i = if i = k then v else rget d m i := by
  unfold rset
  split
  · rename_i h; subst h; exact rget_rdel v m k i
  · exact rget_rins d m k i v

@[simp] theorem rget_rset_same [DecidableEq α] (d : α) (m : RMap α) (k : Nat) (v : α) : rget d (rset d m k v) k = v := by
  simp [rget_rset]

theorem rget_rset_other [DecidableEq α] (d : α) (m : RMap α) {k i : Nat} (v : α) (h : i ≠ k) :
    rget d (rset d m k v) i = rget d m i := by simp [rget_rset, h]

theorem rget_rmod [DecidableEq α] (d : α) (m : RMap α) (k i : Nat) (f : α → α) :
    rget d (rmod d m k f) i = if i = k then f (rget d m k) else rget d m i := rget_rset d m k i _

/-- n entries written from k read as written, every other as before. -/
theorem rget_rsetAll [DecidableEq α] (d : α) (vs : List α) : ∀ (m : RMap α) (k i : Nat),
    rget d (rsetAll d m k vs) i = if k ≤ i ∧ i < k + vs.length then vs.getD (i - k) d else rget d m i := by
  induction vs with
  | nil => intro m k i; simp [rsetAll] <;> omega
  | cons v r ih =>
    intro m k i
    simp only [rsetAll, ih, rget_rset, List.length_cons]
    by_cases h1 : k + 1 ≤ i ∧ i < k + 1 + r.length
    · have h2 : k ≤ i ∧ i < k + (r.length + 1) := by omega
      have h3 : i - k = (i - (k + 1)) + 1 := by omega
      rw [if_pos h1, if_pos h2, h3]; simp
    · rw [if_neg h1]
      by_cases hi : i = k
      · subst hi
        have h2 : i ≤ i ∧ i < i + (r.length + 1) := by omega
        simp
      · have h2 : ¬ (k ≤ i ∧ i < k + (r.length + 1)) := by omega
        rw [if_neg hi, if_neg h2]

theorem rgetN_length (d : α) (m : RMap α) (n : Nat) : ∀ k, (rgetN d m k n).length = n := by
  induction n with
  | zero => intro k; rfl
  | succ n ih => intro k; simp [rgetN, ih]

/-! ## Canonical form -/

theorem rwfFrom_mono [DecidableEq α] (d : α) (m : RMap α) {lo hi : Nat} (h : lo ≤ hi) (w : rwfFrom d hi m = true) :
    rwfFrom d lo m = true := by
  cases m with
  | nil => rfl
  | cons x r =>
    obtain ⟨i, v⟩ := x
    simp only [rwfFrom, Bool.and_eq_true, decide_eq_true_eq] at w ⊢
    exact ⟨⟨by omega, w.1.2⟩, w.2⟩

theorem rwfFrom_rdel [DecidableEq α] (d : α) (m : RMap α) (k : Nat) : ∀ lo, rwfFrom d lo m = true → rwfFrom d lo (rdel m k) = true := by
  induction m with
  | nil => intro lo h; exact h
  | cons x r ih =>
    obtain ⟨i, v⟩ := x
    intro lo h
    simp only [rwfFrom, Bool.and_eq_true, decide_eq_true_eq] at h
    by_cases hi : i = k
    · simp only [rdel, if_pos hi]
      exact rwfFrom_mono d _ (by omega) (ih _ h.2)
    · simp only [rdel, if_neg hi, rwfFrom, Bool.and_eq_true, decide_eq_true_eq]
      exact ⟨h.1, ih _ h.2⟩

theorem rwfFrom_rins [DecidableEq α] (d : α) (m : RMap α) (k : Nat) (v : α) (hv : v ≠ d) :
    ∀ lo, lo ≤ k → rwfFrom d lo (rdel m k) = true → rwfFrom d lo (rins (rdel m k) k v) = true := by
  induction m with
  | nil => intro lo hk _; simp [rdel, rins, rwfFrom, hv, hk]
  | cons x r ih =>
    obtain ⟨i, w⟩ := x
    intro lo hk h
    by_cases hi : i = k
    · simp only [rdel, if_pos hi] at h ⊢
      exact ih lo hk h
    · simp only [rdel, if_neg hi] at h ⊢
      simp only [rwfFrom, Bool.and_eq_true, decide_eq_true_eq] at h
      by_cases hki : k < i
      · simp only [rins, if_pos hki, rwfFrom, Bool.and_eq_true, decide_eq_true_eq]
        exact ⟨⟨hk, hv⟩, ⟨by omega, h.1.2⟩, h.2⟩
      · simp only [rins, if_neg hki, rwfFrom, Bool.and_eq_true, decide_eq_true_eq]
        exact ⟨h.1, ih (i + 1) (by omega) h.2⟩

/-- Writing an entry keeps the canonical form. -/
theorem rwf_rset [DecidableEq α] (d : α) (m : RMap α) (k : Nat) (v : α) (h : rwf d m = true) : rwf d (rset d m k v) = true := by
  unfold rset rwf at *
  split
  · exact rwfFrom_rdel d m k 0 h
  · rename_i hv; exact rwfFrom_rins d m k v hv 0 (Nat.zero_le _) (rwfFrom_rdel d m k 0 h)

/-! ## Little-endian numbers -/

@[simp] theorem natLe_length (n : Nat) : ∀ x, (natLe n x).length = n := by
  induction n with
  | zero => intro x; rfl
  | succ n ih => intro x; simp [natLe, ih]

/-- The number in the n bytes of x is x modulo 256^n. -/
theorem leNat_natLe (n : Nat) : ∀ x, leNat (natLe n x) = x % 256 ^ n := by
  induction n with
  | zero => intro x; simp [natLe, leNat, Nat.mod_one]
  | succ n ih =>
    intro x
    have h := ih (x / 256)
    simp only [leNat] at h
    simp only [natLe, leNat, List.foldr_cons, h]
    have : (BitVec.ofNat 8 x).toNat = x % 256 := by simp
    rw [this, Nat.pow_succ', Nat.mod_mul]

end Sys2Proof.Machine
end

