-- ==== Sys2Proof/Laws/State.lean ====
section
/-!
SUPPORT. What each field of the state is after each named update: no proof needs to unfold a record update. One lemma
for each field and update, by computation.
-/

namespace Sys2Proof.Machine


/-! ## A stream replaced -/

@[simp] theorem setStrm_now (s : State) (b : Bool) (c : Stream) : (setStrm s b c).now = s.now := by cases b <;> rfl
@[simp] theorem setStrm_free (s : State) (b : Bool) (c : Stream) : (setStrm s b c).free = s.free := by cases b <;> rfl
@[simp] theorem setStrm_agenda (s : State) (b : Bool) (c : Stream) : (setStrm s b c).agenda = s.agenda := by cases b <;> rfl
@[simp] theorem setStrm_turn (s : State) (b : Bool) (c : Stream) : (setStrm s b c).turn = s.turn := by cases b <;> rfl
@[simp] theorem setStrm_sel (s : State) (b : Bool) (c : Stream) : (setStrm s b c).sel = s.sel := by cases b <;> rfl
@[simp] theorem setStrm_gv (s : State) (b : Bool) (c : Stream) : (setStrm s b c).gv = s.gv := by cases b <;> rfl
@[simp] theorem setStrm_dev (s : State) (b : Bool) (c : Stream) : (setStrm s b c).dev = s.dev := by cases b <;> rfl
@[simp] theorem setStrm_mem (s : State) (b : Bool) (c : Stream) : (setStrm s b c).mem = s.mem := by cases b <;> rfl
@[simp] theorem setStrm_hmem (s : State) (b : Bool) (c : Stream) : (setStrm s b c).hmem = s.hmem := by cases b <;> rfl
@[simp] theorem setStrm_ue (s : State) (b : Bool) (c : Stream) : (setStrm s b c).ue = s.ue := by cases b <;> rfl
@[simp] theorem setStrm_llc (s : State) (b : Bool) (c : Stream) : (setStrm s b c).llc = s.llc := by cases b <;> rfl
@[simp] theorem setStrm_l2 (s : State) (b : Bool) (c : Stream) : (setStrm s b c).l2 = s.l2 := by cases b <;> rfl
@[simp] theorem setStrm_late (s : State) (b : Bool) (c : Stream) : (setStrm s b c).late = s.late := by cases b <;> rfl
@[simp] theorem setStrm_reqs (s : State) (b : Bool) (c : Stream) : (setStrm s b c).reqs = s.reqs := by cases b <;> rfl
@[simp] theorem setStrm_asked (s : State) (b : Bool) (c : Stream) : (setStrm s b c).asked = s.asked := by cases b <;> rfl
@[simp] theorem setStrm_true_st0 (s : State) (c : Stream) : (setStrm s true c).st0 = s.st0 := rfl
@[simp] theorem setStrm_true_st1 (s : State) (c : Stream) : (setStrm s true c).st1 = c := rfl
@[simp] theorem setStrm_false_st0 (s : State) (c : Stream) : (setStrm s false c).st0 = c := rfl
@[simp] theorem setStrm_false_st1 (s : State) (c : Stream) : (setStrm s false c).st1 = s.st1 := rfl
@[simp] theorem strm_setStrm (s : State) (b : Bool) (c : Stream) : strm (setStrm s b c) b = c := by cases b <;> rfl
@[simp] theorem strm_setStrm_other (s : State) (b : Bool) (c : Stream) : strm (setStrm s b c) (!b) = strm s (!b) := by cases b <;> rfl
theorem strm_setStrm_of (s : State) (a b : Bool) (c : Stream) : strm (setStrm s a c) b = if a = b then c else strm s b := by
  cases a <;> cases b <;> rfl

/-! ## The acting stream replaced -/

@[simp] theorem setCur_now (s : State) (c : Stream) : (setCur s c).now = s.now := by simp [setCur]
@[simp] theorem setCur_free (s : State) (c : Stream) : (setCur s c).free = s.free := by simp [setCur]
@[simp] theorem setCur_agenda (s : State) (c : Stream) : (setCur s c).agenda = s.agenda := by simp [setCur]
@[simp] theorem setCur_turn (s : State) (c : Stream) : (setCur s c).turn = s.turn := by simp [setCur]
@[simp] theorem setCur_sel (s : State) (c : Stream) : (setCur s c).sel = s.sel := by simp [setCur]
@[simp] theorem setCur_gv (s : State) (c : Stream) : (setCur s c).gv = s.gv := by simp [setCur]
@[simp] theorem setCur_dev (s : State) (c : Stream) : (setCur s c).dev = s.dev := by simp [setCur]
@[simp] theorem setCur_mem (s : State) (c : Stream) : (setCur s c).mem = s.mem := by simp [setCur]
@[simp] theorem setCur_hmem (s : State) (c : Stream) : (setCur s c).hmem = s.hmem := by simp [setCur]
@[simp] theorem setCur_ue (s : State) (c : Stream) : (setCur s c).ue = s.ue := by simp [setCur]
@[simp] theorem setCur_llc (s : State) (c : Stream) : (setCur s c).llc = s.llc := by simp [setCur]
@[simp] theorem setCur_l2 (s : State) (c : Stream) : (setCur s c).l2 = s.l2 := by simp [setCur]
@[simp] theorem setCur_late (s : State) (c : Stream) : (setCur s c).late = s.late := by simp [setCur]
@[simp] theorem setCur_reqs (s : State) (c : Stream) : (setCur s c).reqs = s.reqs := by simp [setCur]
@[simp] theorem setCur_asked (s : State) (c : Stream) : (setCur s c).asked = s.asked := by simp [setCur]
@[simp] theorem cur_setCur (s : State) (c : Stream) : cur (setCur s c) = c := by
  cases h : s.sel <;> simp [cur, setCur, h, strm, setStrm]
@[simp] theorem strm_setCur_sel (s : State) (c : Stream) : strm (setCur s c) s.sel = c := by
  cases h : s.sel <;> simp [setCur, h, strm, setStrm]
@[simp] theorem strm_setCur_other (s : State) (c : Stream) : strm (setCur s c) (!s.sel) = strm s (!s.sel) := by
  cases h : s.sel <;> simp [setCur, h, strm, setStrm]

/-! ## The acting stream changed -/

@[simp] theorem modCur_now (s : State) (f : Stream → Stream) : (modCur s f).now = s.now := by simp [modCur]
@[simp] theorem modCur_free (s : State) (f : Stream → Stream) : (modCur s f).free = s.free := by simp [modCur]
@[simp] theorem modCur_agenda (s : State) (f : Stream → Stream) : (modCur s f).agenda = s.agenda := by simp [modCur]
@[simp] theorem modCur_turn (s : State) (f : Stream → Stream) : (modCur s f).turn = s.turn := by simp [modCur]
@[simp] theorem modCur_sel (s : State) (f : Stream → Stream) : (modCur s f).sel = s.sel := by simp [modCur]
@[simp] theorem modCur_gv (s : State) (f : Stream → Stream) : (modCur s f).gv = s.gv := by simp [modCur]
@[simp] theorem modCur_dev (s : State) (f : Stream → Stream) : (modCur s f).dev = s.dev := by simp [modCur]
@[simp] theorem modCur_mem (s : State) (f : Stream → Stream) : (modCur s f).mem = s.mem := by simp [modCur]
@[simp] theorem modCur_hmem (s : State) (f : Stream → Stream) : (modCur s f).hmem = s.hmem := by simp [modCur]
@[simp] theorem modCur_ue (s : State) (f : Stream → Stream) : (modCur s f).ue = s.ue := by simp [modCur]
@[simp] theorem modCur_llc (s : State) (f : Stream → Stream) : (modCur s f).llc = s.llc := by simp [modCur]
@[simp] theorem modCur_l2 (s : State) (f : Stream → Stream) : (modCur s f).l2 = s.l2 := by simp [modCur]
@[simp] theorem modCur_late (s : State) (f : Stream → Stream) : (modCur s f).late = s.late := by simp [modCur]
@[simp] theorem modCur_reqs (s : State) (f : Stream → Stream) : (modCur s f).reqs = s.reqs := by simp [modCur]
@[simp] theorem modCur_asked (s : State) (f : Stream → Stream) : (modCur s f).asked = s.asked := by simp [modCur]
@[simp] theorem cur_modCur (s : State) (f : Stream → Stream) : cur (modCur s f) = f (cur s) := by
  cases h : s.sel <;> simp [cur, modCur, setCur, h, strm, setStrm]
@[simp] theorem strm_modCur_sel (s : State) (f : Stream → Stream) : strm (modCur s f) s.sel = f (cur s) := by
  cases h : s.sel <;> simp [cur, modCur, setCur, h, strm, setStrm]
@[simp] theorem strm_modCur_other (s : State) (f : Stream → Stream) : strm (modCur s f) (!s.sel) = strm s (!s.sel) := by
  cases h : s.sel <;> simp [cur, modCur, setCur, h, strm, setStrm]

/-! ## The Grove changed -/

@[simp] theorem modGv_now (s : State) (f : Grove → Grove) : (modGv s f).now = s.now := rfl
@[simp] theorem modGv_free (s : State) (f : Grove → Grove) : (modGv s f).free = s.free := rfl
@[simp] theorem modGv_agenda (s : State) (f : Grove → Grove) : (modGv s f).agenda = s.agenda := rfl
@[simp] theorem modGv_turn (s : State) (f : Grove → Grove) : (modGv s f).turn = s.turn := rfl
@[simp] theorem modGv_sel (s : State) (f : Grove → Grove) : (modGv s f).sel = s.sel := rfl
@[simp] theorem modGv_st0 (s : State) (f : Grove → Grove) : (modGv s f).st0 = s.st0 := rfl
@[simp] theorem modGv_st1 (s : State) (f : Grove → Grove) : (modGv s f).st1 = s.st1 := rfl
@[simp] theorem modGv_gv (s : State) (f : Grove → Grove) : (modGv s f).gv = f s.gv := rfl
@[simp] theorem modGv_dev (s : State) (f : Grove → Grove) : (modGv s f).dev = s.dev := rfl
@[simp] theorem modGv_mem (s : State) (f : Grove → Grove) : (modGv s f).mem = s.mem := rfl
@[simp] theorem modGv_hmem (s : State) (f : Grove → Grove) : (modGv s f).hmem = s.hmem := rfl
@[simp] theorem modGv_ue (s : State) (f : Grove → Grove) : (modGv s f).ue = s.ue := rfl
@[simp] theorem modGv_llc (s : State) (f : Grove → Grove) : (modGv s f).llc = s.llc := rfl
@[simp] theorem modGv_l2 (s : State) (f : Grove → Grove) : (modGv s f).l2 = s.l2 := rfl
@[simp] theorem modGv_late (s : State) (f : Grove → Grove) : (modGv s f).late = s.late := rfl
@[simp] theorem modGv_reqs (s : State) (f : Grove → Grove) : (modGv s f).reqs = s.reqs := rfl
@[simp] theorem modGv_asked (s : State) (f : Grove → Grove) : (modGv s f).asked = s.asked := rfl
@[simp] theorem strm_modGv (s : State) (f : Grove → Grove) (b : Bool) : strm (modGv s f) b = strm s b := rfl
@[simp] theorem cur_modGv (s : State) (f : Grove → Grove) : cur (modGv s f) = cur s := rfl

/-! ## The device units changed -/

@[simp] theorem modDev_now (s : State) (f : Dev → Dev) : (modDev s f).now = s.now := rfl
@[simp] theorem modDev_free (s : State) (f : Dev → Dev) : (modDev s f).free = s.free := rfl
@[simp] theorem modDev_agenda (s : State) (f : Dev → Dev) : (modDev s f).agenda = s.agenda := rfl
@[simp] theorem modDev_turn (s : State) (f : Dev → Dev) : (modDev s f).turn = s.turn := rfl
@[simp] theorem modDev_sel (s : State) (f : Dev → Dev) : (modDev s f).sel = s.sel := rfl
@[simp] theorem modDev_st0 (s : State) (f : Dev → Dev) : (modDev s f).st0 = s.st0 := rfl
@[simp] theorem modDev_st1 (s : State) (f : Dev → Dev) : (modDev s f).st1 = s.st1 := rfl
@[simp] theorem modDev_gv (s : State) (f : Dev → Dev) : (modDev s f).gv = s.gv := rfl
@[simp] theorem modDev_dev (s : State) (f : Dev → Dev) : (modDev s f).dev = f s.dev := rfl
@[simp] theorem modDev_mem (s : State) (f : Dev → Dev) : (modDev s f).mem = s.mem := rfl
@[simp] theorem modDev_hmem (s : State) (f : Dev → Dev) : (modDev s f).hmem = s.hmem := rfl
@[simp] theorem modDev_ue (s : State) (f : Dev → Dev) : (modDev s f).ue = s.ue := rfl
@[simp] theorem modDev_llc (s : State) (f : Dev → Dev) : (modDev s f).llc = s.llc := rfl
@[simp] theorem modDev_l2 (s : State) (f : Dev → Dev) : (modDev s f).l2 = s.l2 := rfl
@[simp] theorem modDev_late (s : State) (f : Dev → Dev) : (modDev s f).late = s.late := rfl
@[simp] theorem modDev_reqs (s : State) (f : Dev → Dev) : (modDev s f).reqs = s.reqs := rfl
@[simp] theorem modDev_asked (s : State) (f : Dev → Dev) : (modDev s f).asked = s.asked := rfl
@[simp] theorem strm_modDev (s : State) (f : Dev → Dev) (b : Bool) : strm (modDev s f) b = strm s b := rfl
@[simp] theorem cur_modDev (s : State) (f : Dev → Dev) : cur (modDev s f) = cur s := rfl

/-! ## The machine as the other stream reads it (R234) -/

/-- Outside the last cycle of an issue of two cycles a stream reads the machine as it is. -/
@[simp] theorem seen_of_none (s : State) (h : s.late = none) : seen s = s := by simp [seen, h]

@[simp] theorem seen_now (s : State) : (seen s).now = s.now := by unfold seen; split <;> rfl
@[simp] theorem seen_free (s : State) : (seen s).free = s.free := by unfold seen; split <;> rfl
@[simp] theorem seen_agenda (s : State) : (seen s).agenda = s.agenda := by unfold seen; split <;> rfl
@[simp] theorem seen_turn (s : State) : (seen s).turn = s.turn := by unfold seen; split <;> rfl
@[simp] theorem seen_sel (s : State) : (seen s).sel = s.sel := by unfold seen; split <;> rfl
@[simp] theorem seen_ue (s : State) : (seen s).ue = s.ue := by unfold seen; split <;> rfl
@[simp] theorem seen_llc (s : State) : (seen s).llc = s.llc := by unfold seen; split <;> rfl
@[simp] theorem seen_l2 (s : State) : (seen s).l2 = s.l2 := by unfold seen; split <;> rfl
@[simp] theorem seen_late (s : State) : (seen s).late = s.late := by unfold seen; split <;> rfl
@[simp] theorem seen_reqs (s : State) : (seen s).reqs = s.reqs := by unfold seen; split <;> rfl
@[simp] theorem seen_asked (s : State) : (seen s).asked = s.asked := by unfold seen; split <;> rfl
/-- The acting stream reads its own registers as they are. -/
@[simp] theorem strm_seen_sel (s : State) : strm (seen s) s.sel = strm s s.sel := by
  unfold seen; split
  · rfl
  · cases h : s.sel <;> simp [strm]
@[simp] theorem cur_seen (s : State) : cur (seen s) = cur s := by simp [cur]
@[simp] theorem seen_gv_id (s : State) : (seen s).gv.id = s.gv.id := by unfold seen; split <;> rfl
@[simp] theorem seen_gv_salvaged (s : State) : (seen s).gv.salvaged = s.gv.salvaged := by unfold seen; split <;> rfl
@[simp] theorem seen_gv_part (s : State) : (seen s).gv.part = s.gv.part := by unfold seen; split <;> rfl
@[simp] theorem seen_gv_primary (s : State) : (seen s).gv.primary = s.gv.primary := by unfold seen; split <;> rfl
@[simp] theorem seen_gv_mrf (s : State) : (seen s).gv.mrf = s.gv.mrf := by unfold seen; split <;> rfl
@[simp] theorem seen_gv_acc (s : State) : (seen s).gv.acc = s.gv.acc := by unfold seen; split <;> rfl
@[simp] theorem seen_gv_banks (s : State) : (seen s).gv.banks = s.gv.banks := by unfold seen; split <;> rfl
@[simp] theorem seen_gv_clds (s : State) : (seen s).gv.clds = s.gv.clds := by unfold seen; split <;> rfl
@[simp] theorem seen_gv_jobs (s : State) : (seen s).gv.jobs = s.gv.jobs := by unfold seen; split <;> rfl
@[simp] theorem seen_gv_l1 (s : State) : (seen s).gv.l1 = s.gv.l1 := by unfold seen; split <;> rfl
@[simp] theorem seen_gv_heldTasks (s : State) : (seen s).gv.heldTasks = s.gv.heldTasks := by unfold seen; split <;> rfl
@[simp] theorem seen_gv_lastM (s : State) : (seen s).gv.lastM = s.gv.lastM := by unfold seen; split <;> rfl
@[simp] theorem seen_gv_mcap (s : State) : (seen s).gv.mcap = s.gv.mcap := by unfold seen; split <;> rfl
@[simp] theorem seen_gv_shres (s : State) : (seen s).gv.shres = s.gv.shres := by unfold seen; split <;> rfl
@[simp] theorem seen_gv_stallTo (s : State) : (seen s).gv.stallTo = s.gv.stallTo := by unfold seen; split <;> rfl

/-! ## A byte written at home -/

@[simp] theorem putByte_now (s : State) (sp : Space) (pa : Nat) (b : Byte) : (putByte s sp pa b).now = s.now := by cases sp <;> rfl
@[simp] theorem putByte_free (s : State) (sp : Space) (pa : Nat) (b : Byte) : (putByte s sp pa b).free = s.free := by cases sp <;> rfl
@[simp] theorem putByte_agenda (s : State) (sp : Space) (pa : Nat) (b : Byte) : (putByte s sp pa b).agenda = s.agenda := by cases sp <;> rfl
@[simp] theorem putByte_turn (s : State) (sp : Space) (pa : Nat) (b : Byte) : (putByte s sp pa b).turn = s.turn := by cases sp <;> rfl
@[simp] theorem putByte_sel (s : State) (sp : Space) (pa : Nat) (b : Byte) : (putByte s sp pa b).sel = s.sel := by cases sp <;> rfl
@[simp] theorem putByte_st0 (s : State) (sp : Space) (pa : Nat) (b : Byte) : (putByte s sp pa b).st0 = s.st0 := by cases sp <;> rfl
@[simp] theorem putByte_st1 (s : State) (sp : Space) (pa : Nat) (b : Byte) : (putByte s sp pa b).st1 = s.st1 := by cases sp <;> rfl
@[simp] theorem putByte_gv (s : State) (sp : Space) (pa : Nat) (b : Byte) : (putByte s sp pa b).gv = s.gv := by cases sp <;> rfl
@[simp] theorem putByte_dev (s : State) (sp : Space) (pa : Nat) (b : Byte) : (putByte s sp pa b).dev = s.dev := by cases sp <;> rfl
@[simp] theorem putByte_ue (s : State) (sp : Space) (pa : Nat) (b : Byte) : (putByte s sp pa b).ue = s.ue := by cases sp <;> rfl
@[simp] theorem putByte_llc (s : State) (sp : Space) (pa : Nat) (b : Byte) : (putByte s sp pa b).llc = s.llc := by cases sp <;> rfl
@[simp] theorem putByte_l2 (s : State) (sp : Space) (pa : Nat) (b : Byte) : (putByte s sp pa b).l2 = s.l2 := by cases sp <;> rfl
@[simp] theorem putByte_late (s : State) (sp : Space) (pa : Nat) (b : Byte) : (putByte s sp pa b).late = s.late := by cases sp <;> rfl
@[simp] theorem putByte_reqs (s : State) (sp : Space) (pa : Nat) (b : Byte) : (putByte s sp pa b).reqs = s.reqs := by cases sp <;> rfl
@[simp] theorem putByte_asked (s : State) (sp : Space) (pa : Nat) (b : Byte) : (putByte s sp pa b).asked = s.asked := by cases sp <;> rfl
@[simp] theorem putByte_dev_mem (s : State) (pa : Nat) (b : Byte) : (putByte s .dev pa b).mem = rset unlisted s.mem pa b := rfl
@[simp] theorem putByte_dev_hmem (s : State) (pa : Nat) (b : Byte) : (putByte s .dev pa b).hmem = s.hmem := rfl
@[simp] theorem putByte_host_mem (s : State) (pa : Nat) (b : Byte) : (putByte s .host pa b).mem = s.mem := rfl
@[simp] theorem putByte_host_hmem (s : State) (pa : Nat) (b : Byte) : (putByte s .host pa b).hmem = rset unlisted s.hmem pa b := rfl
@[simp] theorem strm_putByte (s : State) (sp : Space) (pa : Nat) (v : Byte) (b : Bool) : strm (putByte s sp pa v) b = strm s b := by
  cases sp <;> rfl

/-! ## A free value taken -/

@[simp] theorem takeFree_now (s : State) : (takeFree s).2.now = s.now := rfl
@[simp] theorem takeFree_free (s : State) : (takeFree s).2.free = s.free + 1 := rfl
@[simp] theorem takeFree_agenda (s : State) : (takeFree s).2.agenda = s.agenda := rfl
@[simp] theorem takeFree_turn (s : State) : (takeFree s).2.turn = s.turn := rfl
@[simp] theorem takeFree_sel (s : State) : (takeFree s).2.sel = s.sel := rfl
@[simp] theorem takeFree_st0 (s : State) : (takeFree s).2.st0 = s.st0 := rfl
@[simp] theorem takeFree_st1 (s : State) : (takeFree s).2.st1 = s.st1 := rfl
@[simp] theorem takeFree_gv (s : State) : (takeFree s).2.gv = s.gv := rfl
@[simp] theorem takeFree_dev (s : State) : (takeFree s).2.dev = s.dev := rfl
@[simp] theorem takeFree_mem (s : State) : (takeFree s).2.mem = s.mem := rfl
@[simp] theorem takeFree_hmem (s : State) : (takeFree s).2.hmem = s.hmem := rfl
@[simp] theorem takeFree_ue (s : State) : (takeFree s).2.ue = s.ue := rfl
@[simp] theorem takeFree_llc (s : State) : (takeFree s).2.llc = s.llc := rfl
@[simp] theorem takeFree_l2 (s : State) : (takeFree s).2.l2 = s.l2 := rfl
@[simp] theorem takeFree_late (s : State) : (takeFree s).2.late = s.late := rfl
@[simp] theorem takeFree_reqs (s : State) : (takeFree s).2.reqs = s.reqs := rfl
@[simp] theorem takeFree_asked (s : State) : (takeFree s).2.asked = s.asked := rfl

/-! ## The acting stream chosen -/

@[simp] theorem with_sel_strm (s : State) (a b : Bool) : strm { s with sel := a } b = strm s b := rfl
@[simp] theorem with_sel_cur (s : State) (a : Bool) : cur { s with sel := a } = strm s a := rfl

/-! ## Registers (R62, R444) -/

@[simp] theorem gRead_zero (c : Stream) : gRead c 0 = 0 := rfl

/-- A register reads what was written; G0 reads zero whatever was written; every other register reads as before. -/
theorem gRead_gWrite (c : Stream) (n k : Nat) (v : Word) :
    gRead (gWrite c n v) k = if k = n ∧ k ≠ 0 then v else gRead c k := by
  unfold gRead gWrite
  by_cases hn : n = 0
  · subst hn
    by_cases hk : k = 0 <;> simp [hk]
  · by_cases hk : k = 0
    · simp [hk]
    · simp [hn, hk, rget_rset]

@[simp] theorem gRead_gWrite_same (c : Stream) (n : Nat) (v : Word) (h : n ≠ 0) : gRead (gWrite c n v) n = v := by
  simp [gRead_gWrite, h]

theorem gRead_gWrite_other (c : Stream) {n k : Nat} (v : Word) (h : k ≠ n) : gRead (gWrite c n v) k = gRead c k := by
  simp [gRead_gWrite, h]

@[simp] theorem gWrite_status (c : Stream) (n : Nat) (v : Word) : (gWrite c n v).status = c.status := by unfold gWrite; split <;> rfl
@[simp] theorem gWrite_task (c : Stream) (n : Nat) (v : Word) : (gWrite c n v).task = c.task := by unfold gWrite; split <;> rfl
@[simp] theorem gWrite_pc (c : Stream) (n : Nat) (v : Word) : (gWrite c n v).pc = c.pc := by unfold gWrite; split <;> rfl
@[simp] theorem gWrite_blen (c : Stream) (n : Nat) (v : Word) : (gWrite c n v).blen = c.blen := by unfold gWrite; split <;> rfl
@[simp] theorem gWrite_npc (c : Stream) (n : Nat) (v : Word) : (gWrite c n v).npc = c.npc := by unfold gWrite; split <;> rfl
@[simp] theorem gWrite_ridx (c : Stream) (n : Nat) (v : Word) : (gWrite c n v).ridx = c.ridx := by unfold gWrite; split <;> rfl
@[simp] theorem gWrite_lostR (c : Stream) (n : Nat) (v : Word) : (gWrite c n v).lostR = c.lostR := by unfold gWrite; split <;> rfl
@[simp] theorem gWrite_level (c : Stream) (n : Nat) (v : Word) : (gWrite c n v).level = c.level := by unfold gWrite; split <;> rfl
@[simp] theorem gWrite_asid (c : Stream) (n : Nat) (v : Word) : (gWrite c n v).asid = c.asid := by unfold gWrite; split <;> rfl
@[simp] theorem gWrite_launch (c : Stream) (n : Nat) (v : Word) : (gWrite c n v).launch = c.launch := by unfold gWrite; split <;> rfl
@[simp] theorem gWrite_queue (c : Stream) (n : Nat) (v : Word) : (gWrite c n v).queue = c.queue := by unfold gWrite; split <;> rfl
@[simp] theorem gWrite_r0 (c : Stream) (n : Nat) (v : Word) : (gWrite c n v).r0 = c.r0 := by unfold gWrite; split <;> rfl
@[simp] theorem gWrite_r1 (c : Stream) (n : Nat) (v : Word) : (gWrite c n v).r1 = c.r1 := by unfold gWrite; split <;> rfl
@[simp] theorem gWrite_r2 (c : Stream) (n : Nat) (v : Word) : (gWrite c n v).r2 = c.r2 := by unfold gWrite; split <;> rfl
@[simp] theorem gWrite_r3 (c : Stream) (n : Nat) (v : Word) : (gWrite c n v).r3 = c.r3 := by unfold gWrite; split <;> rfl
@[simp] theorem gWrite_prov (c : Stream) (n : Nat) (v : Word) : (gWrite c n v).prov = c.prov := by unfold gWrite; split <;> rfl
@[simp] theorem gWrite_lc (c : Stream) (n : Nat) (v : Word) : (gWrite c n v).lc = c.lc := by unfold gWrite; split <;> rfl
@[simp] theorem gWrite_skipp (c : Stream) (n : Nat) (v : Word) : (gWrite c n v).skipp = c.skipp := by unfold gWrite; split <;> rfl
@[simp] theorem gWrite_fmt (c : Stream) (n : Nat) (v : Word) : (gWrite c n v).fmt = c.fmt := by unfold gWrite; split <;> rfl
@[simp] theorem gWrite_tdesc (c : Stream) (n : Nat) (v : Word) : (gWrite c n v).tdesc = c.tdesc := by unfold gWrite; split <;> rfl
@[simp] theorem gWrite_mp (c : Stream) (n : Nat) (v : Word) : (gWrite c n v).mp = c.mp := by unfold gWrite; split <;> rfl
@[simp] theorem gWrite_ps (c : Stream) (n : Nat) (v : Word) : (gWrite c n v).ps = c.ps := by unfold gWrite; split <;> rfl
@[simp] theorem gWrite_portmap (c : Stream) (n : Nat) (v : Word) : (gWrite c n v).portmap = c.portmap := by unfold gWrite; split <;> rfl
@[simp] theorem gWrite_walk (c : Stream) (n : Nat) (v : Word) : (gWrite c n v).walk = c.walk := by unfold gWrite; split <;> rfl
@[simp] theorem gWrite_flags (c : Stream) (n : Nat) (v : Word) : (gWrite c n v).flags = c.flags := by unfold gWrite; split <;> rfl
@[simp] theorem gWrite_mxc (c : Stream) (n : Nat) (v : Word) : (gWrite c n v).mxc = c.mxc := by unfold gWrite; split <;> rfl
@[simp] theorem gWrite_seqstat (c : Stream) (n : Nat) (v : Word) : (gWrite c n v).seqstat = c.seqstat := by unfold gWrite; split <;> rfl
@[simp] theorem gWrite_fstat (c : Stream) (n : Nat) (v : Word) : (gWrite c n v).fstat = c.fstat := by unfold gWrite; split <;> rfl
@[simp] theorem gWrite_iflags (c : Stream) (n : Nat) (v : Word) : (gWrite c n v).iflags = c.iflags := by unfold gWrite; split <;> rfl
@[simp] theorem gWrite_imxc (c : Stream) (n : Nat) (v : Word) : (gWrite c n v).imxc = c.imxc := by unfold gWrite; split <;> rfl
@[simp] theorem gWrite_iseq (c : Stream) (n : Nat) (v : Word) : (gWrite c n v).iseq = c.iseq := by unfold gWrite; split <;> rfl
@[simp] theorem gWrite_inan (c : Stream) (n : Nat) (v : Word) : (gWrite c n v).inan = c.inan := by unfold gWrite; split <;> rfl
@[simp] theorem gWrite_v0 (c : Stream) (n : Nat) (v : Word) : (gWrite c n v).v0 = c.v0 := by unfold gWrite; split <;> rfl
@[simp] theorem gWrite_v1 (c : Stream) (n : Nat) (v : Word) : (gWrite c n v).v1 = c.v1 := by unfold gWrite; split <;> rfl
@[simp] theorem gWrite_m (c : Stream) (n : Nat) (v : Word) : (gWrite c n v).m = c.m := by unfold gWrite; split <;> rfl
@[simp] theorem gWrite_c (c : Stream) (n : Nat) (v : Word) : (gWrite c n v).c = c.c := by unfold gWrite; split <;> rfl
@[simp] theorem gWrite_grpW (c : Stream) (n : Nat) (v : Word) : (gWrite c n v).grpW = c.grpW := by unfold gWrite; split <;> rfl
@[simp] theorem gWrite_grpR (c : Stream) (n : Nat) (v : Word) : (gWrite c n v).grpR = c.grpR := by unfold gWrite; split <;> rfl
@[simp] theorem gWrite_segOn (c : Stream) (n : Nat) (v : Word) : (gWrite c n v).segOn = c.segOn := by unfold gWrite; split <;> rfl
@[simp] theorem gWrite_allow (c : Stream) (n : Nat) (v : Word) : (gWrite c n v).allow = c.allow := by unfold gWrite; split <;> rfl
@[simp] theorem gWrite_used (c : Stream) (n : Nat) (v : Word) : (gWrite c n v).used = c.used := by unfold gWrite; split <;> rfl
@[simp] theorem gWrite_capped (c : Stream) (n : Nat) (v : Word) : (gWrite c n v).capped = c.capped := by unfold gWrite; split <;> rfl
@[simp] theorem gWrite_overrun (c : Stream) (n : Nat) (v : Word) : (gWrite c n v).overrun = c.overrun := by unfold gWrite; split <;> rfl
@[simp] theorem gWrite_pend (c : Stream) (n : Nat) (v : Word) : (gWrite c n v).pend = c.pend := by unfold gWrite; split <;> rfl
@[simp] theorem gWrite_loose (c : Stream) (n : Nat) (v : Word) : (gWrite c n v).loose = c.loose := by unfold gWrite; split <;> rfl
@[simp] theorem gWrite_amap (c : Stream) (n : Nat) (v : Word) : (gWrite c n v).amap = c.amap := by unfold gWrite; split <;> rfl
@[simp] theorem gWrite_scr (c : Stream) (n : Nat) (v : Word) : (gWrite c n v).scr = c.scr := by unfold gWrite; split <;> rfl
@[simp] theorem gWrite_scc (c : Stream) (n : Nat) (v : Word) : (gWrite c n v).scc = c.scc := by unfold gWrite; split <;> rfl
@[simp] theorem gWrite_micro (c : Stream) (n : Nat) (v : Word) : (gWrite c n v).micro = c.micro := by unfold gWrite; split <;> rfl
@[simp] theorem gWrite_denied (c : Stream) (n : Nat) (v : Word) : (gWrite c n v).denied = c.denied := by unfold gWrite; split <;> rfl
@[simp] theorem gWrite_barGen (c : Stream) (n : Nat) (v : Word) : (gWrite c n v).barGen = c.barGen := by unfold gWrite; split <;> rfl
@[simp] theorem gWrite_barRes (c : Stream) (n : Nat) (v : Word) : (gWrite c n v).barRes = c.barRes := by unfold gWrite; split <;> rfl
@[simp] theorem gWrite_wasStrm (c : Stream) (n : Nat) (v : Word) : (gWrite c n v).wasStrm = c.wasStrm := by unfold gWrite; split <;> rfl
@[simp] theorem gWrite_grpOpen (c : Stream) (n : Nat) (v : Word) : (gWrite c n v).grpOpen = c.grpOpen := by unfold gWrite; split <;> rfl
@[simp] theorem gWrite_svTask (c : Stream) (n : Nat) (v : Word) : (gWrite c n v).svTask = c.svTask := by unfold gWrite; split <;> rfl
@[simp] theorem gWrite_eretTo (c : Stream) (n : Nat) (v : Word) : (gWrite c n v).eretTo = c.eretTo := by unfold gWrite; split <;> rfl
@[simp] theorem gWrite_ending (c : Stream) (n : Nat) (v : Word) : (gWrite c n v).ending = c.ending := by unfold gWrite; split <;> rfl
@[simp] theorem gWrite_debtTrap (c : Stream) (n : Nat) (v : Word) : (gWrite c n v).debtTrap = c.debtTrap := by unfold gWrite; split <;> rfl
@[simp] theorem gWrite_idleSeen (c : Stream) (n : Nat) (v : Word) : (gWrite c n v).idleSeen = c.idleSeen := by unfold gWrite; split <;> rfl
@[simp] theorem gWrite_cw (c : Stream) (n : Nat) (v : Word) : (gWrite c n v).cw = c.cw := by unfold gWrite; split <;> rfl
@[simp] theorem gWrite_half (c : Stream) (n : Nat) (v : Word) : (gWrite c n v).half = c.half := by unfold gWrite; split <;> rfl
@[simp] theorem gWrite_ovr (c : Stream) (n : Nat) (v : Word) : (gWrite c n v).ovr = c.ovr := by unfold gWrite; split <;> rfl
@[simp] theorem gWrite_held (c : Stream) (n : Nat) (v : Word) : (gWrite c n v).held = c.held := by unfold gWrite; split <;> rfl
@[simp] theorem gWrite_stopAt (c : Stream) (n : Nat) (v : Word) : (gWrite c n v).stopAt = c.stopAt := by unfold gWrite; split <;> rfl
@[simp] theorem gWrite_stopPc (c : Stream) (n : Nat) (v : Word) : (gWrite c n v).stopPc = c.stopPc := by unfold gWrite; split <;> rfl
@[simp] theorem gWrite_saveWant (c : Stream) (n : Nat) (v : Word) : (gWrite c n v).saveWant = c.saveWant := by unfold gWrite; split <;> rfl
@[simp] theorem gWrite_faultCause (c : Stream) (n : Nat) (v : Word) : (gWrite c n v).faultCause = c.faultCause := by unfold gWrite; split <;> rfl
@[simp] theorem gWrite_faultAddr (c : Stream) (n : Nat) (v : Word) : (gWrite c n v).faultAddr = c.faultAddr := by unfold gWrite; split <;> rfl
@[simp] theorem gWrite_faultInfo (c : Stream) (n : Nat) (v : Word) : (gWrite c n v).faultInfo = c.faultInfo := by unfold gWrite; split <;> rfl
@[simp] theorem gWrite_hand (c : Stream) (n : Nat) (v : Word) : (gWrite c n v).hand = c.hand := by unfold gWrite; split <;> rfl
@[simp] theorem setG_now (s : State) (r : Reg) (v : Word) : (setG s r v).now = s.now := by simp [setG]
@[simp] theorem setG_free (s : State) (r : Reg) (v : Word) : (setG s r v).free = s.free := by simp [setG]
@[simp] theorem setG_agenda (s : State) (r : Reg) (v : Word) : (setG s r v).agenda = s.agenda := by simp [setG]
@[simp] theorem setG_turn (s : State) (r : Reg) (v : Word) : (setG s r v).turn = s.turn := by simp [setG]
@[simp] theorem setG_sel (s : State) (r : Reg) (v : Word) : (setG s r v).sel = s.sel := by simp [setG]
@[simp] theorem setG_gv (s : State) (r : Reg) (v : Word) : (setG s r v).gv = s.gv := by simp [setG]
@[simp] theorem setG_dev (s : State) (r : Reg) (v : Word) : (setG s r v).dev = s.dev := by simp [setG]
@[simp] theorem setG_mem (s : State) (r : Reg) (v : Word) : (setG s r v).mem = s.mem := by simp [setG]
@[simp] theorem setG_hmem (s : State) (r : Reg) (v : Word) : (setG s r v).hmem = s.hmem := by simp [setG]
@[simp] theorem setG_ue (s : State) (r : Reg) (v : Word) : (setG s r v).ue = s.ue := by simp [setG]
@[simp] theorem setG_llc (s : State) (r : Reg) (v : Word) : (setG s r v).llc = s.llc := by simp [setG]
@[simp] theorem setG_l2 (s : State) (r : Reg) (v : Word) : (setG s r v).l2 = s.l2 := by simp [setG]
@[simp] theorem setG_late (s : State) (r : Reg) (v : Word) : (setG s r v).late = s.late := by simp [setG]
@[simp] theorem setG_reqs (s : State) (r : Reg) (v : Word) : (setG s r v).reqs = s.reqs := by simp [setG]
@[simp] theorem setG_asked (s : State) (r : Reg) (v : Word) : (setG s r v).asked = s.asked := by simp [setG]
@[simp] theorem cur_setG (s : State) (r : Reg) (v : Word) : cur (setG s r v) = gWrite (cur s) r.toNat v := by simp [setG]
@[simp] theorem strm_setG_other (s : State) (r : Reg) (v : Word) : strm (setG s r v) (!s.sel) = strm s (!s.sel) := by simp [setG]

/-! ## Rows (R64) -/

/-- A lane reads what was written, and every other lane as before. -/
theorem mrfLane_setLane (s : State) (r l r' l' : Nat) (v : Lane) (h : l < 32) (h' : l' < 32) :
    mrfLane (setLane s r l v) r' l' = if r' = r ∧ l' = l then v else mrfLane s r' l' := by
  simp only [mrfLane, setLane, modGv_gv, rget_rset]
  by_cases e : 32 * r' + l' = 32 * r + l
  · rw [if_pos e, if_pos (by omega)]
  · rw [if_neg e, if_neg (by omega)]


/-! ## Tables of the device units -/

@[simp] theorem launchOf_modGv (s : State) (f : Grove → Grove) (n : Nat) : launchOf (modGv s f) n = launchOf s n := rfl
@[simp] theorem launchOf_setStrm (s : State) (b : Bool) (c : Stream) (n : Nat) : launchOf (setStrm s b c) n = launchOf s n := by
  cases b <;> rfl

/-- A launch slot reads as changed, every other as before. -/
theorem launchOf_modLaunch (s : State) (n k : Nat) (f : Launch → Launch) :
    launchOf (modLaunch s n f) k = if k = n then f (launchOf s n) else launchOf s k := by
  simp [launchOf, modLaunch, rget_rmod]


end Sys2Proof.Machine
end

