-- ==== Sys2Proof/Laws/Memory.lean ====
section
/-!
SUPPORT. Memory: a byte reads as it was written and every other byte as before, words read back, and every operation
that writes memory keeps the canonical form of both memories.
-/

namespace Sys2Proof.Machine

/-! ## Reading after writing -/

/-- A byte reads as written, every other byte of either memory as before. -/
theorem homeByte_putByte (s : State) (sp tp : Space) (a x : Nat) (v : Byte) :
    homeByte (putByte s sp a v) tp x = if tp = sp ∧ x = a then v else homeByte s tp x := by
  cases sp <;> cases tp <;> simp [homeByte, devByte, hostByte, putByte, rget_rset]

@[simp] theorem homeByte_setStrm (s : State) (b : Bool) (c : Stream) : homeByte (setStrm s b c) = homeByte s := by cases b <;> rfl
@[simp] theorem homeByte_modCur (s : State) (f : Stream → Stream) : homeByte (modCur s f) = homeByte s := by simp [modCur, setCur]
@[simp] theorem homeByte_modGv (s : State) (f : Grove → Grove) : homeByte (modGv s f) = homeByte s := rfl
@[simp] theorem homeByte_modDev (s : State) (f : Dev → Dev) : homeByte (modDev s f) = homeByte s := rfl
@[simp] theorem homeByte_setG (s : State) (r : Reg) (v : Word) : homeByte (setG s r v) = homeByte s := by simp [setG]

/-- The LLC's taking of lines changes nothing of the state but which lines it holds. -/
theorem takeLine_eq (own : Bool) (line : Nat) (s : State) : ∃ l, takeLine own line s = { s with llc := l } := by
  unfold takeLine; split <;> exact ⟨_, rfl⟩

@[simp] theorem homeByte_takeLine (own : Bool) (line : Nat) (s : State) : homeByte (takeLine own line s) = homeByte s := by
  obtain ⟨l, h⟩ := takeLine_eq own line s; rw [h]; rfl

/-- A read at home for which no result waits changes nothing but what is asked of home. -/
theorem touchLine_eq (line : Nat) (s : State) : ∃ q, touchLine line s = { s with asked := q } := by
  unfold touchLine touchThrough
  simp only
  split
  · exact ⟨s.asked, rfl⟩
  · split <;> exact ⟨_, rfl⟩

/-- The L2's taking of a line changes nothing of the state but which lines it holds. -/
theorem takeL2_eq (line : Nat) (s : State) : ∃ l, takeL2 line s = { s with l2 := l } := by
  unfold takeL2; split
  · exact ⟨s.l2, rfl⟩
  · exact ⟨_, rfl⟩

@[simp] theorem homeByte_takeL2 (line : Nat) (s : State) : homeByte (takeL2 line s) = homeByte s := by
  obtain ⟨l, h⟩ := takeL2_eq line s; rw [h]; rfl

theorem touchLines_eq (f : Nat → Nat) (ks : List Nat) : ∀ s, ∃ q, ks.foldl (fun s k => touchLine (f k) s) s = { s with asked := q } := by
  induction ks with
  | nil => intro s; exact ⟨s.asked, rfl⟩
  | cons k r ih =>
    intro s
    obtain ⟨q, h⟩ := touchLine_eq (f k) s
    obtain ⟨m, e⟩ := ih { s with asked := q }
    exact ⟨m, by rw [List.foldl_cons, h, e]⟩

theorem touchHome_eq (sp : Space) (pa n : Nat) (s : State) : ∃ q, touchHome sp pa n s = { s with asked := q } := by
  cases sp
  · exact touchLines_eq (fun k => pa / 128 + k) _ s
  · exact ⟨s.asked, rfl⟩

theorem touchSegs_eq (hs : List (HomeOf × Nat)) : ∀ s, ∃ q, touchSegs s hs = { s with asked := q } := by
  induction hs with
  | nil => intro s; exact ⟨s.asked, rfl⟩
  | cons x r ih =>
    intro s
    obtain ⟨q, h⟩ := touchHome_eq x.1.1 x.1.2.1 x.2 s
    obtain ⟨m, e⟩ := ih { s with asked := q }
    exact ⟨m, by rw [← e, ← h]; rfl⟩

@[simp] theorem homeByte_touchHome (sp : Space) (pa n : Nat) (s : State) : homeByte (touchHome sp pa n s) = homeByte s := by
  obtain ⟨q, h⟩ := touchHome_eq sp pa n s; rw [h]; rfl

/-- A request to home changes no byte. -/
@[simp] theorem homeByte_askHome (sp : Space) (pa : Nat) (s : State) : homeByte (askHome sp pa s) = homeByte s := by cases sp <;> rfl

/-- Bytes written from a read as written, every other byte of either memory as before. -/
theorem homeByte_putBytesRaw (sp tp : Space) (bs : List Byte) : ∀ (s : State) (a x : Nat),
    homeByte (putBytesRaw s sp a bs) tp x =
      if tp = sp ∧ a ≤ x ∧ x < a + bs.length then bs.getD (x - a) 0 else homeByte s tp x := by
  induction bs with
  | nil => intro s a x; simp [putBytesRaw]
  | cons b r ih =>
    intro s a x
    simp only [putBytesRaw, ih, homeByte_putByte, List.length_cons]
    by_cases h : tp = sp
    · by_cases h1 : a + 1 ≤ x ∧ x < a + 1 + r.length
      · have h3 : x - a = (x - (a + 1)) + 1 := by omega
        rw [if_pos ⟨h, h1⟩, if_pos ⟨h, by omega, by omega⟩, h3]; simp
      · rw [if_neg (fun e => h1 e.2)]
        by_cases hx : x = a
        · subst hx; simp [h]
        · rw [if_neg (fun e => hx e.2), if_neg (by omega)]
    · simp [h]

theorem homeByte_putBytes (s : State) (sp tp : Space) (a x : Nat) (bs : List Byte) :
    homeByte (putBytes s sp a bs) tp x =
      if tp = sp ∧ a ≤ x ∧ x < a + bs.length then bs.getD (x - a) 0 else homeByte s tp x := by
  rw [← homeByte_putBytesRaw]
  cases sp <;> rfl

/-- A word write leaves every byte outside its eight as before. -/
theorem homeByte_putWord_other (s : State) (sp tp : Space) (a x : Nat) (v : Word) (h : tp ≠ sp ∨ x < a ∨ a + 8 ≤ x) :
    homeByte (putWord s sp a v) tp x = homeByte s tp x := by
  unfold putWord
  rw [homeByte_putBytes, if_neg]
  simp only [natLe_length]
  rintro ⟨h1, h2, h3⟩
  rcases h with h | h | h
  · exact h h1
  · omega
  · omega

theorem homeBytes_length (s : State) (sp : Space) (n : Nat) : ∀ a, (homeBytes s sp a n).length = n := by
  induction n with
  | zero => intro a; rfl
  | succ n ih => intro a; simp [homeBytes, ih]

theorem homeBytes_getD (s : State) (sp : Space) (n : Nat) : ∀ a i, i < n → (homeBytes s sp a n).getD i 0 = homeByte s sp (a + i) := by
  induction n with
  | zero => intro a i h; omega
  | succ n ih =>
    intro a i h
    cases i with
    | zero => simp [homeBytes]
    | succ i =>
      have := ih (a + 1) i (by omega)
      simpa [homeBytes, Nat.add_comm 1, Nat.add_assoc] using this

/-- The bytes written are the bytes read back. -/
theorem homeBytes_putBytes (s : State) (sp : Space) (a : Nat) (bs : List Byte) :
    homeBytes (putBytes s sp a bs) sp a bs.length = bs := by
  apply List.ext_getElem (homeBytes_length _ _ _ _)
  intro i h1 h2
  have h := homeBytes_getD (putBytes s sp a bs) sp bs.length a i h2
  rw [homeByte_putBytes, if_pos ⟨rfl, by omega, by omega⟩, Nat.add_sub_cancel_left] at h
  simpa [List.getD_eq_getElem?_getD, h1, h2] using h

/-- A word reads back as written. -/
theorem homeWord_putWord (s : State) (sp : Space) (a : Nat) (v : Word) : homeWord (putWord s sp a v) sp a = v := by
  have h := homeBytes_putBytes s sp a (natLe 8 v.toNat)
  rw [natLe_length] at h
  apply BitVec.eq_of_toNat_eq
  have hv := v.isLt
  simp only [homeWord, homeNat, putWord, h, leNat_natLe, BitVec.toNat_ofNat]
  omega

/-! ## Canonical form -/

theorem memWf_reset : memWf State.reset = true := rfl

@[simp] theorem memWf_setStrm (s : State) (b : Bool) (c : Stream) : memWf (setStrm s b c) = memWf s := by simp [memWf]
@[simp] theorem memWf_modCur (s : State) (f : Stream → Stream) : memWf (modCur s f) = memWf s := by simp [memWf]
@[simp] theorem memWf_modGv (s : State) (f : Grove → Grove) : memWf (modGv s f) = memWf s := rfl
@[simp] theorem memWf_modDev (s : State) (f : Dev → Dev) : memWf (modDev s f) = memWf s := rfl

@[simp] theorem memWf_takeLine (own : Bool) (line : Nat) (s : State) : memWf (takeLine own line s) = memWf s := by
  obtain ⟨l, h⟩ := takeLine_eq own line s; rw [h]; rfl
@[simp] theorem memWf_touchHome (sp : Space) (pa n : Nat) (s : State) : memWf (touchHome sp pa n s) = memWf s := by
  obtain ⟨q, h⟩ := touchHome_eq sp pa n s; rw [h]; rfl

theorem memWf_putByte (s : State) (sp : Space) (a : Nat) (v : Byte) (h : memWf s = true) : memWf (putByte s sp a v) = true := by
  simp only [memWf, Memory.wf, Bool.and_eq_true] at h ⊢
  cases sp
  · exact ⟨rwf_rset _ _ _ _ h.1, h.2⟩
  · exact ⟨h.1, rwf_rset _ _ _ _ h.2⟩

theorem memWf_putBytesRaw (sp : Space) (bs : List Byte) : ∀ (s : State) (a : Nat), memWf s = true →
    memWf (putBytesRaw s sp a bs) = true := by
  induction bs with
  | nil => intro s a h; exact h
  | cons b r ih => intro s a h; exact ih _ _ (memWf_putByte s sp a b h)

theorem memWf_putBytes (s : State) (sp : Space) (a : Nat) (bs : List Byte) (h : memWf s = true) :
    memWf (putBytes s sp a bs) = true := by
  have := memWf_putBytesRaw sp bs s a h
  cases sp <;> exact this

theorem memWf_putWord (s : State) (sp : Space) (a : Nat) (v : Word) (h : memWf s = true) : memWf (putWord s sp a v) = true :=
  memWf_putBytes s sp a _ h

theorem memWf_foldl {α : Type} (f : State → α → State) (hf : ∀ s x, memWf s = true → memWf (f s x) = true) (xs : List α) :
    ∀ s, memWf s = true → memWf (xs.foldl f s) = true := by
  induction xs with
  | nil => intro s h; exact h
  | cons x r ih => intro s h; exact ih _ (hf s x h)

/-- The write buffer's publication keeps the form. -/
theorem memWf_flushBuf (s : State) (h : memWf s = true) : memWf (flushBuf s) = true := by
  unfold flushBuf
  exact memWf_foldl _ (fun s e h => by simpa using memWf_putByte s .dev e.pa e.byte h) _ _ h

theorem memWf_publish (p : BufByte → Bool) (s : State) (h : memWf s = true) : memWf (publish p s) = true := by
  unfold publish
  simp only
  split <;> exact memWf_flushBuf _ h

theorem memWf_putSegs (hs : List (HomeOf × Nat)) : ∀ (s : State) (bs : List Byte), memWf s = true → memWf (putSegs s hs bs) = true := by
  induction hs with
  | nil => intro s bs h; exact h
  | cons x r ih =>
    obtain ⟨h, n⟩ := x
    intro s bs w
    exact ih _ _ (memWf_putBytes s h.1 h.2.1 _ w)


end Sys2Proof.Machine
end

