-- ==== Sys2Proof/Laws/Exec.lean ====
section
/-!
SUPPORT. What an op issued alone can come to, and what its commit leaves: cited in place of unfolding issueOne, commitOne
and the folding of flags.
-/

namespace Sys2Proof.Machine

/-! ## Everything an op issued alone can do -/

/-- An op issued alone always answers a next state. -/
theorem issueOne_next (p : Pos) (q : Guard) (op : OpM) (s : State) : Continues (issueOne p q op s) := by
  unfold issueOne
  split
  · split <;> exact ⟨_, rfl⟩
  · exact ⟨_, rfl⟩

theorem issueOne_off (p : Pos) (q : Guard) (op : OpM) (s : State) (h : guardOn (cur s) q = false) :
    issueOne p q op s = .next s := by simp [issueOne, h]

theorem issueOne_ok (p : Pos) (q : Guard) (op : OpM) (s t : State) (h : guardOn (cur s) q = true)
    (e : op (ctxAt p s) s = .ok t) : issueOne p q op s = .next (commitOne t) := by
  unfold ctxAt at e; simp [issueOne, h, e]

theorem issueOne_fault (p : Pos) (q : Guard) (op : OpM) (s : State) (f : FaultInfo) (h : guardOn (cur s) q = true)
    (e : op (ctxAt p s) s = .error (.fault f)) : issueOne p q op s = .next (takeFault s.sel (2 ^ posNum p) f s) := by
  unfold ctxAt at e; simp [issueOne, h, e]

theorem issueOne_stall (p : Pos) (q : Guard) (op : OpM) (s : State) (g : State → State) (h : guardOn (cur s) q = true)
    (e : op (ctxAt p s) s = .error (.stall g)) : issueOne p q op s = .next (waitOne g s) := by
  unfold ctxAt at e; simp [issueOne, h, e]

/-- Every op of the five maps is issued alone in the position of its map. -/
theorem exec_eq_issueOne (i : Instr) (q : Guard) (op : OpM) (h : opOf i = some (q, op)) :
    ∃ p, mapPos i = some p ∧ ∀ s, exec i s = issueOne p q op s := by
  cases i <;> first
    | (cases h; exact ⟨_, rfl, fun _ => rfl⟩)
    | cases h

/-! ## Flags with nothing to fold -/

theorem bits_le (x lo : Nat) : bits x (lo + 15) lo ≤ 0xFFFF := by
  have h : lo + 15 + 1 - lo = 16 := by omega
  unfold bits
  rw [h]
  omega

theorem satAdd_zero (x : Nat) (h : x ≤ 0xFFFF) : satAdd 0xFFFF x 0 = x := by unfold satAdd; omega

/-- Counting nothing leaves MXC as it is. -/
theorem mxcAdd_empty (m : Word) : mxcAdd m {} = m := by
  simp only [mxcAdd, satAdd_zero _ (bits_le _ _)]
  apply BitVec.eq_of_toNat_eq
  have := m.isLt
  simp only [w64, bits, BitVec.toNat_ofNat]
  omega

/-- Folding no event leaves SEQSTAT as it is, where its reserved bits read zero. -/
theorem seqAdd_zero (m : Word) (h : m &&& 0xFFFF000000000007 = m) : seqAdd m 0 0 = m := by
  have e : w64 (bits m.toNat 63 48 * 2 ^ 48) = (m >>> 48) <<< 48 := by
    apply BitVec.eq_of_toNat_eq
    have := m.isLt
    simp only [w64, bits, BitVec.toNat_ofNat, BitVec.toNat_shiftLeft, BitVec.toNat_ushiftRight, Nat.shiftRight_eq_div_pow,
      Nat.shiftLeft_eq]
    omega
  unfold seqAdd
  rw [satAdd_zero _ (bits_le _ 48), e]
  conv => rhs; rw [← h]
  apply BitVec.eq_of_getLsbD_eq
  intro i hi
  have hm : ∀ k : Nat, k < 64 → (0xFFFF000000000007 : Word).getLsbD k = (decide (48 ≤ k) || decide (k < 3)) := by decide
  have h7 : ∀ k : Nat, k < 64 → (7 : Word).getLsbD k = decide (k < 3) := by decide
  simp only [BitVec.getLsbD_or, BitVec.getLsbD_and, hm i hi, h7 i hi, BitVec.getLsbD_shiftLeft, BitVec.getLsbD_ushiftRight]
  by_cases k : i < 48
  · have : ¬ 48 ≤ i := by omega
    simp [k, this, hi]
  · have k2 : 48 + (i - 48) = i := by omega
    have k3 : 48 ≤ i := by omega
    simp only [k, hi, k2, k3]
    cases m.getLsbD i <;> simp

/-- A commit between two issues folds nothing in. -/
theorem foldFlags_quiet (c : Stream) (h1 : c.iflags = 0) (h2 : c.imxc = {}) (h3 : c.iseq = 0) (h4 : c.inan = 0)
    (h5 : c.seqstat &&& 0xFFFF000000000007 = c.seqstat) : foldFlags c = c := by
  cases c
  simp only at h1 h2 h3 h4 h5
  subst h1 h2 h3 h4
  simp only [foldFlags, mxcAdd_empty, seqAdd_zero _ h5]
  simp

/-! ## The commit of an op issued alone -/

/-- A commit with no end and no save wanted changes only the acting stream, which runs on. -/
theorem commitOne_plain (s : State) (h1 : (cur s).ending = false) (h2 : (cur s).saveWant = none) :
    commitOne s = modCur s (fun c => { foldFlags c with
      pc := c.npc.getD c.pc, npc := none, hand := [], status := if c.status == .stalled then .running else c.status }) := by
  unfold commitOne settleIssue
  have e : strm (modCur s (fun c => { foldFlags c with
      pc := c.npc.getD c.pc, npc := none, hand := [], status := if c.status == .stalled then .running else c.status })) s.sel =
      { foldFlags (cur s) with
        pc := (cur s).npc.getD (cur s).pc, npc := none, hand := [],
        status := if (cur s).status == .stalled then .running else (cur s).status } := by
    have := cur_modCur s (fun c => { foldFlags c with
      pc := c.npc.getD c.pc, npc := none, hand := [], status := if c.status == .stalled then .running else c.status })
    simpa [cur] using this
  simp only [e]
  simp [foldFlags, h1, h2]

/-- A stream from which only a register, what it has asked for its next issue and its running mark differ reads the same control registers. -/
theorem ctlRead_congr (s t : State) (b : Bool) (n : Nat) (hg : t.gv = s.gv) (hd : t.dev = s.dev)
    (h : ∃ (g : RMap Word) (l : List (Nat × Word)) (r : List Hand) (k : StrmStatus),
      strm t b = { strm s b with g := g, lostG := l, hand := r, status := k }) :
    ctlRead t b n = ctlRead s b n := by
  obtain ⟨g, l, r, k, e⟩ := h
  simp only [ctlRead, e, partOf, launchOf, thermWord, pctx, hg, hd]

/-- The commit of a register result from a state between two issues: G[d] and nothing else. -/
theorem onlyReg_commitOne_setG (s : State) (d : Reg) (v : Word) (h : Quiet s) : OnlyReg s (commitOne (setG s d v)) d v := by
  obtain ⟨h1, h2, h3, h4, h5, h6, -, h7, h8⟩ := h
  have e : commitOne (setG s d v) =
      modCur s (fun c => { gWrite c d.toNat v with hand := [], status := if c.status == .stalled then .running else c.status }) := by
    rw [commitOne_plain _ (by simp [h6]) (by simp [h7])]
    have f : foldFlags (gWrite (cur s) d.toNat v) = gWrite (cur s) d.toNat v :=
      foldFlags_quiet _ (by simp [h1]) (by simp [h2]) (by simp [h3]) (by simp [h4]) (by rw [gWrite_seqstat]; exact h8)
    cases hs : s.sel <;> simp [modCur, setCur, setG, cur, strm, setStrm, hs] at f ⊢ <;>
      simp [cur, strm, hs] at h5 <;> simp [f, h5]
  rw [e]
  have c0 : cur (modCur s (fun c => { gWrite c d.toNat v with
      hand := [], status := if c.status == .stalled then .running else c.status })) =
      { gWrite (cur s) d.toNat v with hand := [], status := if (cur s).status == .stalled then .running else (cur s).status } := cur_modCur _ _
  refine ⟨?_, ?_, ?_, ⟨by simp, by simp, by simp, by simp, by simp, by simp⟩, by simp⟩
  · intro n
    rw [c0, ← gRead_gWrite]
    rfl
  · intro b n
    apply ctlRead_congr _ _ _ _ (modCur_gv _ _) (modCur_dev _ _)
    by_cases hb : b = s.sel
    · subst hb
      refine ⟨(gWrite (cur s) d.toNat v).g, (gWrite (cur s) d.toNat v).lostG, [],
        (if (cur s).status == .stalled then .running else (cur s).status), ?_⟩
      rw [strm_modCur_sel]
      unfold gWrite cur
      split <;> rfl
    · have : b = !s.sel := by cases b <;> cases h : s.sel <;> simp_all
      subst this
      exact ⟨(strm s (!s.sel)).g, (strm s (!s.sel)).lostG, (strm s (!s.sel)).hand, (strm s (!s.sel)).status, by rw [strm_modCur_other]⟩
  · intro sp a
    simp

end Sys2Proof.Machine
end

