-- ==== Sys2Proof/Laws/Late.lean ====
section
/-!
SUPPORT. The results of an issue of two cycles: the commit is there for whatever changes the machine, the other stream reads what was
there before the issue, and the end of the cycle makes the machine one again (R234, R236).
-/

namespace Sys2Proof.Machine

/-! ## What a late commit leaves -/

@[simp] theorem commitLate_now (s t : State) : (commitLate s t).now = t.now := rfl
@[simp] theorem commitLate_free (s t : State) : (commitLate s t).free = t.free := rfl
@[simp] theorem commitLate_turn (s t : State) : (commitLate s t).turn = t.turn := rfl
@[simp] theorem commitLate_sel (s t : State) : (commitLate s t).sel = t.sel := rfl
@[simp] theorem commitLate_st0 (s t : State) : (commitLate s t).st0 = t.st0 := rfl
@[simp] theorem commitLate_st1 (s t : State) : (commitLate s t).st1 = t.st1 := rfl
@[simp] theorem commitLate_gv (s t : State) : (commitLate s t).gv = t.gv := rfl
@[simp] theorem commitLate_dev (s t : State) : (commitLate s t).dev = t.dev := rfl
@[simp] theorem commitLate_mem (s t : State) : (commitLate s t).mem = t.mem := rfl
@[simp] theorem commitLate_hmem (s t : State) : (commitLate s t).hmem = t.hmem := rfl
@[simp] theorem commitLate_ue (s t : State) : (commitLate s t).ue = t.ue := rfl
@[simp] theorem commitLate_asked (s t : State) : (commitLate s t).asked = t.asked := rfl
@[simp] theorem commitLate_reqs (s t : State) : (commitLate s t).reqs = t.reqs := rfl

/-! ## What the other stream reads meanwhile -/

@[simp] theorem seen_commitLate_mem (s t : State) : (seen (commitLate s t)).mem = s.mem := rfl
@[simp] theorem seen_commitLate_hmem (s t : State) : (seen (commitLate s t)).hmem = s.hmem := rfl
@[simp] theorem seen_commitLate_dev (s t : State) : (seen (commitLate s t)).dev = s.dev := rfl
@[simp] theorem seen_commitLate_spad (s t : State) : (seen (commitLate s t)).gv.spad = s.gv.spad := rfl
@[simp] theorem seen_commitLate_handles (s t : State) : (seen (commitLate s t)).gv.handles = s.gv.handles := rfl
@[simp] theorem seen_commitLate_comp (s t : State) : (seen (commitLate s t)).gv.comp = s.gv.comp := rfl
@[simp] theorem seen_commitLate_idle (s t : State) : (seen (commitLate s t)).gv.idle = s.gv.idle := rfl
@[simp] theorem seen_commitLate_owner (s t : State) : (seen (commitLate s t)).gv.owner = s.gv.owner := rfl
@[simp] theorem seen_commitLate_uentry (s t : State) : (seen (commitLate s t)).gv.uentry = s.gv.uentry := rfl
@[simp] theorem seen_commitLate_wbuf (s t : State) : (seen (commitLate s t)).gv.wbuf = s.gv.wbuf := rfl

/-- The stream whose issue it was is read as it was before the issue, the reader as it is. -/
theorem strm_seen_commitLate (s t : State) (b : Bool) (h : b ≠ t.sel) : strm (seen (commitLate s t)) b = strm s b := by
  cases b <;> cases e : t.sel <;> simp_all [seen, commitLate, strm]

/-! ## The end of the cycle -/

/-- After it no result is hidden, and nothing but the L1 has changed. -/
theorem showLate_eq (s : State) : ∃ l, showLate s = { s with late := none, gv := { s.gv with l1 := l } } := by
  unfold showLate
  split
  · rename_i h; exact ⟨s.gv.l1, by cases s; simp at h; subst h; rfl⟩
  · exact ⟨_, rfl⟩

@[simp] theorem showLate_late (s : State) : (showLate s).late = none := by
  obtain ⟨l, h⟩ := showLate_eq s; rw [h]
@[simp] theorem showLate_mem (s : State) : (showLate s).mem = s.mem := by
  obtain ⟨l, h⟩ := showLate_eq s; rw [h]
@[simp] theorem showLate_hmem (s : State) : (showLate s).hmem = s.hmem := by
  obtain ⟨l, h⟩ := showLate_eq s; rw [h]
@[simp] theorem showLate_dev (s : State) : (showLate s).dev = s.dev := by
  obtain ⟨l, h⟩ := showLate_eq s; rw [h]
@[simp] theorem strm_showLate (s : State) (b : Bool) : strm (showLate s) b = strm s b := by
  obtain ⟨l, h⟩ := showLate_eq s; rw [h]; rfl

end Sys2Proof.Machine
end

