-- ==== Sys2Proof/Laws/Translate.lean ====
section
/-!
SUPPORT. Everything that a translation, a load of the device and a store of the device can change: a translation takes
free values, fills the TLB and asks home for the lines that its walk reads, and nothing else; a device load does no more, but that it
may be held back; a device store writes bytes beside that.
-/

namespace Sys2Proof.Machine

/-- From s to t only free values were taken, lines were asked for at home, the TLB changed, and an access may have been found held
back. -/
def OnlyXlate (s t : State) : Prop := ∃ n q l w, t = { s with free := n, asked := q, dev := { s.dev with tlb := l, waits := w } }

theorem OnlyXlate.refl (s : State) : OnlyXlate s s := ⟨s.free, s.asked, s.dev.tlb, s.dev.waits, rfl⟩

theorem OnlyXlate.trans {s t u : State} (h : OnlyXlate s t) (k : OnlyXlate t u) : OnlyXlate s u := by
  obtain ⟨n, q, l, w, rfl⟩ := h
  obtain ⟨m, r, k, x, rfl⟩ := k
  exact ⟨m, r, k, x, rfl⟩

theorem OnlyXlate.sameMem {s t : State} (h : OnlyXlate s t) : SameMem s t := by
  obtain ⟨n, q, l, w, rfl⟩ := h
  intro sp a
  cases sp <;> rfl

theorem OnlyXlate.memWf {s t : State} (h : OnlyXlate s t) : memWf t = memWf s := by
  obtain ⟨n, q, l, w, rfl⟩ := h
  rfl

theorem OnlyXlate.strm {s t : State} (h : OnlyXlate s t) (b : Bool) : strm t b = strm s b := by
  obtain ⟨n, q, l, w, rfl⟩ := h
  rfl

theorem OnlyXlate.gv {s t : State} (h : OnlyXlate s t) : t.gv = s.gv := by
  obtain ⟨n, q, l, w, rfl⟩ := h
  rfl

theorem OnlyXlate.now {s t : State} (h : OnlyXlate s t) : t.now = s.now := by
  obtain ⟨n, q, l, w, rfl⟩ := h
  rfl

/-- The device units are as before but for the TLB and the mark of an access held back. -/
theorem OnlyXlate.dev {s t : State} (h : OnlyXlate s t) : ∃ l w, t.dev = { s.dev with tlb := l, waits := w } := by
  obtain ⟨n, q, l, w, rfl⟩ := h
  exact ⟨l, w, rfl⟩

theorem OnlyXlate.ofAsked {s t : State} (h : ∃ q, t = { s with asked := q }) : OnlyXlate s t := by
  obtain ⟨q, rfl⟩ := h
  exact ⟨s.free, q, s.dev.tlb, s.dev.waits, rfl⟩

theorem putTlb_only (e : TlbEntry) (s : State) : OnlyXlate s (putTlb e s) := by
  unfold putTlb
  split
  · exact ⟨s.free, s.asked, _, s.dev.waits, rfl⟩
  · exact ⟨s.free + 1, s.asked, _, s.dev.waits, rfl⟩

theorem walkFill_only (asid a : Nat) (s : State) : OnlyXlate s (walkFill asid a s).2 := by
  unfold walkFill
  split
  · exact putTlb_only _ _
  · exact OnlyXlate.refl s

theorem leafOf_only (s : State) (asid a : Nat) : OnlyXlate s (leafOf s asid a).2 := by
  unfold leafOf
  split
  · split
    · exact OnlyXlate.refl s
    · have k : OnlyXlate s (takeKeep Config.tlbKeeps s).2 := ⟨s.free + 1, s.asked, s.dev.tlb, s.dev.waits, rfl⟩
      simp only
      split
      · exact k
      · exact (k.trans ⟨_, _, _, _, rfl⟩).trans (walkFill_only _ _ _)
  · exact walkFill_only _ _ _

/-- A translation changes nothing but the TLB, whatever it answers. -/
theorem translateAt_only (k : AKind) (asid level part a : Nat) (s : State) : OnlyXlate s (translateAt k asid level part a s).2 := by
  have h := leafOf_only s asid a
  unfold translateAt
  split <;> (rename_i e; rw [e] at h; exact h)

/-- One of a job or a unit of the device asks home for the lines of its walk beside that. -/
theorem translate_only (k : AKind) (asid level part a : Nat) (s : State) : OnlyXlate s (translate k asid level part a s).2 := by
  unfold translate
  simp only
  split
  · exact OnlyXlate.ofAsked (touchLines_eq id _ _)
  · exact (translateAt_only _ _ _ _ _ _).trans (OnlyXlate.ofAsked (touchLines_eq id _ _))

/-- One of an op that goes on is the translation: the lines of its walk are at hand, none of them is uncorrectable, and nothing but the
TLB changed. -/
theorem xlateOp_ok (k : AKind) (a : Nat) (s t : State) (h : HomeOf) (e : xlateOp k a s = .ok (h, t)) :
    let r := translateAt k (cur s).asid (cur s).level (partOf s (cur s)) a s
    walkHand r.1.2 s = .ok false ∧ r.1.1 = .ok h ∧ t = r.2 ∧ OnlyXlate s t := by
  intro r
  have w := translateAt_only k (cur s).asid (cur s).level (partOf s (cur s)) a s
  unfold xlateOp at e
  cases hw : walkHand r.1.2 s with
  | error x => simp [r] at hw; simp [hw, bind, Except.bind] at e
  | ok l =>
    simp only [r] at hw
    cases l with
    | true => simp [hw, bind, Except.bind] at e
    | false =>
      cases hr : r.1.1 with
      | error f => simp only [r] at hr; simp [hw, hr, bind, Except.bind] at e
      | ok x =>
        simp only [r] at hr
        simp [hw, hr, bind, Except.bind, pure, Except.pure] at e
        obtain ⟨rfl, rfl⟩ := e
        exact ⟨rfl, rfl, rfl, w⟩

/-- A line at hand: nothing but which lines the L2 holds has changed. -/
theorem lineHand_ok (l2 : Bool) (sp : Space) (pa : Nat) (s t : State) (b : Bool) (e : lineHand l2 sp pa s = .ok (b, t)) :
    ∃ l, t = { s with l2 := l } := by
  unfold lineHand at e
  cases hw : inHand false s (askThrough l2 sp pa s) with
  | error x => simp [hw, bind, Except.bind] at e
  | ok r =>
    simp [hw, bind, Except.bind, pure, Except.pure] at e
    rw [← e.2]
    split
    · exact takeL2_eq _ _
    · exact ⟨s.l2, rfl⟩

theorem devWaits_only (s : State) : OnlyXlate s (devWaits s) := ⟨s.free, s.asked, s.dev.tlb, true, rfl⟩

theorem devSegs_only (k : AKind) (part : Nat) (segs : List (Nat × Nat)) : ∀ s, OnlyXlate s (devSegs k part segs s).2 := by
  induction segs with
  | nil => intro s; exact OnlyXlate.refl s
  | cons x r ih =>
    obtain ⟨a, n⟩ := x
    intro s
    unfold devSegs
    have h : OnlyXlate s (if part = mgmtPart then
        (if lowOf a + n ≤ (if pathOf a = 5 then 2 ^ 52 else 0x8000000000) then
          (.ok (if pathOf a = 5 then Space.host else Space.dev, lowOf a, false) : Except FaultInfo HomeOf)
         else .error ⟨.xlate, 1, BitVec.ofNat 64 a⟩, s)
      else if walkWaits k (bits (ptw s part 10) 11 0) 1 part a s then (.error (walkUe a), devWaits s)
      else translate k (bits (ptw s part 10) 11 0) 1 part a s).2 := by
      split
      · exact OnlyXlate.refl s
      · split
        · exact devWaits_only s
        · exact translate_only _ _ _ _ _ _
    simp only
    split
    · rename_i e; rw [e] at h; exact h
    · rename_i u e
      rw [e] at h
      have i := ih u
      split
      · rename_i e2; rw [e2] at i; exact h.trans i
      · rename_i e2; rw [e2] at i; exact h.trans i

theorem devRange_only (k : AKind) (part a n : Nat) (s : State) : OnlyXlate s (devRange k part a n s).2 := by
  unfold devRange
  split
  · exact devSegs_only _ _ _ _
  · exact OnlyXlate.refl s

/-- A load of the device changes nothing but the TLB and what is asked of home, and the mark of an access held back. -/
theorem devLoad_only (part a n : Nat) (s : State) : OnlyXlate s (devLoad part a n s).2 := by
  have h := devRange_only .ld part a n s
  unfold devLoad
  split
  · rename_i e; rw [e] at h
    split
    · exact h.trans (devWaits_only _)
    · exact h.trans (OnlyXlate.ofAsked (touchSegs_eq _ _))
  · rename_i e; rw [e] at h; exact h

/-- A store of the device that succeeds is a write of its bytes after a translation, of none where it is held back. -/
theorem devStore_spec (part a : Nat) (bs : List Byte) (s t : State) (h : devStore part a bs s = some t) :
    ∃ u hs, OnlyXlate s u ∧ t = putSegs u hs bs := by
  have k := devRange_only .st part a bs.length s
  unfold devStore at h
  split at h
  · rename_i hs u e
    rw [e] at k
    exact ⟨u, hs, k, by simpa using h.symm⟩
  · rename_i u e
    rw [e] at k
    split at h
    · exact ⟨u, [], k, by simpa [putSegs] using h.symm⟩
    · simp at h

theorem memWf_devStore (part a : Nat) (bs : List Byte) (s t : State) (h : devStore part a bs s = some t) (w : memWf s = true) :
    memWf t = true := by
  obtain ⟨u, hs, k, rfl⟩ := devStore_spec part a bs s t h
  exact memWf_putSegs hs u bs (k.memWf.trans w)

end Sys2Proof.Machine
end

