-- ==== Sys2Proof/Tests/Slice0.lean ====
section
/-!
SUPPORT. Tests: an ill-formed term for each static check, words of the spec's worked cases that decode to the instructions
they stand for, single steps whose results the spec works out, and for every statement with hypotheses a theorem
test_hyp_… that shows concrete states and operands meeting the hypotheses of each of its clauses.
-/

-- The tests are elaborated one after another: each holds the kernel for itself.
set_option Elab.async false

namespace Sys2Proof.Machine

/-! ## Helpers -/

/-- The placed machine: a kernel task runs in stream 0, identity pages over 1 GiB, nothing in memory but its tables. -/
def base : State := State.reset.withFetchWord 64 0

/-- The acting stream with registers set. -/
def regs (l : List (Nat × Nat)) (s : State) : State := modCur s (fun c => l.foldl (fun c x => gWrite c x.1 (w64 x.2)) c)

/-- The acting stream at the supervisor's level. -/
def sup (s : State) : State := modCur s (fun c => { c with level := 1 })

/-- The acting stream's task provisional. -/
def provi (s : State) : State := modCur s (fun c => { c with prov := true })

/-- The launch of the placed task changed. -/
def onL (f : Launch → Launch) (s : State) : State := modLaunch s 0 f

/-- The value of a computation satisfies p. -/
def okB (x : Except ε α) (p : α → Bool) : Bool := match x with | .ok a => p a | .error _ => false

/-- The computation faults. -/
def badB (x : Except (Stop State) α) : Bool := match x with | .error (.fault _) => true | .error (.stall _) => false | .ok _ => false

/-- The optional value satisfies p. -/
def someB (x : Option α) (p : α → Bool) : Bool := match x with | some a => p a | none => false

/-- The next state satisfies p. -/
def nextB (x : Host.Outcome State Fault Refusal) (p : State → Bool) : Bool :=
  match x with | .next t => p t | .fault _ => false | .refused _ => false

/-- A translation that comes to device bytes at pa, correctable over n bytes. -/
def xDev (k : AKind) (a n : Nat) (s : State) (pa : Nat) : Bool :=
  okB (xlateOp k a s) (fun r => decide (r.1.1 = .dev) && r.1.2.1 == pa && !ueIn r.2 .dev pa n)

/-- The LLC holds the lines of places. -/
def inLlc (ps : List Nat) (s : State) : State := { s with llc := s.llc ++ ps.map (fun p => (p / 128, true)) }

/-- Path 2 of a placed address, through the same page. -/
def p2 (a : Nat) : Nat := 2 ^ 61 + a

def q0 : Guard := Guard.none

/-- The word decodes at a position to an op. -/
def decB (p : Pos) (w : Word) (i : Instr) : Bool := match decodeOp p w with | .ok j => decide (j = i) | .error _ => false

/-- The word is rejected at a position. -/
def errB (p : Pos) (w : Word) (e : DecErr) : Bool := match decodeOp p w with | .ok _ => false | .error d => decide (d = e)

/-- Decidable forms of the words that the statements use, and what they say. -/
def quietB (s : State) : Bool :=
  (cur s).iflags == 0 && decide ((cur s).imxc = {}) && (cur s).iseq == 0 && (cur s).inan == 0 && (cur s).npc == none &&
  !(cur s).ending && (cur s).eretTo == none && (cur s).saveWant == none && (cur s).seqstat &&& 0xFFFF000000000007 == (cur s).seqstat

theorem quietB_spec (s : State) (h : quietB s = true) : Quiet s := by
  simp only [quietB, Bool.and_eq_true, Bool.not_eq_true', beq_iff_eq, decide_eq_true_eq] at h
  obtain ⟨⟨⟨⟨⟨⟨⟨⟨a, b⟩, c⟩, d⟩, e⟩, f⟩, l⟩, g⟩, k⟩ := h
  exact ⟨a, b, c, d, e, f, l, g, k⟩

def rowB (s : State) (k : Nat) : Bool := decide (k ≤ 1535) && tileIn (cur s) (k / 32)

theorem rowB_iff (s : State) (k : Nat) : rowB s k = true ↔ RowOk s k := by
  simp only [rowB, Bool.and_eq_true, decide_eq_true_eq]
  exact Iff.rfl

theorem rowB_spec (s : State) (k : Nat) (h : rowB s k = true) : RowOk s k := (rowB_iff s k).1 h

def pastB (o : Option Nat) (d now : Nat) : Bool := match o with | some t => decide (t + d ≤ now) | none => true

theorem pastB_spec (o : Option Nat) (d now : Nat) : pastB o d now = true ↔ past o d now := by
  cases o with
  | none => simp [pastB, past]
  | some t => simp [pastB, past]

theorem okB_spec (x : Except ε α) (p : α → Bool) (h : okB x p = true) : ∃ a, x = .ok a ∧ p a = true := by
  cases x with
  | ok a => exact ⟨a, rfl, h⟩
  | error e => simp [okB] at h

theorem badB_spec (x : Except (Stop State) α) (h : badB x = true) : ∃ f, x = .error (.fault f) := by
  cases x with
  | ok a => simp [badB] at h
  | error e => cases e with
    | fault f => exact ⟨f, rfl⟩
    | stall g => simp [badB] at h

theorem xDev_spec (k : AKind) (a n : Nat) (s : State) (pa : Nat) (h : xDev k a n s pa = true) :
    ∃ uc u, xlateOp k a s = .ok ((.dev, pa, uc), u) ∧ ueIn u .dev pa n = false := by
  obtain ⟨⟨⟨sp, p, uc⟩, u⟩, e, q⟩ := okB_spec _ _ h
  simp only [Bool.and_eq_true, Bool.not_eq_true', beq_iff_eq, decide_eq_true_eq] at q
  obtain ⟨⟨rfl, rfl⟩, q⟩ := q
  exact ⟨uc, u, e, q⟩

/-- n more requests keep the limits of R117. -/
def fitsB (s : State) (n : Nat) : Bool :=
  n == 0 || decide (outstanding s (cur s) + n ≤ 1280) && decide (groveOut s + n ≤ 1536)

theorem fitsB_spec (s : State) (n : Nat) : fitsB s n = true ↔ RequestsFit s n := by
  simp [fitsB, RequestsFit]

/-- A provisional task may make the access. -/
def mayB (s : State) (store : Bool) (a : Nat) : Bool :=
  !(cur s).prov || pathOf a != 6 && (!store || pathOf a != 2 && pathOf a != 5)

theorem mayB_spec (s : State) (store : Bool) (a : Nat) : mayB s store a = true ↔ MayAccess s store a := by
  cases store <;> simp [mayB, MayAccess]

/-! ## Static checks: one ill-formed term for each -/

theorem test_wf_guard : wellFormed (.add ⟨false, true, 0, 0⟩ 1 2 3) = false ∧ wellFormed (.add ⟨false, false, 1, 0⟩ 1 2 3) = false ∧
    wellFormed (.add ⟨false, false, 0, 1⟩ 1 2 3) = false ∧ wellFormed (.add ⟨true, true, 5, 6⟩ 1 2 3) = true := by decide
theorem test_wf_scalar : wellFormed (.cmp q0 1 2 3 0 12) = false ∧ wellFormed (.cmp q0 1 2 3 0 11) = true ∧
    wellFormed (.cmpImm q0 1 2 3 0 12) = false ∧ wellFormed (.achkImm q0 1 2 0x8000000) = false := by decide
theorem test_wf_mrf : wellFormed (.ldv q0 0x1800 2 0 false) = false ∧ wellFormed (.ldv q0 0x600 2 0 false) = false ∧
    wellFormed (.stv q0 0x1810 0 2 0 false) = false ∧ wellFormed (.ldvx q0 0x5FF 0 2 0 false) = false ∧
    wellFormed (.stvx q0 0x800 0 2 0 false) = false ∧ wellFormed (.ldvx q0 0x5FE 0 2 0 false) = true := by decide
theorem test_wf_memory : wellFormed (.fence q0 0 1 1) = false ∧ wellFormed (.fence q0 1 0 1) = false ∧
    wellFormed (.fence q0 1 1 5) = false ∧ wellFormed (.pref q0 3 2 0) = false ∧ wellFormed (.barArrive q0 ⟨0, 2, false⟩) = false ∧
    wellFormed (.barWait q0 ⟨5, 5, false⟩) = false ∧ wellFormed (.barWait q0 ⟨1, 0, true⟩) = false ∧
    wellFormed (.barr q0 1 2 ⟨0, 0, true⟩ 0 true) = false := by decide
theorem test_wf_storage : wellFormed (.wqenq q0 0x800 1 2) = false ∧ wellFormed (.talloc q0 1 2 false false 0 0) = false ∧
    wellFormed (.talloc q0 1 2 false false 0 11) = false ∧ wellFormed (.talloc q0 1 2 false false 1 8) = false ∧
    wellFormed (.tqry q0 1 2 2) = false ∧ wellFormed (.cld q0 0x800 2 0 false) = false ∧ wellFormed (.cst q0 0 2 64 false) = false ∧
    wellFormed (.htest q0 1 2 2) = false := by decide
theorem test_wf_cards : wellFormed (.xcopy q0 0 1 0 false) = false ∧ wellFormed (.xcopy q0 6 1 0 false) = false ∧
    wellFormed (.xcopy q0 8 0 1 false) = false ∧ wellFormed (.tapx q0 2) = false ∧ wellFormed (.shres q0 0) = false := by decide
theorem test_wf_supervisor : wellFormed (.tlbi q0 1 0 0) = false ∧ wellFormed (.tlbi q0 0 1 0) = false ∧
    wellFormed (.tlbi q0 1 2 1) = false ∧ wellFormed (.tlbi q0 1 2 3) = false ∧ wellFormed (.l1inv q0 1 0) = false ∧
    wellFormed (.l1inv q0 1 3) = false := by decide
theorem test_wf_matrix : wellFormed (.mldw q0 0x800 19) = false ∧ wellFormed (.mldw q0 0 25) = false ∧ wellFormed (.mldwc q0 1 25 false) = false ∧
    wellFormed (.mstrm q0 2 0x1800 3 10 true false) = false ∧ wellFormed (.mstrm q0 2 0 3 11 true false) = false ∧
    wellFormed (.mbatch q0 2 0 3 11 true false) = false ∧ wellFormed (.mdrain q0 2 0x800 3 0 21 false true false false) = false ∧
    wellFormed (.mdrain q0 2 0 3 0 25 false true false false) = false ∧ wellFormed (.mdrain q0 2 0 3 1 21 false true false false) = false ∧
    wellFormed (.mscl q0 0x800 false) = false ∧ wellFormed (.mmpw q0 0x1800 1 false) = false ∧ wellFormed (.accum 0 32 false) = false ∧
    wellFormed (.drain 5 2 17 0x40 0 false true false) = false ∧ wellFormed (.mask 3) = false := by decide
theorem test_wf_vector : wellFormed (.vadd q0 .bits 0 1 2 false) = false ∧ wellFormed (.vadd q0 .fp32 0x1800 1 2 false) = false ∧
    wellFormed (.vadd q0 .fp32 0 0x1810 2 false) = false ∧ wellFormed (.vadd q0 .fp32 0 1 0x600 false) = false ∧
    wellFormed (.vcmp q0 .fp32 0 1 8 false) = false ∧ wellFormed (.vcmp q0 .i32 0 1 6 false) = false ∧
    wellFormed (.vcvt q0 .fp32 0 1 25 0 0 false) = false ∧ wellFormed (.vcvt q0 .fp32 0 1 17 1 0 false) = false ∧
    wellFormed (.vpack q0 .i32 0 1 0 false 0 false) = false ∧ wellFormed (.vpack q0 .i8 0 1 8 false 0 false) = false ∧
    wellFormed (.vunpk q0 .i32 0 1 17 0 false) = false ∧ wellFormed (.vbcst q0 .fp32 0 1 32 false) = false ∧
    wellFormed (.vrot q0 .bits 0 1 32 false) = false ∧ wellFormed (.vred q0 .i32 0 1 4 0 false) = false ∧
    wellFormed (.vred q0 .i32 0 1 0 33 false) = false ∧ wellFormed (.vscan q0 .fp32 0 1 3 false 0 false) = false ∧
    wellFormed (.vscan q0 .fp32 0 1 0 false 33 false) = false ∧ wellFormed (.vnorm q0 .fp32 0 1 33 false) = false ∧
    wellFormed (.vlut q0 .bits 0 1 0x800 false) = false ∧ wellFormed (.vdsc q0 .fp32 0x800 1 false false false false) = false ∧
    wellFormed (.vstat q0 .bits 0x1800 ⟨false, false⟩) = false ∧ wellFormed (.vstat q0 .bits 3 ⟨true, true⟩) = true := by decide

/-! ## Decoding: words that the spec writes out (spec/09, spec/10 and the instruction files' worked cases) -/

theorem test_decode_scalar : decB .s0 0x8734000420C00000 (.add ⟨true, false, 7, 13⟩ 1 2 3) ∧
    decB .s0 0x00001B1421C31800 (.cmp q0 5 2 7 3 6) ∧ decB .s1 0x0000802400002000 (.movi q0 9 0x2000) ∧
    decB .s1 0x0000812404000001 (.movhi q0 9 0x04000001) ∧
    decB .s0 0x00005B71A0006000 (.cmpImm q0 28 26 6 0 0) := by decide +kernel
theorem test_decode_branch : decB .b 0x000009FFFFFFFE02 (.loop q0 2 0x3FFFFFFF8) ∧
    decB .b 0x0000110000000000 (.endTask q0) ∧ decB .b 0x0003F00000000007 (.eret q0 7) := by decide +kernel
theorem test_decode_memory : decB .c 0x0000130140610010 (.stvx q0 0x28 3 2 8 false) ∧
    decB .c 0x0000020000A10020 (.ldW q0 5 2 16) ∧ decB .c 0x000020009AAB0000 (.amoAdd q0 21 22 19 0) ∧
    decB .c 0x000040000000082C (.fence q0 2 1 3) ∧ decB .c 0x000050008A090000 (.cwait q0 16 18 17 0) ∧
    decB .c 0x0000600003C1E040 (.talloc q0 30 3 true true 0 8) ∧ decB .c 0x0000630000610000 (.balloc q0 3 2) ∧
    decB .c 0x00007000032C0000 (.htest q0 25 24 0) := by decide +kernel
theorem test_decode_cards : decB .c 0x0001032140001000 (.xred q0 8 20 1 false) ∧
    decB .c 0x0001102140001000 (.rtsub q0 8 20 1) ∧ decB .c 0x0001142000000000 (.shres q0 8) := by decide +kernel
theorem test_decode_supervisor : decB .c 0x0003E00000A22000 (.tlbi q0 5 4 2) ∧ decB .c 0x0003E10000022000 (.l1inv q0 4 2) ∧
    decB .c 0x0003E30000620000 (.ctxld q0 3 4) ∧ decB .c 0x0003E20000620000 (.ctxsv q0 3 4) := by decide +kernel
theorem test_decode_matrix : decB .m 0x0000070032000002 (.mscl q0 0x32 true) ∧ decB .m 0x0000000000009800 (.mldw q0 0 19) ∧
    decB .m 0x0000024028001942 (.mstrm q0 2 0x28 3 10 true false) ∧
    decB .m 0x000004403C001AA4 (.mdrain q0 2 0x3C 3 0 21 false true false false) := by decide +kernel
theorem test_decode_micro : decodeMicro 0x4040C04800000002 = some (.param 1 0 0 0x1809 0 2) ∧ decodeMicro 0x1D00000000000000 = some (.accum 5 0 false) ∧
    decodeMicro 0x1040000001000000 = some (.stream 1 32) ∧ decodeMicro 0x2580000100000112 = some (.drain 5 2 17 0x2000 0 false true false) ∧
    decodeMicro 0x3880000001000000 = some (.microStep 2 32) ∧ decodeMicro 0x3000000000002800 = some (.microLoop 0 0x14) ∧
    decodeMicro 0x6800000000000000 = some .endm := by decide +kernel
theorem test_decode_vector : decB .v0 0x0000200326023013 (.vmul q0 .fp32 0x64 0x1808 0x1809 true) ∧
    decB .v1 0x00016000A0010422 (.vcvt q0 .fp32 0x14 4 17 0 1 false) ∧
    decB .v0 0x0001D001900A0040 (.vred q0 .fp32 0x32 0x28 0 4 false) ∧
    decB .v0 0x0002800370198008 (.vdsc q0 .fp32 0x6E 0x66 false false true false) ∧
    decB .v0 0x00023105A02CC16A (.vscatx q0 .bf16 180 179 181 false) ∧
    decB .v0 0x0001AA83002D8000 (.vmov q0 .bits 0x1060 182 false) ∧
    decB .v0 0x00022A04002800C1 (.vbmt q0 .bits 128 160 96 true) ∧
    decB .v0 0x000270451024007A (.vpsum q0 .fp32 0x8A2 144 29 true false) ∧
    decB .v0 0x00029805E82DC000 (.vrng q0 .n32 189 183 false) := by decide +kernel
/-- R234's headers: A has STOP and RPT 2 with v0 and v1; B STOP, RPT 1 and the idle bit of v1; C STOP, SKE and SKI 5. -/
theorem test_decode_header : hStop 0x8230000000000000 = true ∧ hRpt 0x8230000000000000 = 2 ∧ presPos 0x8230000000000000 = [.v0, .v1] ∧
    hRpt 0x8100800000000000 = 1 ∧ presPos 0x8100800000000000 = [] ∧ hIdle 0x8100800000000000 .v1 = true ∧
    hIdle 0x8100800000000000 .v0 = false ∧ hSke 0x8000000011400000 = true ∧ hSki 0x8000000011400000 = 5 := by decide +kernel
theorem test_decode_reserved : errB .s0 0x0000620000000000 .illegalOp ∧ errB .b 0x0000110000000001 .illegalEnc ∧
    errB .s0 0x0034000420C00000 .illegalEnc ∧ decodeMicro 0x7000000000000000 = none := by decide +kernel
/-- Of the table's words no row has bits, so the host's word is a header and its op words in memory order. -/
theorem test_table_word : decodeTableWord 128 (0x0000000420C00000 * 2 ^ 64 + 0x8080000000000000) = some (.add q0 1 2 3) := by
  decide +kernel

/-! ## Single steps whose results the spec works out -/

/-- R257's wrap, and the guard of R63: G7 bit 13 clear, so nothing happens. -/
theorem test_add_wraps : nextB (exec (.add q0 1 2 3) (regs [(2, 5), (3, 2 ^ 64 - 1)] base)) (fun t => gRead (cur t) 1 == 4) ∧
    nextB (exec (.add ⟨true, false, 7, 13⟩ 1 2 3) (regs [(1, 9), (2, 5), (3, 1)] base)) (fun t => gRead (cur t) 1 == 9) := by
  decide +kernel
/-- R261: the unsigned and the signed order of 2^64 − 1 and 1. -/
theorem test_cmp_orders : nextB (exec (.cmp q0 5 2 7 0 6) (regs [(2, 2 ^ 64 - 1), (7, 1)] base)) (fun t => gRead (cur t) 5 == 0) ∧
    nextB (exec (.cmp q0 5 2 7 0 2) (regs [(2, 2 ^ 64 - 1), (7, 1)] base)) (fun t => gRead (cur t) 5 == 1) := by decide +kernel
/-- R268: MOVI and MOVHI build a 64-bit constant. -/
theorem test_movhi_builds : nextB (exec (.movhi q0 9 0x04000001) (regs [(9, 0x2000)] base))
    (fun t => gRead (cur t) 9 == 0x1000000400002000) := by decide +kernel
/-- R258: no division faults. -/
theorem test_div_corners : nextB (exec (.div q0 1 2 3) (regs [(2, 2 ^ 63), (3, 2 ^ 64 - 1)] base)) (fun t => gRead (cur t) 1 == 0x8000000000000000) ∧
    nextB (exec (.rem q0 1 2 3) (regs [(2, 2 ^ 64 - 7), (3, 0)] base)) (fun t => gRead (cur t) 1 == w64 (2 ^ 64 - 7)) := by decide +kernel
/-- A store on path 2 is in memory at once, lowest byte first, and the load of it lands as it was once its request is served. -/
theorem test_store_load : nextB (exec (.stW q0 4 2 0) (regs [(2, p2 0x20000), (4, 0x89ABCDEF)] base))
    (fun t => homeBytes t .dev 0x20000 5 == [0xEF, 0xCD, 0xAB, 0x89, 0] &&
      nextB (exec (.ldW q0 5 2 0) t) (fun u => nextB (exec (.loadComplete false) { u with asked := [] })
        (fun v => gRead (cur v) 5 == 0xFFFFFFFF89ABCDEF))) := by decide +kernel
/-- R293: once its request is served AMO.ADD answers the old value and stores the sum. -/
theorem test_amo_add : nextB (exec (.amoAdd q0 5 2 3 0) (inLlc [0x20000] (regs [(2, p2 0x20000), (3, 2 ^ 64 - 1)] (putWord base .dev 0x20000 7))))
    (fun t => homeWord t .dev 0x20000 == 6 && nextB (exec (.loadComplete false) { t with asked := [] }) (fun v => gRead (cur v) 5 == 7)) := by decide +kernel
/-- R267: an access that passes the last byte of a device window's 2 KiB, and one that does not. -/
theorem test_achk : nextB (exec (.achkImm q0 1 2 8) (regs [(2, 7 * 2 ^ 60)] base)) (fun t => gRead (cur t) 1 == 1) ∧
    nextB (exec (.achkImm q0 1 2 8) (regs [(2, 2 ^ 57)] base)) (fun t => gRead (cur t) 1 == 2) := by decide +kernel
/-- R326: FP32 1.0 + 2.0 in every lane of a row. -/
theorem test_vadd_fp32 : nextB (exec (.vadd q0 .fp32 2 0 1 false) (setRow (setRow base 0 (List.replicate 32 0x3F800000)) 1 (List.replicate 32 0x40000000)))
    (fun t => mrfRow t 2 == List.replicate 32 0x40400000) := by decide +kernel
/-- R333: a PART that names no part of the conversion takes ILLEGAL_ENC in its position. -/
theorem test_vpack_part : wellFormed (.vpack q0 .i8 0 1 7 false 1 false) = true ∧
    nextB (exec (.vpack q0 .i8 0 1 7 false 1 false) base) (fun t => (cur t).status == .faulted && bits (cur t).fstat.toNat 23 16 == fcode .illegalEnc) ∧
    nextB (exec (.vunpk q0 .i32 0 1 8 4 false) base) (fun t => (cur t).status == .faulted && bits (cur t).fstat.toNat 23 16 == fcode .illegalEnc) := by
  decide +kernel
/-- A header and an ADD at the place of the next fetch: the step issues them and goes on behind them. -/
theorem test_step_runs_placed : nextB (step (State.reset.withFetchWord 128 (0x0000000420C00000 * 2 ^ 64 + 0x8080000000000000)))
    (fun t => (cur t).pc == 0x10010 && t.turn == 2) := by decide +kernel
/-- R233 and R445: a reserved scalar code takes ILLEGAL_OP in s0; the pc stays, and the save is asked for. -/
theorem test_step_faults : nextB (step (State.reset.withFetchWord 128 (0x0000620000000000 * 2 ^ 64 + 0x8080000000000000)))
    (fun t => (cur t).status == .faulted && (cur t).pc == 0x10000 && bits (cur t).fstat.toNat 6 0 == 1) := by decide +kernel
/-- R280: END frees the stream. -/
theorem test_end_frees : nextB (exec (.endTask q0) base) (fun t => !hasTask (cur t)) := by decide +kernel

/-! ## Every statement's hypotheses are met: one theorem for each statement, one conjunct for each clause -/

theorem quiet_base : Quiet base := quietB_spec base (by decide +kernel)

/-- The result of an op's effect at a position: 1 done, 2 fault, 3 wait, 0 no op. -/
def opEnd (p : Pos) (i : Instr) (s : State) : Nat :=
  match opOf i with
  | some (_, op) => (match op (ctxAt p s) s with | .ok _ => 1 | .error (.fault _) => 2 | .error (.stall _) => 3)
  | none => 0

/-- What the fetch of the acting stream comes to: 1 a bundle, 2 a fault, 3 a wait for its bytes. -/
def fetchEnd (s : State) : Nat := match fetchBundle s with | .ok _ => 1 | .error (.fault _) => 2 | .error (.stall _) => 3

/-- A state whose secondary stream 1 has the placed task too. -/
def twoStreams : State := { base with st1 := { base.st0 with task := 9 } }

theorem test_hyp_StepRunsTheFetchedBundle : base.dev.bootFail = false ∧ ({ base with agenda := [.planeReady] } : State).agenda = [.planeReady] ∧
    base.agenda = [] ∧ (dueEvent State.reset).isSome = true ∧ (dueEvent base).isNone = true ∧ base.turn = 0 ∧ base.gv.primary = false ∧
    (forcedTurn base).isNone = true ∧ canIssue (withSel false base) = true ∧ canIssue (withSel true base) = false ∧ fetchEnd base = 1 ∧ fetchEnd { base with llc := [] } = 3 ∧
    fetchEnd (modCur base (fun c => { c with pc := 0x7000000000000000 })) = 2 ∧ (dueEvent (modGv base (fun g => { g with primary := true }))).isNone = true ∧
    canIssue (withSel true twoStreams) = true ∧ base.late = none ∧ State.reset.late = none ∧
    ({ base with late := some {} } : State).late ≠ none ∧ 3 ≤ ({ base with turn := 3 } : State).turn ∧
    (let s : State := { twoStreams with turn := 1 }; canIssue (withSel false s) = true ∧ s.agenda = [] ∧ (dueEvent s).isNone = true ∧ fetchEnd s = 1) ∧
    (let s : State := { twoStreams with st1 := { twoStreams.st1 with denied := 63 } }; (forcedTurn s).isSome = true ∧ s.turn = 0) ∧
    base.now < (modGv base (fun g => { g with stallTo := 5 })).gv.stallTo ∧
    heldBack base (exec .planeReady base) = false ∧ heldBack base (.next (devWaits base)) = true := by decide +kernel

/-- The op, its word and its header at a position come to an end of the given kind, with no case of the header. -/
def aloneB (p : Pos) (w h : Word) (i : Instr) (s : State) (k : Nat) : Bool :=
  presPos h == [p] && decB p w i && (match opOf i with | some (q, _) => guardOn (cur s) q | none => false) && hRpt h == 0 && !hSke h &&
  (cur s).ridx == 0 && (bundleFault (cur s) h [w] [⟨p, w, 0, true⟩]).isNone && !(cur s).v0.live && !(cur s).v1.live && !(cur s).m.live &&
  !(cur s).c.live && (cur s).pend == [] && (cur s).grpW == [] && (cur s).grpR == [] && (cur s).lostG == [] && (cur s).lostR == [] &&
  capReady s && opEnd p i (modCur s (fun c => wake { c with blen := hLen h })) == k

theorem test_hyp_BundlesIssueTheirOps : aloneB .s0 0x0000000420C00000 0x8080000000000000 (.add q0 1 2 3) base 1 = true ∧
    aloneB .c 0x000050008A090000 0x8004000000000000 (.cwait q0 16 18 17 0) (regs [(17, 5), (18, p2 0x20000)] base) 3 = true ∧
    aloneB .c 0x000050008A090000 0x8004000000000000 (.cwait q0 16 18 17 0) (regs [(18, p2 0x20001)] base) 2 = true ∧
    aloneB .m 0x0000070032000002 0x8008000000000000 (.mscl q0 0x32 true) base 2 = true ∧
    guardOn (cur base) ⟨true, false, 7, 13⟩ = false := by decide +kernel

theorem test_hyp_EveryStepContinues : ¬ (base.agenda = [] ∧ base.dev.bootFail = true) ∧
    (let s : State := { State.reset with dev := { State.reset.dev with bootFail := true } }; s.agenda = [] ∧ s.dev.bootFail = true) := by
  decide +kernel
theorem test_hyp_EveryStepKeepsTheMemoriesCanonical : memWf base = true ∧ nextB (step base) (fun _ => true) = true ∧
    nextB (step { base with agenda := [.stB q0 4 2 0] }) (fun t => memWf t) = true := by decide +kernel
theorem test_hyp_ScalarOpsWriteTheirResult : (∃ v, aluSpec (gOf base) (.add q0 1 2 3) = some (q0, 1, v)) ∧
    (∃ v, aluSpec (gOf base) (.movhi q0 0 0) = some (q0, 0, v)) ∧ guardOn (cur base) q0 = true ∧ Quiet base :=
  ⟨⟨_, rfl⟩, ⟨_, rfl⟩, by decide +kernel, quiet_base⟩
theorem test_hyp_DivisionTruncatesAndNeverFaults : guardOn (cur base) q0 = true ∧
    (let s := regs [(2, 2 ^ 64 - 7), (3, 2)] base
     (wrap64 ((gOf s 2).toInt - (gOf s 3).toInt * (gOf s 2).toInt.tdiv (gOf s 3).toInt)).toInt ≠ 0) := by decide +kernel
theorem test_hyp_AddressArithmeticStaysInThePath : guardOn (cur base) q0 = true ∧
    ((0x0000620000000000 : Word) >>> 40).setWidth 10 = (0x062 : BitVec 10) ∧
    (let s := regs [(2, p2 5), (3, 9)] base; gOf s 2 >>> 57 ≠ gOf s 3 >>> 57) ∧
    (let s := regs [(2, p2 5), (3, p2 9)] base; gOf s 2 >>> 57 = gOf s 3 >>> 57) ∧
    (let s := regs [(2, p2 5), (3, 2 ^ 64 - 6)] base; ((gOf s 2).toNat % 2 ^ 57 : Nat) + (gOf s 3).toInt < 0) ∧
    (let s := regs [(2, p2 5), (3, 2 ^ 57 - 5)] base; (2 : Int) ^ 57 ≤ ((gOf s 2).toNat % 2 ^ 57 : Nat) + (gOf s 3).toInt) ∧
    (let s := regs [(2, p2 5), (3, 2 ^ 57 - 6)] base; 0 ≤ ((gOf s 2).toNat % 2 ^ 57 : Nat) + (gOf s 3).toInt ∧
      ((gOf s 2).toNat % 2 ^ 57 : Nat) + (gOf s 3).toInt < 2 ^ 57) := by decide +kernel
theorem test_hyp_ControlRegisterMoves : ¬ ctlExists 7 ∧ ¬ ctlExists 0xFFF ∧ ctlExists 0x801 ∧ ctlExists 0x820 ∧ ctlExists 0x67 ∧ ctlReadOnly 2 ∧
    ¬ ctlReadOnly 0x18 ∧ ¬ ctlSupervisor 0x18 ∧ ctlSupervisor 5 ∧ ctlStored 0x18 7 = some 7 ∧ (cur base).level = 0 ∧ (cur (sup base)).level ≠ 0 ∧
    guardOn (cur (sup base)) q0 = true ∧ Quiet base ∧ Quiet (sup base) := by
  refine ⟨?_, ?_, ?_, ?_, ?_, ?_, ?_, ?_, ?_, ?_, ?_, ?_, ?_, quiet_base, quietB_spec _ (by decide +kernel)⟩
  all_goals first
    | (simp only [ctlExists, ctlReadOnly, ctlSupervisor]; decide)
    | decide +kernel
theorem test_hyp_PortWalksStartAgain : guardOn (cur base) q0 = true ∧ Quiet base ∧ 7 < 8 ∧ 15 < 16 := ⟨by decide +kernel, quiet_base, by decide, by decide⟩
theorem test_hyp_TransfersReachTheirTarget : guardOn (cur base) q0 = true ∧ Quiet base ∧ gOf base 5 ≠ taskEnd :=
  ⟨by decide +kernel, quiet_base, by decide +kernel⟩
theorem test_hyp_LoopsAndSkipPredicates : guardOn (cur base) q0 = true ∧ Quiet base ∧
    ctlRead base base.sel (0x10 + (3 : BitVec 3).toNat) = some 0 ∧
    (let s := modCur base (fun c => { c with lc := [(3, 2)] }); ctlRead s s.sel (0x10 + (3 : BitVec 3).toNat) = some 2 ∧ quietB s = true) :=
  ⟨by decide +kernel, quiet_base, by decide +kernel, by decide +kernel, by decide +kernel⟩
/-- An access waits in the bank of 0x20000. -/
def heldBank : State :=
  let (st, pc, bank, _) := hbmPlace 0x20000
  { base with dev := { base.dev with hbm := [(128 * st + pc, { wait := [{ bank := bank }] })] } }
/-- The line of 0x20000 is uncorrectable. -/
def lostLine : State := { base with ue := [0x20000 / 128] }
/-- The placed task with as many results on their way as it may have. -/
def busy : State := modCur base (fun c => { c with pend := [{ asks := List.range 1280 }] })
/-- The request for path 2's 0x20000 has been served, and has found nothing. -/
def handLost : State := modCur base (fun c => { c with hand := [{ line := 0x20000 / 128, n := 1, lost := true }] })
/-- What a word at path 2's 0x20000 comes to: not at hand, its request found nothing, lost, its request fits, or it does not. -/
def placeKind (k : AKind) (n : Nat) (s : State) : Nat :=
  match xlateOp k (p2 0x20000) s with
  | .ok ((sp, pa, _), u) =>
    if sp ≠ .dev ∨ pa ≠ 0x20000 then 6
    else match inHand false u (askHome .dev pa (dropLine (pa / 128) u)) with
      | .error _ => 1
      | .ok (lost, v) =>
        if lost then 2 else if lineUe u .dev pa n then 3 else match keepAsks s v with | .ok _ => 4 | .error _ => 5
  | .error _ => 0
/-- What is not at hand, lost lines and the limits of R117 meet the ops that take a word at home: LCLD, IDLE and CWAIT by a load,
AMO and CADD by an atomic. -/
theorem test_hyp_HeldBanksAndLostLines : placeKind .ld 64 base = 1 ∧ placeKind .ld 64 handLost = 2 ∧ placeKind .ld 64 (inLlc [0x20000] lostLine) = 3 ∧
    placeKind .ld 64 (inLlc [0x20000] base) = 4 ∧ placeKind .ld 64 (inLlc [0x20000] busy) = 5 ∧
    placeKind .ld 8 base = 1 ∧ placeKind .ld 8 handLost = 2 ∧ placeKind .ld 8 (inLlc [0x20000] lostLine) = 3 ∧ placeKind .ld 8 (inLlc [0x20000] base) = 4 ∧
    placeKind .ld 8 (inLlc [0x20000] busy) = 5 ∧ placeKind .amo 8 base = 1 ∧ placeKind .amo 8 handLost = 2 ∧ placeKind .amo 8 (inLlc [0x20000] lostLine) = 3 ∧
    placeKind .amo 8 (inLlc [0x20000] base) = 4 ∧ placeKind .amo 8 (inLlc [0x20000] busy) = 5 ∧
    placeKind .ld 8 (sup base) = 1 ∧ placeKind .ld 8 (sup handLost) = 2 ∧ placeKind .ld 8 (sup (inLlc [0x20000] lostLine)) = 3 ∧
    placeKind .ld 8 (sup (inLlc [0x20000] base)) = 4 ∧ placeKind .ld 8 (sup (inLlc [0x20000] busy)) = 5 ∧
    (let s := sup (inLlc [0x20000] base); quietB s = true) ∧ quietB (inLlc [0x20000] base) = true ∧
    lineUe lostLine .dev 0x20000 8 = true ∧ lineUe base .dev 0x20000 8 = false ∧ quietB (sup base) = true ∧ quietB busy = true := by decide +kernel
theorem test_hyp_ControlBlockLoad : guardOn (cur base) q0 = true ∧
    (gOf (regs [(2, 1)] base) 2 + ((1 : BitVec 34).signExtend 64 <<< 6)).toNat % 64 ≠ 0 ∧
    (gOf (regs [(2, 5 * 2 ^ 60)] base) 2).toNat % 64 = 0 ∧ okB (addrCheck .ld (5 * 2 ^ 60) 64) (fun _ => true) = true ∧
    pathOf (5 * 2 ^ 60) ≠ 0 ∧ pathOf (5 * 2 ^ 60) ≠ 2 ∧
    okB (addrCheck .ld (p2 0x20000) 64) (fun _ => true) = true ∧ okB (addrCheck .ld 0x20000 64) (fun _ => true) = true ∧
    pathOf (p2 0x20000) = 2 ∧ pathOf 0x20000 = 0 ∧
    xDev .ld (p2 0x20000) 64 base 0x20000 = true ∧ xDev .ld 0x20000 64 base 0x20000 = true ∧ quietB base = true ∧
    (gOf (regs [(2, 7 * 2 ^ 60)] base) 2).toNat % 64 = 0 ∧ okB (addrCheck .ld (7 * 2 ^ 60) 64) (fun _ => true) = false ∧
    pathOf (6 * 2 ^ 60 + 0x4000) = 6 ∧ okB (addrCheck .ld (6 * 2 ^ 60 + 0x4000) 64) (fun _ => true) = true ∧
    okB (addrCheck .ld (p2 (2 ^ 40)) 64) (fun _ => true) = true ∧ okB (xlateOp .ld (p2 (2 ^ 40)) base) (fun _ => true) = false ∧
    (let s := putWord base .dev 0x3000 0xBF; pathOf (5 * 2 ^ 60) ≠ 6 ∧ (xlateOp .ld (5 * 2 ^ 60) s).isOk = true) := by decide +kernel
/-- One buffered byte at 0x20001. -/
def oneByte : BufByte := { va := 0x20001, pa := 0x20001, byte := 7 }
/-- The byte is held back by a job that uses it. -/
def heldStore : State := modGv base (fun g => { g with wbuf := [oneByte], jobs := [{ foot := [{ lo := 0x20000, len := 256 }] }] })
/-- CONT's operands at the placed code: the target is the base itself, and one bundle below it. -/
theorem test_hyp_TaskEndFreesTheStream : guardOn (cur base) q0 = true ∧ (cur base).pend = [] ∧ (∀ m ∈ base.gv.clds, m.task ≠ (cur base).task) ∧
    ((cur (modCur base (fun c => { c with pend := [{}] }))).pend ≠ []) ∧ gOf (regs [(5, taskEnd.toNat)] base) 5 = taskEnd ∧
    (let base0 := opWord (launchOf base (cur base).launch) 2
     base0 ≤ ((cur base).pc + ((0 : BitVec 34).signExtend 64 <<< 3)).toNat ∧ ¬ base0 ≤ ((cur base).pc + ((-1 : BitVec 34).signExtend 64 <<< 3)).toNat) ∧
    queueFull (queueOf base (cur base).queue) = false ∧
    queueFull (queueOf (modQueue base 0 (fun k => { k with logcap := 0, entries := [{}] })) (cur base).queue) = true ∧
    (cur base).micro.running = false ∧ (let s := modCur base (fun c => { c with micro := { c.micro with running := true } })
     (cur s).micro.running = true ∧ quietB s = true) ∧ gNat base 0 / 2 ^ 48 = 0 ∧
    okB (release base) (fun _ => true) = true ∧ (release heldStore).isOk = false ∧ quietB heldStore = true ∧ quietB base = true ∧
    (cur (provi base)).prov = true ∧ quietB (provi base) = true := by decide +kernel
theorem test_hyp_TrapsAndBreaksAskForTheSave : guardOn (cur base) q0 = true ∧ quietB base = true ∧ (cur base).prov = false ∧
    (cur base).status = .running ∧ (cur (provi base)).prov = true ∧ quietB (provi base) = true ∧ (ctlRead base base.sel 0x801).isSome = true ∧
    (match ctlRead base base.sel 0x801 with | some w => w.getLsbD 1 | none => true) = false ∧
    (let s : State := { base with dev := { base.dev with sysctl := [(0, 2)] } }
     (match ctlRead s s.sel 0x801 with | some w => w.getLsbD 1 | none => false) = true) := by decide +kernel
theorem test_hyp_IdleWaitsAndWakes : guardOn (cur base) q0 = true ∧ (cur base).level = 0 ∧
    (let s := sup (regs [(2, 0x20000), (3, p2 0x20000)] base)
     (cur s).level ≠ 0 ∧ gNat s 2 % 8 = 0 ∧ okB (addrCheck .ld (gNat s 2) 8) (fun _ => true) = true ∧ pathOf (gNat s 2) = 0 ∧ pathOf (gNat s 3) = 2 ∧
     xDev .ld (gNat s 2) 8 s 0x20000 = true ∧ xDev .ld (gNat s 3) 8 s 0x20000 = true ∧ quietB s = true) ∧
    (let s := modCur base (fun c => { c with idleSeen := some (0x20000, 1), status := .stalled })
     (strm s false).idleSeen = some (0x20000, 1) ∧ homeWord s .dev 0x20000 ≠ 1) ∧
    (let s := modCur base (fun c => { c with idleSeen := some (0x20000, 0), status := .stalled, used := 65535 })
     homeWord s .dev 0x20000 = 0 ∧ (strm s false).allow ≤ (strm s false).used) ∧
    (let s := modCur base (fun c => { c with idleSeen := some (0x20000, 0), status := .stalled })
     homeWord s .dev 0x20000 = 0 ∧ (strm s false).used < (strm s false).allow) := by decide +kernel

/-- The placed machine whose page is at the host. -/
def hostBase : State := putWord base .dev 0x3000 0xBF

/-- A translation that comes to host bytes at pa, correctable over n bytes. -/
def xHost (k : AKind) (a n : Nat) (s : State) (pa : Nat) : Bool :=
  okB (xlateOp k a s) (fun r => decide (r.1.1 = .host) && r.1.2.1 == pa && !ueIn r.2 .host pa n)

/-- Path 5 of a placed address. -/
def p5 (a : Nat) : Nat := 5 * 2 ^ 60 + a

/-- A computation that succeeds. -/
def okE (x : Except ε α) : Bool := okB x (fun _ => true)

theorem test_hyp_RequestLimits : fitsB base 1 = true ∧ fitsB busy 1 = false ∧ fitsB busy 0 = true ∧ mayB base true (6 * 2 ^ 60) = true ∧
    mayB (provi base) false (6 * 2 ^ 60) = false ∧ mayB (provi base) false (p2 0x20000) = true ∧ mayB (provi base) true (p2 0x20000) = false ∧
    mayB (provi base) true 0x20000 = true := by decide +kernel
theorem test_hyp_LoadsCommitThenLand : loadSpec (.ldNH q0 5 2 8191) = some (q0, 2, false, 5, 2, 8191) ∧
    (guardOn (cur base) q0 = true ∧
    badB (effAddr (gOf (regs [(2, p2 (2 ^ 57 - 8191))] base) 2) (8191 : BitVec 14).toInt) = true ∧
    okE (effAddr (gOf (regs [(2, p2 (2 ^ 57 - 8193))] base) 2) (8191 : BitVec 14).toInt) = true ∧
    badB (loadBytes (7 * 2 ^ 60) 2 base) = true ∧ okB (loadBytes (p2 0x2007F) 2 base) (fun r => fitsB r.2.2 (r.2.2.reqs - base.reqs)) = true ∧
    okB (loadBytes (p2 0x2007F) 2 busy) (fun r => !fitsB r.2.2 (r.2.2.reqs - busy.reqs)) = true ∧ quietB base = true ∧
    (let s := regs [(2, p2 0x20000), (6, 5)] (setRow base 0 (List.replicate 32 4))
     rowB s (mrfIdx 31) = true ∧ okB (effAddr (gOf s 2) (0 : BitVec 14).toInt) (fun ea => ea % 4 == 0 && okE (loadBytes ea 128 s)) = true ∧
     rowB s (mrfIdx 30) = true ∧ rowB s (mrfIdx 30 + 1) = true ∧
     okE (gatherLanes (ctxAt .c s) 2 0 (mrfIdx 30) (laneMask (ctxAt .c s) 6) s) = true ∧
     okE (gatherLanes (ctxAt .c s) 2 0 (mrfIdx 30) (laneMask (ctxAt .c s) 0) s) = true) ∧
    (let s := modCur base (fun c => { c with pend := [{ gdst := [(5, 7)], mdst := [(3, 9)] }] })
     (strm s false).pend.find? (landReady s) = some { gdst := [(5, 7)], mdst := [(3, 9)] } ∧ ({ gdst := [(5, 7)], mdst := [(3, 9)] } : Pending).ue = false)) :=
  ⟨rfl, by decide +kernel⟩
/-- The vector loads and stores: a row outside the window, an address that is not a multiple of 4, an access that a provisional task may
not make, and accesses and a row read that fail. -/
theorem test_hyp_VectorTransfers : rowB base 1535 = false ∧ 8190 % 4 ≠ 0 ∧ mayB base false (p2 0x20002) = true ∧ mayB base true (p2 0x20002) = true ∧
    mayB (provi base) false (6 * 2 ^ 60) = false ∧ okE (loadBytes (7 * 2 ^ 60) 128 base) = false ∧ mayB base false (7 * 2 ^ 60) = true ∧
    badB (effAddr (gOf (regs [(2, p2 (2 ^ 57 - 8191))] base) 2) (8191 : BitVec 14).toInt) = true ∧
    (let s := regs [(2, 7 * 2 ^ 60), (6, 5)] base
     okE (gatherLanes (ctxAt .c s) 2 0 (mrfIdx 30) (laneMask (ctxAt .c s) 6) s) = false ∧ rowB s (mrfIdx 30) = true ∧ rowB s (mrfIdx 30 + 1) = true ∧
     okE (storeLanes (laneAddr (7 * 2 ^ 60)) [(0, 5)] s) = false ∧
     okE (storeLanes (elemAddr (ctxAt .c s) .st 2 0 (mrfIdx 30)) ((laneMask (ctxAt .c s) 6).map (fun k => (k, mrfLane s (mrfIdx 30 + 1) k))) s) = false) ∧
    badB (readOpnd (ctxAt .c base) 1535 false base) = true ∧ okE (storeBytes (7 * 2 ^ 60) (laneBytes (List.replicate 32 0)) base) = false := by decide +kernel
theorem test_hyp_HomeLoadsReadHome : okE (addrCheck .ld (p2 0x2007C) 4) = true ∧ 0 < 4 ∧ p2 0x2007C % 128 + 4 ≤ 128 ∧ pathOf (p2 0x2007C) = 2 ∧
    xDev .ld (p2 0x2007C) 4 base 0x2007C = true ∧ okE (addrCheck .ld (p5 0x2007C) 4) = true ∧ pathOf (p5 0x2007C) = 5 ∧
    xHost .ld (p5 0x2007C) 4 hostBase 0x2007C = true ∧
    (let s := modGv base (fun g => { g with wbuf := [oneByte] })
     pathOf 0x20000 = 0 ∧ (∀ l ∈ s.gv.l1, l.data.length = 128) ∧ okE (loadBytes 0x20000 4 s) = true ∧ s.gv.wbuf = [] ++ oneByte :: [] ∧
     oneByte.asid = (cur s).asid ∧ oneByte.va = lowOf 0x20000 + 1 ∧ oneByte.prov = false ∧
     oneByte.task = (cur s).task) := by decide +kernel
theorem test_hyp_StoresTouchOnlyTheirBytes : storeSpec (.stW q0 4 2 (-8192)) = some (q0, 4, 4, 2, -8192) ∧ guardOn (cur base) q0 = true ∧
    badB (effAddr (gOf (regs [(2, p2 8191)] base) 2) (-8192 : BitVec 14).toInt) = true ∧
    okE (effAddr (gOf (regs [(2, p2 8192)] base) 2) (-8192 : BitVec 14).toInt) = true ∧
    badB (storeBytes (2 ^ 60) (natLe 4 1) base) = true ∧ okE (storeBytes (p2 0x2007F) (natLe 4 1) base) = true ∧ quietB base = true ∧
    okE (addrCheck .st (p2 0x2007C) 4) = true ∧ p2 0x2007C % 128 + 4 ≤ 128 ∧ xDev .st (p2 0x2007C) 4 base 0x2007C = true ∧ (cur base).prov = false ∧
    okE (addrCheck .st (p5 0x2007C) 4) = true ∧ xHost .st (p5 0x2007C) 4 hostBase 0x2007C = true ∧ pathOf (p5 0x2007C) = 5 ∧
    okB (xlateOp .st (p2 0x2007C) base) (fun r => let v := askOther (putBytes r.2 r.1.1 r.1.2.1 (natLe 4 1)); fitsB v (v.reqs - base.reqs)) = true ∧
    okB (xlateOp .st (p2 0x2007C) busy) (fun r => let v := askOther (putBytes r.2 r.1.1 r.1.2.1 (natLe 4 1)); !fitsB v (v.reqs - busy.reqs)) = true ∧
    mayB (provi base) true (p2 0x2007C) = false ∧ okE (addrCheck .st 0x2007C 4) = true ∧ xDev .st 0x2007C 4 base 0x2007C = true ∧ pathOf 0x2007C = 0 ∧
    (let s := regs [(2, p2 0x20000), (6, 5)] base
     okB (effAddr (gOf s 2) (0 : BitVec 14).toInt) (fun ea => ea % 4 == 0 && okB (readOpnd (ctxAt .c s) 0 false s) (fun r =>
       okE (storeBytes ea (laneBytes r.1) r.2) && mayB s true ea &&
         okE (storeLanes (laneAddr ea) ((laneMask (ctxAt .c s) 6).map (fun k => (k, r.1.getD k 0))) r.2))) = true ∧
     (laneMask (ctxAt .c s) 0).length = 32 ∧ (laneMask (ctxAt .c s) 6).length ≠ 32 ∧ rowB s (mrfIdx 30) = true ∧ rowB s (mrfIdx 30 + 1) = true ∧
     okE (storeLanes (elemAddr (ctxAt .c s) .st 2 0 (mrfIdx 30)) ((laneMask (ctxAt .c s) 6).map (fun k => (k, mrfLane s (mrfIdx 30 + 1) k))) s) = true) := by decide +kernel
theorem test_hyp_AtomicsReadModifyWrite :
    (∃ f, amoSpec (.amoAdd q0 5 2 3 0) = some (q0, 8, true, false, 5, 2, 3, 0, f)) ∧
    (∃ f, amoSpec (.amoAnd q0 5 2 3 0) = some (q0, 8, false, false, 5, 2, 3, 0, f)) ∧ guardOn (cur base) q0 = true ∧
    okB (effAddr (gOf (regs [(2, p2 0x20004)] base) 2) (0 : BitVec 14).toInt) (fun ea => ea % 8 != 0) = true ∧
    okE (atomicAt 8 true (p2 0x20000) (fun o => some (o + 1)) (inLlc [0x20000] base)) = true ∧
    p2 0x20000 % 8 = 0 ∧ okE (addrCheck .amo (p2 0x20000) 8) = true ∧ xDev .amo (p2 0x20000) 8 base 0x20000 = true ∧
    okE (addrCheck .amo (p5 0x20000) 8) = true ∧ pathOf (p5 0x20000) = 5 ∧ xHost .amo (p5 0x20000) 8 hostBase 0x20000 = true ∧
    (cur base).prov = false ∧ (cur (provi base)).prov = true ∧ fitsB base 1 = true ∧ quietB base = true ∧
    (let s := modGv base (fun g => { g with wbuf := [oneByte] })
     (∀ e ∈ s.gv.wbuf, e.pub = false ∧ (Space.dev = .host ∨ e.pa / 128 ≠ 0x30000 / 128)) ∧ xDev .amo (p2 0x30000) 8 s 0x30000 = true ∧
     quietB s = true) ∧
    okE (addrCheck .amo (7 * 2 ^ 60) 8) = false ∧ 7 * 2 ^ 60 % 8 = 0 ∧ okE (addrCheck .amo (6 * 2 ^ 60 + 0x4000) 8) = true ∧ pathOf (6 * 2 ^ 60 + 0x4000) = 6 ∧
    okE (addrCheck .amo (p2 (2 ^ 40)) 8) = true ∧ okE (xlateOp .amo (p2 (2 ^ 40)) base) = false ∧
    (let mine (e : BufByte) : Bool := !e.prov && e.pa / 128 == 0x20000 / 128
     published mine (publish mine heldStore) = false ∧ xDev .amo (p2 0x20000) 8 heldStore 0x20000 = true ∧
     published mine (publish mine base) = true) ∧
    placeKind .amo 8 base = 1 ∧ placeKind .amo 8 handLost = 2 ∧ placeKind .amo 8 (inLlc [0x20000] lostLine) = 3 ∧
    (let s := inLlc [0x20000] base
     okE (inHand false s (askHome .dev 0x20000 (dropLine (0x20000 / 128) s))) = true ∧ lineUe s .dev 0x20000 8 = false ∧ quietB s = true ∧
     xDev .amo 0x20000 8 s 0x20000 = true ∧ pathOf 0x20000 = 0) :=
  ⟨⟨_, rfl⟩, ⟨_, rfl⟩, by decide +kernel⟩
/-- What a FENCE of all that is before it waits for. -/
def fenceWaits : State := modGv (modCur base (fun c => { c with pend := [{ asks := [1] }] })) (fun g => { g with jobs := [{ op := 0x106 }] })
theorem test_hyp_FencesAndPrefetches : guardOn (cur base) q0 = true ∧ ((2 : BitVec 5).getLsbD 1 && decide ((3 : BitVec 3) ≠ 0)) = true ∧
    (release heldStore).isOk = false ∧ okB (release fenceWaits) (fun u => !(cur u).pend.all (fun p => p.asks == [])) = true ∧
    okB (release fenceWaits) (fun u => !u.gv.jobs.all (fun j => j.strm != u.sel)) = true ∧ okB (release base) (fun u => (cur u).pend == [] &&
      u.gv.jobs == [] && canopyDone u (cur u)) = true ∧
    (cur (provi base)).prov = true ∧ (cur base).prov = false ∧ okB (release base) (fun u => fenceClear u 2 3) = true ∧
    ((1 : BitVec 5).getLsbD 1 && decide ((3 : BitVec 3) ≠ 0)) = false ∧ fenceClear base 1 3 = true ∧
    (let s := modGv base (fun g => { g with jobs := [{ seq := 1 }] }); fenceClear s 8 3 = false ∧ ((8 : BitVec 5).getLsbD 1) = false) ∧
    (let s := modGv base (fun g => { g with shres := [{}] }); fenceClear s 4 3 = false ∧ ((4 : BitVec 5).getLsbD 1) = false ∧ (release s).isOk = false ∧
     s.gv.shres.all (fun w => w.strm != s.sel) = false) ∧
    quietB base = true := by decide +kernel
/-- The placed launch with barriers: shape key 0 open in generation 1, and with explicit phases. -/
def barOpen : State := onL (fun l => { l with bars := [(0, { ag := 1, rop := some 0, val := 5 })] }) base
def explicitMode (s : State) : State := onL (fun l => { l with op := lset l.op 0 (l.op.getD 0 0 ||| w64 (2 ^ 18)) }) s
theorem test_hyp_BarriersAndReductions : guardOn (cur base) q0 = true ∧
    groupOk base (launchOf base 0) ⟨2, 2, false⟩ = false ∧ groupOk base (launchOf base 0) ⟨0, 0, false⟩ = true ∧
    groupOk base (launchOf base 0) ⟨0, 0, true⟩ = true ∧ shapeKey ⟨0, 0, false⟩ = 0 ∧
    (barOf (launchOf barOpen 0) 0).ag ≠ (barOf (launchOf barOpen 0) 0).dg ∧ (barOf (launchOf base 0) 0).ag = (barOf (launchOf base 0) 0).dg ∧
    (cur base).barGen = none ∧ (barOf (launchOf barOpen 0) 0).dg < (barOf (launchOf barOpen 0) 0).ag ∧
    (cur (modCur barOpen (fun c => { c with barGen := some (0, 1) }))).barGen = some (0, 1) ∧ (barOf (launchOf barOpen 0) 0).dg < 1 ∧
    (cur (modCur barOpen (fun c => { c with barGen := some (0, 0), barRes := some (7, 0) }))).barGen = some (0, 0) ∧
    (cur (modCur barOpen (fun c => { c with barGen := some (0, 0), barRes := some (7, 0) }))).barRes = some (7, 0) ∧
    (cur (provi base)).prov = true ∧ (cur base).prov = false ∧
    (cur (modCur base (fun c => { c with barGen := some (0, 1) }))).barRes = none ∧ (cur barOpen).barGen = none ∧
    opExplicit (launchOf (explicitMode base) 0) = true ∧ opExplicit (launchOf base 0) = false ∧
    hasArrived (explicitMode (onL (fun l => { l with arrived := [0] }) base)) (launchOf (explicitMode (onL (fun l => { l with arrived := [0] }) base)) 0) = true ∧
    hasArrived base (launchOf base 0) = false := by decide +kernel
theorem test_hyp_NodeCompletionFreesTheWaiters :
    let l := launchOf barOpen 0
    liveLaunch l = true ∧ (barOf l 0).ag ≠ (barOf l 0).dg ∧
    (∀ g, g < 256 → (shapeNode barOpen l 0).has g = true → inRect l g = true → ∃ o ∈ [(barOpen.gv.id, (barOf l 0).rop, (barOf l 0).val)], o.1 = g) ∧
    (∀ o ∈ [(barOpen.gv.id, (barOf l 0).rop, (barOf l 0).val)], o.2.1 = some 0 ∨ o.2.1 = none) ∧
    (∃ o ∈ [(barOpen.gv.id, (barOf l 0).rop, (barOf l 0).val)], o.2.1 = some 0) ∧
    (let s := onL (fun l => { l with bars := [(0, { ag := 1 })] }) base
     let b := barOf (launchOf s 0) 0
     liveLaunch (launchOf s 0) = true ∧ b.ag ≠ b.dg ∧ (∀ o ∈ [(s.gv.id, b.rop, b.val), (1, none, 0)], o.2.1 = none) ∧
     (∀ g, g < 256 → (shapeNode s (launchOf s 0) 0).has g = true → inRect (launchOf s 0) g = true → ∃ o ∈ [(s.gv.id, b.rop, b.val), (1, none, 0)], o.1 = g)) ∧
    (∃ o ∈ [(barOpen.gv.id, (barOf l 0).rop, (barOf l 0).val), (1, some 1, 3)], o.2.1 = some 1) ∧ (0 : Nat) ≠ 1 := by decide +kernel
theorem test_hyp_ReductionOrderIsImmaterialForIntegers : 6 < 7 := by decide
theorem test_hyp_CountersAtHome : guardOn (cur base) q0 = true ∧
    okB (effAddr (gOf (regs [(2, p2 0x20004)] base) 2) (0 : BitVec 14).toInt) (fun ea => ea % 8 != 0) = true ∧
    okB (effAddr (gOf (regs [(2, p5 0x20000)] base) 2) (0 : BitVec 14).toInt) (fun ea => ea % 8 == 0 && okE (addrCheck .ld ea 8) && pathOf ea == 5) = true ∧
    okB (effAddr (gOf (regs [(2, 0x20000)] base) 2) (0 : BitVec 14).toInt) (fun ea => ea % 8 == 0 && okE (addrCheck .ld ea 8) && pathOf ea == 0 &&
      xDev .ld ea 8 base 0x20000 && xDev .amo ea 8 base 0x20000) = true ∧
    gNat base 3 ≤ (homeWord base .dev 0x20000).toNat ∧ (homeWord base .dev 0x20000).toNat < gNat (regs [(3, 1)] base) 3 ∧
    (cur (provi base)).prov = true ∧ (cur base).prov = false ∧ pathOf (6 * 2 ^ 60) = 6 ∧ okE (addrCheck .ld (6 * 2 ^ 60 + 0x4000) 8) = true ∧
    okE (xlateOp .ld (p5 0x20000) hostBase) = true ∧ okE (xlateOp .amo (p5 0x20000) hostBase) = true ∧ fitsB (askHome .dev 0x20000 base) 1 = true ∧
    okE (addrCheck .ld (7 * 2 ^ 60) 8) = false ∧ okE (xlateOp .ld (p2 (2 ^ 40)) base) = false ∧ okE (xlateOp .amo (p2 (2 ^ 40)) base) = false ∧
    okE (addrCheck .ld (p2 (2 ^ 40)) 8) = true ∧ (release heldStore).isOk = false ∧
    okB (xlateOp .amo 0x20000 (inLlc [0x20000] base)) (fun r => okB (release r.2) (fun w =>
      okB (inHand false w (askHome .dev 0x20000 (dropLine (0x20000 / 128) w))) (fun r => !r.1 && !lineUe r.2 .dev 0x20000 8))) = true ∧
    okB (xlateOp .ld (p2 0x20000) (inLlc [0x20000] base)) (fun r => okB (inHand false r.2 (askHome .dev 0x20000 r.2)) (fun r => !r.1)) = true ∧
    lineUe lostLine .dev 0x20000 8 = true ∧
    (let s := modCur lostLine (fun c => { c with cw := some (0x20000, 1) }); (strm s false).cw = some (0x20000, 1) ∧ lineUe s .dev 0x20000 8 = true) ∧
    (let s := modCur base (fun c => { c with cw := some (0x20000, 1) })
     (strm s false).cw = some (0x20000, 1) ∧ lineUe s .dev 0x20000 8 = false ∧ (homeWord s .dev 0x20000).toNat < (1 : Word).toNat) ∧
    (let s := modCur (putWord base .dev 0x20000 1) (fun c => { c with cw := some (0x20000, 1) })
     (strm s false).cw = some (0x20000, 1) ∧ (1 : Word).toNat ≤ (homeWord s .dev 0x20000).toNat) ∧
    (0x8000000000000000 : Word).getLsbD 63 = true ∧ (0x7FFFFFFFFFFFFFFF : Word).toNat < 2 ^ 63 := by decide +kernel

/-- A saved task of the placed launch in slot 0 of a context area at 1 MiB, and a supervisor's task in the stream. -/
def withImage : State :=
  sup (regs [(1, 0)] (putWord (putWord { base with dev := { base.dev with
    ctxarea := [(0, w64 (2 ^ 20 + 1))], ctxlive := [{ task := 5 }] } } .dev 0x100000 (w64 (2 ^ 48 + 2 ^ 47))) .dev 0x100008 0x10000))
/-- An access waits in the bank of that image. -/
def heldImage : State :=
  let (st, pc, bank, _) := hbmPlace 0x100000
  { withImage with dev := { withImage.dev with hbm := [(128 * st + pc, { wait := [{ bank := bank }] })] } }
theorem test_hyp_ReturnToASavedTask : guardOn (cur withImage) q0 = true ∧ (cur base).level = 0 ∧ (cur withImage).level ≠ 0 ∧
    imageCode (sup base) 0 0 ≠ 0 ∧ partOf withImage (cur withImage) = 0 ∧ gNat withImage 1 % 2 ^ 32 = 0 ∧ imageCode withImage 0 0 = 0 ∧
    eretFits withImage 0 0 = true ∧ (cur withImage).pend = [] ∧ (∀ m ∈ withImage.gv.clds, m.task ≠ (cur withImage).task) ∧
    quietB withImage = true ∧ (savedAt withImage 0 0).isSome = true ∧ (cur withImage).micro.running = false := by decide +kernel
theorem test_hyp_ReturnToASavedTask_waits : imageWaits heldImage 0 0 = true ∧ (cur heldImage).level ≠ 0 ∧
    (let s : State := { sup base with dev := { base.dev with ctxarea := [(0, w64 (2 ^ 41 + 1))] } }
     imageWaits s 0 0 = false ∧ imageCode s 0 0 ≠ 0 ∧ (cur s).level ≠ 0) := by decide +kernel
theorem test_hyp_ReturnToASavedTask_read : imageWaits withImage 0 0 = false := by decide +kernel
theorem test_hyp_ReturnToASavedTask_bytes : (readImage 0 0 (endTask withImage.sel withImage)).1.isSome = true := by decide +kernel
theorem test_hyp_ReturnToASavedTask_runs : (let s := modCur withImage (fun c => { c with micro := { c.micro with running := true } })
     (cur s).micro.running = true ∧ imageCode s 0 0 = 0 ∧ eretFits s 0 0 = true ∧ imageWaits s 0 0 = false) := by decide +kernel

/-- Four work queues in the partition's share; queue 1 a mailbox of two records, the second with JOIN 1. -/
def withQueues : State :=
  { base with dev := { base.dev with ptab := rset 0 base.dev.ptab 5 4, queues := [(1, { mailbox := true, serial := 2, entries := [{ serial := 0 }, { serial := 1, w0 := 1 }] }), (2, { bound := some 0 }), (3, { mailbox := true })] } }
theorem test_hyp_WorkQueueOps : guardOn (cur withQueues) q0 = true ∧
    ¬ (gNat (regs [(2, 256)] withQueues) 2 ≤ 255) ∧ queueShare withQueues 0 4 = false ∧ queueShare withQueues 0 3 = true ∧ 3 ≤ 255 ∧
    rowB withQueues 31 = true ∧ liveLaunch (launchOf withQueues (recLaunch (rowWord withQueues 31 3))) = true ∧
    (launchOf withQueues (recLaunch (rowWord withQueues 31 3))).part = partOf withQueues (cur withQueues) ∧
    (queueOf withQueues 1).mailbox = true ∧ (queueOf withQueues 2).bound = some (recLaunch (rowWord withQueues 31 3)) ∧
    (cur (provi withQueues)).prov = true ∧ (cur withQueues).prov = false ∧ queueFull (queueOf withQueues 1) = false ∧
    okE (release withQueues) = true ∧ (queueOf withQueues 2).mailbox = false ∧ (mailHead (queueOf withQueues 3)).isNone = true ∧
    (mailHead (queueOf withQueues 1)).isSome = true ∧ (refRec withQueues (cur withQueues) 513).isNone = true ∧
    (mailFind withQueues 3).isNone = true ∧ (mailFind withQueues 1).isSome = true ∧ (jdecFind withQueues (cur withQueues) 513).isNone = true ∧
    someB (jdecFind withQueues (cur withQueues) 1) (fun e => recJoin e.2.w0 == 0) = true ∧ someB (jdecFind withQueues (cur withQueues) 257) (fun e => recJoin e.2.w0 == 1) = true ∧
    (release (modGv withQueues (fun g => { g with shres := [{}] }))).isOk = false ∧ withQueues.late = none ∧
    someB (refRec withQueues (cur withQueues) 1) (fun e => recJoin e.2.w0 == 0) = true ∧
    someB (refRec withQueues (cur withQueues) 257) (fun e => recJoin e.2.w0 == 1) = true ∧ 257 / 2 ^ 63 = 0 ∧ 257 / 2 ^ 32 = 0 ∧
    queueShare withQueues (partOf withQueues (cur withQueues)) (257 % 256) = true ∧
    queueShare withQueues (partOf withQueues (cur withQueues)) (4 % 256) = false ∧
    (let c := cur (provi withQueues)
     (c.prov = true ∧ (2 ^ 63 + 1) / 2 ^ 48 = 2 ^ 15 ∧ (2 ^ 63 + 1) % 2 ^ 48 ≠ tile48 c.r1 c.r2) ∧
     someB (refRec withQueues c 257) (fun e => recLaunch e.2.w3 == c.launch && tile48 e.2.w1 e.2.w2 == tile48 c.r1 c.r2) = true ∧
     (let s := modQueue (provi withQueues) 1 (fun k => { k with entries := [{ serial := 1, w0 := 1, w1 := 7 }] })
      someB (refRec s (cur s) 257) (fun e => !(recLaunch e.2.w3 == c.launch && tile48 e.2.w1 e.2.w2 == tile48 c.r1 c.r2)) = true)) ∧
    queueFull { queueOf withQueues 1 with logcap := 0 } = true := by decide +kernel

/-- A canopy handle 0 of one row, row 5 of bank 0, and an SPAD handle 1 of one granule. -/
def withHandles : State := modGv base (fun g => { g with
  handles := [(0, { alloc := true, canopy := true, shape := 0x0001000100010001, wcode := 8, parts := [5] }),
    (1, { alloc := true, shape := 0x0001000100010020, wcode := 10, parts := [0] })] })
def openBank (b : Bank) (s : State) : State := modGv s (fun g => { g with banks := [(0, b)] })
theorem test_hyp_TileHandlesAndArena : guardOn (cur base) q0 = true ∧ shapeOk (0x0001000100000001 : Word) = false ∧
    shapeOk (0x0001000100010001 : Word) = true ∧ (freeHandle base).isSome = true ∧
    (pickParts base false 0 (handleBytes { alloc := true, shape := 0x0001000100010001, wcode := 8 })).isSome = true ∧
    (pickParts base true 31 (handleBytes { alloc := true, canopy := true, shape := 0x0001000100010001, wcode := 8, fbank := 31 })).isSome = true ∧
    (pickParts base false 0 (handleBytes { alloc := true, shape := 0xFFFFFFFFFFFFFFFF, wcode := 10 })).isNone = true ∧
    256 ≤ gNat (regs [(2, 256)] withHandles) 2 ∧ gNat withHandles 2 < 256 ∧ usable (handleOf withHandles 2) (cur withHandles) = false ∧
    usable (handleOf withHandles 0) (cur withHandles) = true ∧
    rowOpen (openBank { openRow := some 5 } withHandles) (handleOf withHandles 0) = true ∧ rowOpen withHandles (handleOf withHandles 0) = false ∧
    usable (handleOf withHandles 1) (cur withHandles) = true ∧
    gNat base 2 = 0 ∧ 2 ^ 32 < gNat (regs [(2, 2 ^ 32 + 1)] base) 2 ∧
    (let l := launchOf base (cur base).launch; gNat (regs [(2, 1)] base) 2 ≠ 0 ∧ opArena l + opArenaSize l < l.arenaTop + 256) ∧
    (let s := onL (fun l => { l with op := lset (lset l.op 5 0x100000) 6 256, arenaTop := 0x100000 }) base
     let l := launchOf s (cur s).launch; l.arenaTop + 256 ≤ opArena l + opArenaSize l) := by decide +kernel
/-- The row reference of G2 rowResolves to row 5 of bank 0. -/
def rowResolves (s : State) : Bool := okB (resolveRow (ctxAt .c s) (gOf s 2) s) (fun r => decide (r = (0, 5, false)))
def freeAtNow (s : State) : Bool :=
  decide (s.gv.stallTo ≤ s.now) && decide ((bankOf s 0).freeAt ≤ s.now) && (bankOf s 0).eng.isNone && decide (s.now ≤ (bankOf s 0).lastRef + 2928) && busReady s
/-- A weight handle 0 in place in canopy row 6 of bank 0. -/
def withWeight : State := { base with dev := { base.dev with wh := [(0, { st := 4, nrows := 1, parts := [6], pins := [(0, 1)] })] } }
theorem test_hyp_CanopyCommands : guardOn (cur withHandles) q0 = true ∧ rowResolves withHandles = true ∧
    (bankOf withHandles 0).openRow = none ∧ (bankOf withHandles 0).holder = none ∧ freeAtNow withHandles = true ∧
    (bankOf (openBank { holder := some 9 } withHandles) 0).holder = some 9 ∧ rowResolves (openBank { holder := some 9 } withHandles) = true ∧
    pastB (bankOf (openBank { tPre := some 0 } withHandles) 0).tPre 16 base.now = false ∧
    (let s := openBank { openRow := some 5, tAct := some 0 } { withHandles with now := 15 }
     rowResolves s = true ∧ pastB (bankOf s 0).tAct 32 s.now = false ∧ pastB (bankOf s 0).tAct 16 s.now = false ∧ (bankOf s 0).openRow = some 5) ∧
    (let s := openBank { holder := some 0, openRow := some 5, tAct := some 0 } { withHandles with now := 32 }
     rowResolves s = true ∧ pastB (bankOf s 0).tAct 32 s.now = true ∧ pastB (bankOf s 0).tAct 16 s.now = true ∧ (bankOf s 0).openRow = some 5 ∧
     (bankOf s 0).holder = some (cur s).task ∧ freeAtNow s = true) ∧
    (let s := openBank { openRow := some 6 } withHandles; rowResolves s = true ∧ (bankOf s 0).openRow ≠ some 5) ∧
    okB (resolveRow (ctxAt .c withWeight) (gOf (regs [(2, 2 ^ 63)] withWeight) 2) withWeight) (fun r => decide (r = (0, 6, true))) = true ∧
    (let s := openBank {} { withHandles with now := 3000 }
     rowResolves s = true ∧ s.gv.stallTo ≤ s.now ∧ (bankOf s 0).freeAt ≤ s.now ∧ ¬ s.now ≤ (bankOf s 0).lastRef + 2928) ∧
    (let s := openBank { openRow := some 5, freeAt := 1 } withHandles; rowResolves s = true ∧ ¬ (bankOf s 0).freeAt ≤ s.now) ∧
    (let s := modGv (openBank { openRow := some 5 } withHandles) (fun g => { g with busFree := 1 })
     rowResolves s = true ∧ busReady s = false ∧ (bankOf s 0).openRow = some 5) ∧
    (let s := openBank { eng := some {} } withHandles; rowResolves s = true ∧ (bankOf s 0).eng ≠ none) ∧
    0 ≤ (0 : BitVec 14).toInt ∧ (8064 : BitVec 14).toInt = 8064 ∧ rowB withHandles (mrfIdx 31) = true := by decide +kernel
theorem test_hyp_CanopyEvents :
    (let m : CldMove := { due := 0, row := 3, lanes := List.replicate 32 7 }
     let s := modGv base (fun g => { g with clds := [m] })
     s.gv.clds.find? (fun m => decide (m.due ≤ s.now)) = some m ∧ m.lanes.length = 32) ∧
    31 < 32 ∧ background base (bankOf base 31) = true ∧ (bankOf base 31).freeAt ≤ base.now ∧
    background (openBank { holder := some 0 } base) { holder := some 0 } = false ∧ base.now < (bankOf (openBank { freeAt := 1 } base) 0).freeAt ∧
    (let s := openBank { holder := some 0 } { base with now := 5856 }
     (bankOf s 0).holder = some 0 ∧ hasTask (strm s false) = true ∧ (strm s false).task = 0 ∧ (bankOf s 0).eng = none ∧
     (bankOf s 0).lastRef + 5856 ≤ s.now ∧ (strm s false).status = .running ∧ (strm s false).idleSeen = none ∧ (strm s false).ending = false) ∧
    (let s := modGv (openBank { holder := some 7 } { base with now := 5856 }) (fun g => { g with heldTasks := [{ base.st0 with task := 7 }] })
     (bankOf s 0).holder = some 7 ∧ (s.gv.heldTasks.any (fun c => c.task == 7)) = true) ∧
    (let s := modGv base (fun g => { g with dtrap := true }); s.gv.dtrap = true ∧ hasTask (strm s false) = true ∧ (strm s false).task = 0) := by
  decide +kernel
theorem test_hyp_WeightHandleOps : guardOn (cur withWeight) q0 = true ∧ 8192 ≤ gNat (regs [(2, 8192)] withWeight) 2 ∧
    gNat (regs [(2, 8191)] withWeight) 2 < 8192 ∧ whLive withWeight 0 8191 = false ∧ whLive withWeight 0 0 = true ∧
    (whOf withWeight 0).st ≠ whFaulted ∧ pinCount (whOf withWeight 0) < 255 ∧ pinCount (whOf withWeight 0) ≠ 0 ∧
    (let s : State := { base with dev := { base.dev with wh := [(0, { st := 4, pins := [(0, 254), (3, 1)] })] } }
     255 ≤ pinCount (whOf s 0) ∧ (whOf s 0).st ≠ whFaulted ∧ whLive s 0 0 = true) ∧
    (∀ x, (whOf withWeight 0).was = some x → x.1 ≠ withWeight.now) ∧ (whOf withWeight 0).part = partOf withWeight (cur withWeight) ∧
    (let v := whOf (modWh withWeight 0 (fun w => { w with st := whEvicting })) 0
     v.part = partOf withWeight (cur withWeight) ∧ v.st ≠ (whOf withWeight 0).st) ∧
    (let s : State := { base with dev := { base.dev with wh := [(0, { st := whResident })] } }; (whOf s 0).st = whResident ∧ whLive s 0 0 = true) := by
  decide +kernel
theorem test_hyp_SupervisorOps : guardOn (cur (sup base)) q0 = true ∧ (cur base).level = 0 ∧ (cur (sup base)).level ≠ 0 ∧ (2 : BitVec 3).toNat ≤ 2 ∧
    ¬ gNat (regs [(2, 4096)] base) 2 < 4096 ∧ asidShare (sup base) 0 1 = false ∧ asidShare (sup base) 0 0 = true ∧ (cur (sup base)).prov = false ∧
    okE (release (sup base)) = true ∧ (∀ b, (strm (sup base) b).pend = [] ∧ (strm (sup base) b).loose = []) ∧ (sup base).gv.heldTasks = [] ∧ (∀ j ∈ (sup base).gv.jobs, j.st ≠ .running ∧ j.st ≠ .heldWrites) ∧
    gNat (regs [(2, 256)] (sup base)) 2 < 512 ∧ gNat (regs [(2, 256)] (sup base)) 2 % 256 = base.gv.id ∧ (cur (sup base)).svTask = none ∧
    hasTask (strm (sup base) true) = false ∧
    (let s := sup twoStreams; hasTask (strm s true) = true ∧ partOf s (strm s true) = partOf s (cur s) ∧ (strm s true).level = 0 ∧ true ≠ s.sel) ∧
    gNat (sup base) 2 / 2 ^ 32 % 2 ^ 30 = 0 ∧ quietB (sup base) = true ∧
    (release (sup heldStore)).isOk = false ∧ (cur (sup heldStore)).level ≠ 0 ∧ (sup base).gv.shres = [] ∧
    (let s := regs [(2, 64)] { sup base with dev := { base.dev with ptab := rset 0 base.dev.ptab 0 1 } }; gNat s 2 < 512 ∧ gNat s 2 % 256 ≠ s.gv.id ∧ gladeShare s 0 (gladeOf (gNat s 2 % 256)) = false) ∧
    (let s := regs [(2, 1)] (sup base); gNat s 2 < 512 ∧ gNat s 2 % 256 ≠ s.gv.id ∧ gladeShare s 0 (gladeOf (gNat s 2 % 256)) = true) ∧
    gNat heldImage 2 < 2 ^ 62 ∧ okB (release heldImage) (fun u => imageWaits u 0 (gNat heldImage 2 % 2 ^ 32)) = true ∧
    okB (release withImage) (fun u => !imageWaits u 0 (gNat withImage 2 % 2 ^ 32)) = true := by decide +kernel

/-- The window of all tiles, and tile 0 described as I8. -/
def wide (s : State) : State := modCur s (fun c => { c with r3 := w64 (47 * 2 ^ 14), tdesc := [(0, 0x404013)] })
/-- Port 0 bound to a legal set that reads 8-bit elements one after another at path 2, their lines in the LLC. -/
def withPort : State := modCur (inLlc ((List.range 64).map (fun k => 0x20000 + 128 * k)) (wide base)) (fun c => { c with portmap := 0x80, ps := [(0, w64 (p2 0x20000)), (1, w64 (2 ^ 63 + 8 * 2 ^ 56 + 4 * 2 ^ 53)),
  (2, w64 (0xFFFF * 2 ^ 24 + 1)), (3, w64 (2 ^ 24)), (4, w64 (2 ^ 24)), (5, w64 (2 ^ 24)), (6, w64 (2 ^ 24))] })
def planes (st1 st2 : Nat) (s : State) : State :=
  modGv s (fun g => { g with idle := { st := st1, typ := 19 }, comp := { st := st2, typ := 19 } })
/-- A pop of port 0. -/
def pop0 : Mrf := 0x1808
/-- A port of 8-bit elements gives an op of that width, and no op of another; BITS takes any. -/
theorem test_hyp_PortFits : PortFits withPort .i8 pop0 ∧ ¬ PortFits withPort .fp32 pop0 ∧ PortFits withPort .bits pop0 ∧ PortFits base .fp32 0 ∧
    PortWidth withPort pop0 8 ∧ ¬ PortWidth withPort pop0 4 ∧ okE (portLegal (cur withPort) pop0) = true := by
  unfold PortFits PortWidth; decide +kernel
theorem gate_base : GateOpen base ∧ GateOpen (wide base) ∧ MayOwn base := by unfold GateOpen MayOwn; decide +kernel
theorem test_hyp_WeightPlanesLoadAndSwap : guardOn (cur (wide base)) q0 = true ∧ GateOpen (wide base) ∧ MayOwn (wide base) ∧
    (GateOpen withPort ∧ MayOwn withPort) ∧ ¬ MayOwn (modGv (wide base) (fun g => { g with owner := some 9 })) ∧
    (19 : BitVec 5).toNat ≤ 24 ∧ okE (arrayCheck (cur (wide base)) 19) = true ∧ isPort 0 = false ∧
    rowB (wide base) 0 = true ∧ rowB (wide base) (0 + 64 - 1) = true ∧ (tyOfCode (fmtReg (cur (wide base))) 19).store = 8 ∧
    (wide base).gv.idle.st ≠ 1 ∧ (planes 1 0 (wide base)).gv.idle.st = 1 ∧
    isPort pop0 = true ∧ portBound (cur withPort) pop0 = true ∧ portEw (cur withPort) pop0 = 8 ∧ (tyOfCode (fmtReg (cur withPort)) 19).width = 8 ∧
    okE (popMany (ctxAt .m withPort) (mrfIdx pop0) 2 (claimed withPort)) = true ∧
    okB (resolveRow (ctxAt .m withHandles) (gOf withHandles 2) withHandles) (fun r => decide (r = (0, 5, false))) = true ∧
    (let s := openBank { openRow := some 5, tAct := some 0 } { withHandles with now := 16 }
     (bankOf s 0).openRow = some 5 ∧ pastB (bankOf s 0).tAct 16 s.now = true ∧ freeAtNow s = true ∧ s.gv.owner = none ∧ s.gv.idle.st ≠ 1) ∧
    pastB (bankOf (openBank { openRow := some 5, tAct := some 0 } { withHandles with now := 15 }) 0).tAct 16 15 = false ∧
    (let s := openBank { openRow := some 5, tAct := some 0 } { withHandles with now := 15 }
     (bankOf s 0).openRow = some 5 ∧ freeAtNow s = true ∧ okE (arrayCheck (cur s) 19) = true ∧ (tyOfCode (fmtReg (cur s)) 19).store ≠ 4) ∧
    (let s := modGv (openBank { openRow := some 5 } withHandles) (fun g => { g with stallTo := 9 }); ¬ s.gv.stallTo ≤ s.now ∧ (bankOf s 0).openRow = some 5) ∧
    (let s := openBank { openRow := some 5 } { withHandles with now := 3000 }
     (bankOf s 0).holder = none ∧ (bankOf s 0).lastRef + 2928 < s.now ∧ s.gv.stallTo ≤ s.now ∧ (bankOf s 0).freeAt ≤ s.now) ∧
    (let s := modGv (openBank { openRow := some 5 } withHandles) (fun g => { g with busFree := 1 }); busReady s = false ∧ s.now ≤ (bankOf s 0).lastRef + 2928) ∧
    (let s := modCur withHandles (fun c => { c with fmt := [(0, 0x8044A0)] })
     okE (arrayCheck (cur s) 0) = true ∧ (tyOfCode (fmtReg (cur s)) 0).store = 4) ∧ (bankOf (openBank { eng := some {} } withHandles) 0).eng ≠ none ∧
    (let s := modGv base (fun g => { g with idle := { st := 1, readyAt := 64 } }); s.gv.idle.st = 1 ∧ s.now < s.gv.idle.readyAt) ∧
    (let s := modGv { base with now := 64 } (fun g => { g with idle := { st := 1, readyAt := 64 } }); s.gv.idle.st = 1 ∧ s.gv.idle.readyAt ≤ s.now) := by
  unfold GateOpen MayOwn; decide +kernel
/-- Tile 3 stands behind accumulator name 2. -/
def withAcc (s : State) : State := modCur s (fun c => { c with amap := [(2, 4)] })
theorem test_hyp_MatrixStreamsAccumulate :
    let s := withAcc (planes 2 2 (wide base))
    guardOn (cur s) q0 = true ∧ GateOpen s ∧ MayOwn s ∧ HasTile s 2 ∧ HasTile s 3 ∧
    maskOk (maskPair (ctxAt .m s) 0) = true ∧ maskOk (maskPair (ctxAt .m (regs [(4, 1), (5, 256)] s)) 4) = false ∧ isPort 0 = false ∧
    (planes 0 0 s).gv.idle.st = 0 ∧ s.gv.idle.st = 2 ∧ s.gv.comp.st ≠ 0 ∧
    okB (actType (ctxAt .m s) 0 0 (planeTy s.gv.comp, 19)) (fun r => r.2 == 19 && r.1.store != 4 && is16 r.2 == is16 s.gv.comp.typ) = true ∧
    okE (actVector (ctxAt .m s) 0 0 (claimed s)) = true ∧
    portBound (cur withPort) pop0 = true ∧ okB (actType (ctxAt .m (planes 2 2 withPort)) pop0 8 (planeTy s.gv.comp, 19)) (fun r => r.2 == 19) = true ∧
    okE (actVector (ctxAt .m (planes 2 2 withPort)) pop0 8 (claimed (planes 2 2 withPort))) = true ∧
    lensOk none 32 = true ∧ lensOk (maskPair (ctxAt .m (regs [(4, 33), (5, 0)] s)) 4) 32 = false ∧ accTile (cur s) 2 = some 3 := by
  unfold GateOpen MayOwn HasTile; decide +kernel
/-- What an issue of MSTRM and of MBATCH asks for, a state and a plane at a time. -/
theorem mayGo (s : State) (acc : BitVec 3) (src : Mrf) (r : Reg) (p : Plane) (hg : GateOpen s ∧ MayOwn s) (hp : p.st ≠ 0) (ht : HasTile s acc.toNat)
    (hs : isPort src = false) (hm : maskPair (ctxAt .m s) r = none) (hl : lensOk none (if is16 p.typ then 16 else 32) = true)
    (ha : okB (actType (ctxAt .m s) src (mrfIdx src) (planeTy p, p.typ)) (fun x => x.1.store != 4 && is16 x.2 == is16 p.typ) = true)
    (hv : okE (actVector (ctxAt .m s) src (mrfIdx src) (claimed s)) = true) :
    ∃ v ty ls, StreamMayGo s v acc src r p ty ls ∧ BatchMayGo s v acc src r p ty ls := by
  obtain ⟨⟨ty, code⟩, ea, h⟩ := okB_spec _ _ ha
  obtain ⟨⟨ls, v⟩, ev, -⟩ := okB_spec _ _ hv
  simp only [Bool.and_eq_true, bne_iff_ne, ne_eq, beq_iff_eq] at h
  refine ⟨v, ty, ls, ?_, ?_⟩
  · exact ⟨hg.1, hg.2, by rw [hm]; rfl, hp, ht, by simp [hs], ⟨code, by simpa [hm] using ea, h.2⟩, ev⟩
  · exact ⟨hg.1, hg.2, by rw [hm]; exact hl, hp, ht, by simp [hs], h.1, ⟨code, by simpa [hm] using ea, h.2⟩, ev⟩
/-- An issue that may go on, with planes that are READY, and with an idle plane that loads. -/
theorem test_hyp_StreamMayGo (st : Nat) (h : st = 1 ∨ st = 2) :
    let s := withAcc (planes st 2 (wide base))
    ∃ v ty ls v' ty' ls', StreamMayGo s v 2 0 0 s.gv.comp ty ls ∧ BatchMayGo s v 2 0 0 s.gv.comp ty ls ∧
      StreamMayGo s v' 2 0 0 s.gv.idle ty' ls' ∧ BatchMayGo s v' 2 0 0 s.gv.idle ty' ls' ∧ s.gv.idle.st = st ∧ s.gv.comp.st = 2 := by
  rcases h with rfl | rfl <;>
  · intro s
    obtain ⟨v, ty, ls, h⟩ := mayGo s 2 0 0 s.gv.comp (by unfold GateOpen MayOwn; decide +kernel) (by decide +kernel) (by unfold HasTile; decide +kernel)
      (by decide) (by decide +kernel) (by decide +kernel) (by decide +kernel) (by decide +kernel)
    obtain ⟨v', ty', ls', h'⟩ := mayGo s 2 0 0 s.gv.idle (by unfold GateOpen MayOwn; decide +kernel) (by decide +kernel) (by unfold HasTile; decide +kernel)
      (by decide) (by decide +kernel) (by decide +kernel) (by decide +kernel) (by decide +kernel)
    exact ⟨v, ty, ls, v', ty', ls', h.1, h.2, h'.1, h'.2, by decide +kernel, by decide +kernel⟩
theorem test_hyp_MatrixDrainAndControl :
    let s := wide base
    guardOn (cur s) q0 = true ∧ GateOpen s ∧ (16 : BitVec 6).toNat ≤ 24 ∧ rowB s 0 = true ∧ rowB s 1 = true ∧ okE (fmtCheck (cur s) 16) = true ∧
    2048 ≤ 32 * (63 : BitVec 6).toNat + 32 ∧ 1024 / (tyOfCode (fmtReg (cur s)) 16).store = 32 ∧ 32 * (63 : BitVec 6).toNat < 2048 ∧
    512 * ((List.range 4).filter (fun k => (1 : BitVec 4).getLsbD k)).length ≤ 32 * (16 : BitVec 6).toNat ∧
    freeTiles (unmapped s 0) ≠ [] ∧
    freeTiles (unmapped (modGv s (fun g => { g with heldTasks := [{ s.st0 with amap := (List.range 24).map (fun k => (k, k + 1)) }] })) 7) = [] ∧
    (rget 0 s.gv.uentry 0).getLsbD 15 = false ∧ (rget 0 (modGv s (fun g => { g with uentry := [(0, 0x83FF)] })).gv.uentry 0).getLsbD 15 = true ∧
    MayOwn s ∧ (cur s).level = 0 ∧
    (rget 0 ({ s with dev := { s.dev with sysctl := [(0, 1)] } } : State).dev.sysctl (partOf s (cur s))).getLsbD 0 = true ∧
    (rget 0 s.dev.sysctl (partOf s (cur s))).getLsbD 0 = false ∧ 255 < gNat (regs [(4, 241)] s) 4 + 15 ∧ gNat (regs [(4, 240)] s) 4 + 15 ≤ 255 ∧
    1023 < gNat (regs [(4, 1009)] s) 4 + 15 ∧ microRuns s = false ∧
    (let u := modGv s (fun g => { g with uentry := [(0, 0x83FF)], owner := some 9 }); (rget 0 (seen u).gv.uentry 0).getLsbD 15 = true ∧ ¬ MayOwn u) := by unfold GateOpen MayOwn; decide +kernel
/-- A microprogram runs in the acting stream: pointer 0 at row 0, pointer 1 at row 3, counts 2 and 1. -/
def runs : State := modCur (planes 2 2 (wide base)) (fun c => { c with micro := { running := true, ma := [(1, 3)], mlc := [(0, 2), (1, 1)] } })
theorem test_hyp_MicroOpsGoOn : MicroGoing runs ∧ MicroGoing (modCur runs (fun c => { c with micro := { c.micro with count := 2 ^ 20 - 1, mpc := 1022 } })) ∧
    (31 : BitVec 16).toNat < 32 ∧ (6 : BitVec 3).toNat % 2 = 0 ∧ 2 ≤ mlcOf runs 0 ∧ mlcOf runs 1 < 2 ∧
    mrfDir (maOf runs 1) = 0 ∧ mrfIdx (maOf runs 1) = 3 ∧ 0 ≤ (3 : Int) + (-3 : BitVec 16).toInt ∧ (3 : Int) + (1532 : BitVec 16).toInt ≤ 1535 ∧
    (51 : BitVec 16).toNat % 64 + 12 ≤ 63 ∧ (48 : BitVec 16).toNat % 64 + 15 ≤ 63 ∧ runs.gv.idle.st = 2 ∧ rowB runs 0 = true ∧ rowB runs 1 = true ∧
    okE (arrayCheck (cur runs) 19) = true ∧ rowB runs (0 + 64 - 1) = true ∧ MayOwn runs ∧ runs.gv.comp.st ≠ 0 ∧ HasTile runs (cur runs).micro.cur ∧
    (cur runs).micro.batch = false ∧ (cur runs).micro.masked = false ∧ 0 + (32 : BitVec 16).toNat ≤ 1536 ∧
    (∀ v, v < 32 → okB (actType (ctxAt .m runs) (maOf runs 0) (0 + v) (planeTy runs.gv.comp, 19)) (fun r => is16 r.2 == is16 19) = true) ∧
    0 < (256 : BitVec 16).toNat / 256 ∧ okE (fmtCheck (cur runs) 16) = true ∧ 32 * (256 : BitVec 16).toNat % 64 < 2048 := by
  unfold MicroGoing MayOwn HasTile; decide +kernel
/-- In the middle of a STREAM or DRAIN, row 5 lost. -/
theorem test_hyp_MicroOpsGoOn_issues :
    let s := modCur runs (fun c => { c with micro := { c.micro with prog := 3 }, lostR := [(5, 0)] })
    MicroGoing s ∧ (∀ r ∈ (cur s).lostR, r.1 < 0 + 3 ∨ 0 + 3 + 1 ≤ r.1) ∧ rowB s (0 + 3) = true ∧ (cur s).micro.prog + 1 < (32 : BitVec 16).toNat ∧
    okB (actType (ctxAt .m s) (maOf s 0) (0 + 3) (planeTy s.gv.comp, 19)) (fun r => is16 r.2 == is16 19) = true := by
  unfold MicroGoing; decide +kernel
/-- A tile handle of 16-bit units named by lane 0 of row 2, base 0. -/
def withUnits : State := setRow (setRow withHandles 2 (1 :: List.replicate 31 0)) 3 (List.replicate 32 31)
theorem test_hyp_VectorOpsApplyTheirElementRule : (∃ r, vecSpec (.vadd q0 .fp32 2 0 1 false) = some r) ∧ (∃ r, vecSpec (.vabs q0 .fp32 2 0 false) = some r) ∧
    (guardOn (cur base) q0 = true ∧ rowB base (mrfIdx 31) = true ∧ okB (readOpnd (ctxAt .v0 base) 0 false base) (fun r => okE (readOpnd (ctxAt .v0 base) 1 false r.2)) = true ∧
     okE (readOpnd (ctxAt .v0 withPort) pop0 false withPort) = true ∧ isPort 0x41F = false ∧ (2 < 3 ∧ (List.replicate 128 ((255, 0) : Elem)).length = 1024 / 8)) :=
  ⟨⟨_, rfl⟩, ⟨_, rfl⟩, by decide +kernel⟩
theorem test_hyp_VectorElementRules : tyOfVTy .i8 = .int 8 true ∧ tyOfVTy .n32 = .int 32 false ∧ 255 < 2 ^ 8 ∧ tyOfVTy .fp16 = .flt fFP16 ∧
    (decF fFP16 0x3C00).isNan = false ∧ (decF fFP16 0x7E00).isNan = true := by decide +kernel
theorem test_hyp_VectorConvertReduceScan : guardOn (cur base) q0 = true ∧ rowB base 31 = true ∧
    okB (readOpnd (ctxAt .v0 base) 0 false base) (fun r => okE (readOpnd (ctxAt .v0 base) 1 false r.2)) = true ∧
    okB (cvtSource (ctxAt .v0 base) .fp32 0 0 false) (fun st => partCount st.store (tyOfCode (fmtReg (cur base)) 17).store == 2) = true ∧
    okE (fmtCheck (cur base) 17) = true ∧
    (convertPart (tyWidth .i32) (storeWidth 8) 3 (List.replicate 32 0) (List.replicate 128 0) (fun v => (elPack .i32 8 true v, 0))).isSome = true ∧
    (convertPart (storeWidth 8) (tyWidth .i32) 3 (List.replicate 128 0) (List.replicate 32 0) (fun v => (elUnpk .i32 8 v, 0))).isSome = true := by decide +kernel
theorem test_hyp_VectorTablesAndScratchpad : guardOn (cur withUnits) q0 = true ∧ rowB withUnits 31 = true ∧ rowB withUnits 2 = true ∧
    okE (readOpnd (ctxAt .v0 withUnits) 3 false withUnits) = true ∧
    okB (rowHandle (ctxAt .v0 withUnits) 2 32 withUnits) (fun r => r.2 == 0 && shapeUnits r.1.shape == 32) = true ∧
    (let u : Int := 0 + (31 : Lane).toInt; 0 ≤ u ∧ u < 32) ∧ ¬ (0 + (32 : Lane).toInt < 32) := by decide +kernel
/-- A microprogram runs that reads port 0. -/
def portRuns : State := modCur (planes 2 2 withPort) (fun c => { c with ps := [(0, w64 (p2 0x20000)), (1, w64 (2 ^ 63 + 8 * 2 ^ 56)), (2, w64 (2 ^ 24)), (3, w64 (2 ^ 24)),
  (4, w64 (2 ^ 24)), (5, w64 (2 ^ 24)), (6, w64 (0xFFFF * 2 ^ 24 + 1))], micro := { running := true, ma := [(0, pop0)] } })
/-- WLOAD and STREAM from a port, unmasked, masked and in batch mode; SCALE of kept rows. -/
theorem test_hyp_MicroOpsGoOn_ports : MicroGoing portRuns ∧ maOf portRuns 0 = pop0 ∧ isPort pop0 = true ∧ 8 ≤ mrfIdx pop0 ∧ mrfIdx pop0 < 16 ∧
    okE (portLegal (cur portRuns) pop0) = true ∧ portBound (cur portRuns) pop0 = true ∧
    PortWidth portRuns pop0 (tyOfCode (fmtReg (cur portRuns)) 19).width ∧ okE (popMany (ctxAt .m portRuns) 8 64 (claimed portRuns)) = true ∧
    portRuns.gv.idle.st ≠ 1 ∧ portRuns.gv.comp.st ≠ 0 ∧ MayOwn portRuns ∧ okE (actVector (ctxAt .m portRuns) pop0 8 (claimed portRuns)) = true ∧
    okB (actType (ctxAt .m portRuns) pop0 8 (planeTy portRuns.gv.comp, 19)) (fun r => is16 r.2 == is16 19) = true ∧
    maskOk (some (0, w64 (19 * 2 ^ 24))) = true ∧ bits (w64 (19 * 2 ^ 24)).toNat 28 24 = 19 ∧ okE (arrayCheck (cur portRuns) 19) = true ∧
    lensOk (some (32, 0)) 32 = true ∧ (∀ r ∈ (cur runs).lostR, r.1 < 0 ∨ 0 + 64 ≤ r.1) := by
  unfold MicroGoing MayOwn PortWidth; decide +kernel
/-- The m ops wait while a microprogram runs, MMPW also while one of the other stream or of a held task does, and meet a fault left. -/
theorem test_hyp_MatrixDrainAndControl_waits : (cur runs).micro.fpend = false ∧ (cur runs).micro.running = true ∧
    (cur (modCur base (fun c => { c with micro := { c.micro with fpend := true } }))).micro.fpend = true ∧
    (let s := modGv base (fun g => { g with heldTasks := [strm runs false] }); GateOpen s ∧ (∃ h ∈ s.gv.heldTasks, h.micro.running = true)) ∧
    (let s : State := { twoStreams with st1 := { twoStreams.st1 with micro := { running := true } } }
     GateOpen s ∧ (strm s (!s.sel)).micro.running = true) := by unfold GateOpen; decide +kernel
/-- The elements that a drain and an unmasked stream compute: a mapped name, a plane of bytes. -/
theorem test_hyp_MatrixElements : accTile (cur (withAcc (planes 2 2 (wide base)))) 2 = some 3 ∧ accTile (cur (wide base)) 2 = none ∧
    okB (actType (ctxAt .m (withAcc (planes 2 2 (wide base)))) 0 0 (planeTy (planes 2 2 (wide base)).gv.comp, 19)) (fun r => r.2 == 19 && r.1.store != 4) = true := by
  decide +kernel
/-- A NaN first, second or addend; a finite operand of the four functions, its mantissa 2 = 1 × 2^1 and its sign. -/
theorem test_hyp_VectorElementRules_nans : decF fFP32 0x7FC00001 = .nan false 0x400001 ∧ (decF fFP32 0x40000000).isNan = false ∧
    tyOfVTy .fp32 = .flt fFP32 ∧ decF fFP32 0x40000000 = .fin false (2 ^ 23) (-22) ∧ (2 ^ 23 ≠ 0) := by decide +kernel
theorem test_hyp_VectorElementRules_scaled : ((2 ^ 23 : Nat) : ℚ) * (2 : ℚ) ^ (-22 : Int) = 1 * (2 : ℚ) ^ (1 : Int) ∧ (1 : ℚ) ≤ 1 ∧ (1 : ℚ) < 2 := by norm_num
/-- Conversions from a port of bytes: of its width, of another, and a part that is none. -/
theorem test_hyp_VectorConvertReduceScan_ports : okE (readOpnd (ctxAt .v0 withPort) pop0 false withPort) = true ∧
    okB (cvtSource (ctxAt .v0 withPort) .fp32 pop0 0 false) (fun st => st.width == 32) = true ∧ ¬ PortWidth withPort pop0 32 ∧
    okB (cvtSource (ctxAt .v0 withPort) .i8 pop0 0 false) (fun st => st.width == 8 && decide (partCount st.store (tyOfCode (fmtReg (cur base)) 17).store ≤ 7)) = true ∧
    PortWidth withPort pop0 8 ∧ ¬ PortFits withPort .i32 pop0 ∧ partCount (tyWidth .i32) (storeWidth 8) ≤ 7 ∧ PortFits withPort .i8 pop0 := by
  unfold PortFits PortWidth; decide +kernel

/-! Witnesses of BlockStepsAndRoundings. -/

/-- A finite code of E8M31 is at most the largest value, and the largest is a code. -/
theorem largest_E8M31 (s : Bool) : IsLargest fE8M31 s ((2 ^ 32 - 1) * 2 ^ 96) := by
  constructor
  · refine ⟨(if s then 2 ^ 39 else 0) + (2 ^ 39 - 2 ^ 31 - 1), ?_, 2 ^ 32 - 1, 96, ?_, ?_⟩
    · cases s <;> decide
    · cases s <;> decide +kernel
    · norm_num
  · rintro c u ⟨hc, m, e, hd, rfl⟩
    have key : (m : ℚ) ≤ 2 ^ 32 - 1 ∧ e ≤ 96 := by
      have h1 : c % 2147483648 < 2147483648 := Nat.mod_lt _ (by norm_num)
      have h2 : c / 2147483648 % 256 < 256 := Nat.mod_lt _ (by norm_num)
      have hm : m ≤ 2 ^ 32 - 1 ∧ e ≤ 96 := by
        simp only [decF, fE8M31, beq_iff_eq, Bool.and_eq_true, decide_eq_true_eq] at hd
        norm_num at hd
        split_ifs at hd <;> simp at hd <;> omega
      refine ⟨?_, hm.2⟩
      have h : (m : ℚ) ≤ ((2 ^ 32 - 1 : ℕ) : ℚ) := by exact_mod_cast hm.1
      norm_num at h ⊢
      exact h
    have h3 : (2 : ℚ) ^ e ≤ 2 ^ (96 : ℤ) := zpow_le_zpow_right₀ (by norm_num) key.2
    calc (m : ℚ) * 2 ^ e ≤ (2 ^ 32 - 1) * 2 ^ (96 : ℤ) := mul_le_mul key.1 h3 (by positivity) (by norm_num)
      _ = _ := by norm_num

/-- The block step: no product, a NaN operand, an invalid product, one infinity and both, an infinite accumulator; a sum of 1, a zero
sum, a sum that leaves the format, each with its window, its step, its rounding and the largest value. -/
theorem test_hyp_BlockStepsAndRoundings_block : (0 : Nat) < 2 ^ 40 ∧ (decF fE8M31 0).isNan = false ∧ (decF fE8M31 (255 * 2 ^ 31)).isNan = false ∧
    (XV.nan false 1).isNan = true ∧ xmul (.fin false 0 0) (.inf false) = none ∧ xmul (.fin false 1 0) (.inf false) = some (.inf false) ∧
    xmul (.fin true 1 0) (.inf false) = some (.inf true) ∧ decF fE8M31 0 ≠ .inf true ∧ decF fE8M31 (255 * 2 ^ 31) = .inf false ∧
    (decF fE8M31 0).isSpecial = false ∧ (XV.fin false 1 0).isSpecial = false ∧ ratOf (decF fE8M31 0) = 0 ∧
    prodOf (.fin false 1 0, .fin false 1 0) = 1 ∧ prodOf (.fin true 1 0, .fin false 1 0) = -1 ∧ prodOf (.fin false 0 0, .fin false 1 0) = 0 ∧
    (2 : ℚ) ^ (0 : Int) ≤ |prodOf (.fin false 1 0, .fin false 1 0)| ∧ |prodOf (.fin false 1 0, .fin false 1 0)| < (2 : ℚ) ^ ((0 : Int) + 1) ∧
    alignedSpec 0 1 = 1 := by
  refine ⟨by norm_num, by decide +kernel, by decide +kernel, rfl, by decide +kernel, by decide +kernel, by decide +kernel, by decide +kernel,
    by decide +kernel, by decide +kernel, by decide +kernel, ?_, ?_, ?_, ?_, ?_, ?_, ?_⟩
  · have h : decF fE8M31 0 = .fin false 0 (-157) := by decide +kernel
    rw [h]; norm_num [ratOf]
  all_goals norm_num [prodOf, ratOf]
  have h : ⌊(309485009821345068724781056 : ℚ)⌋₊ = 309485009821345068724781056 := by
    exact_mod_cast Nat.floor_natCast (R := ℚ) 309485009821345068724781056
  norm_num [alignedSpec, h]
theorem test_hyp_BlockStepsAndRoundings_sum : IsStep fE8M31 1 ((2 : ℚ) ^ (-31 : Int)) ∧ Nearest fE8M31 1 ((2 : ℚ) ^ (-31 : Int)) (2 ^ 31) ∧
    IsLargest fE8M31 false ((2 ^ 32 - 1) * 2 ^ 96) ∧ ((2 ^ 31 : Nat) : ℚ) * (2 : ℚ) ^ (-31 : Int) = |(1 : ℚ)| ∧
    ((2 ^ 31 : Nat) : ℚ) * (2 : ℚ) ^ (-31 : Int) ≤ (2 ^ 32 - 1) * 2 ^ 96 ∧
    IsStep fE8M31 ((2 : ℚ) ^ 128) ((2 : ℚ) ^ (97 : Int)) ∧ Nearest fE8M31 ((2 : ℚ) ^ 128) ((2 : ℚ) ^ (97 : Int)) (2 ^ 31) ∧
    ((2 : ℚ) ^ 32 - 1) * 2 ^ 96 < ((2 ^ 31 : Nat) : ℚ) * (2 : ℚ) ^ (97 : Int) := by
  refine ⟨?_, ?_, largest_E8M31 false, ?_, ?_, ?_, ?_, ?_⟩
  · simp only [IsStep, fE8M31]; exact ⟨0, by norm_num, by norm_num, by norm_num⟩
  · norm_num [Nearest]
  · norm_num
  · norm_num
  · simp only [IsStep, fE8M31]; exact ⟨128, by norm_num, by norm_num, by norm_num⟩
  · norm_num [Nearest]
  · norm_num
/-- A drain and a conversion: of −1 in E8M31, of −2^128 beyond its largest, into a type without a sign, and of 5/2 and 300 into I8. -/
theorem test_hyp_BlockStepsAndRoundings_round : ValidFmt fE8M31 ∧ ValidFmt (fmtOfReg 0x804400) ∧ (fmtOfReg 0x804400).S = false ∧ fE8M31.S = true ∧
    ratOf (.fin true 1 0) = -1 ∧ IsStep fE8M31 (-1) ((2 : ℚ) ^ (-31 : Int)) ∧ IsLargest fE8M31 true ((2 ^ 32 - 1) * 2 ^ 96) ∧
    Toward0 (-1) ((2 : ℚ) ^ (-31 : Int)) (2 ^ 31) ∧ Nearest fE8M31 (-1) ((2 : ℚ) ^ (-31 : Int)) (2 ^ 31) ∧ 1 ≤ fE8M31.M ∧
    ratOf (.fin true 1 128) = -2 ^ 128 ∧ IsStep fE8M31 (-2 ^ 128) ((2 : ℚ) ^ (97 : Int)) ∧ Toward0 (-2 ^ 128) ((2 : ℚ) ^ (97 : Int)) (2 ^ 31) ∧
    Nearest fE8M31 (-2 ^ 128) ((2 : ℚ) ^ (97 : Int)) (2 ^ 31) ∧
    ratOf (.fin false 5 (-1)) = 5 / 2 ∧ |((2 : Int) : ℚ)| ≤ |(5 / 2 : ℚ)| ∧ |(5 / 2 : ℚ)| < |((2 : Int) : ℚ)| + 1 ∧ 0 ≤ ((2 : Int) : ℚ) * (5 / 2) ∧
    |((2 : Int) : ℚ) - 5 / 2| ≤ 1 / 2 ∧ (2 : Int) % 2 = 0 ∧ ratOf (.fin false 300 0) = 300 ∧ |((300 : Int) : ℚ) - 300| ≤ 1 / 2 := by
  refine ⟨.inr (.inr (.inr (.inl rfl))), .inr (.inr (.inr (.inr ⟨0x804400, by decide +kernel, rfl⟩))), by decide +kernel, rfl, ?_, ?_, largest_E8M31 true,
    ?_, ?_, by decide, ?_, ?_, ?_, ?_, ?_, ?_, ?_, ?_, ?_, ?_, ?_, ?_⟩
  · norm_num [ratOf]
  · simp only [IsStep, fE8M31]; exact ⟨0, by norm_num, by norm_num, by norm_num⟩
  · norm_num [Toward0]
  · norm_num [Nearest]
  · norm_num [ratOf]
  · simp only [IsStep, fE8M31]; exact ⟨128, by norm_num, by norm_num, by norm_num⟩
  all_goals norm_num [Toward0, Nearest, ratOf]

/-- The placed partition with slots 0 to 15 and command queues, its launch's point 5 declared and enabled with one probe. -/
def withSlots : State := { inLlc [0x20000, 0x21000] base with dev := { base.dev with ptab := rset 0 base.dev.ptab 4 16, tap := [(100, w64 (2 ^ 63 + 2 ^ 56 + 64 * 2 ^ 36)), (104, w64 (p2 0x20000))] } }
/-- The draw in row 4: total, flags and done word. -/
def draw (l2 l3 l5 : Nat) (s : State) : State := setRow s 4 ([0, 0, BitVec.ofNat 32 l2, BitVec.ofNat 32 l3, 0, BitVec.ofNat 32 l5] ++ List.replicate 26 0)
theorem test_hyp_SamplingAndRandomWords :
    let one := setRow withSlots 0 (0x80000003 :: List.replicate 31 0)
    guardOn (cur base) q0 = true ∧ rowB base 31 = true ∧ okE (readOpnd (ctxAt .v0 base) 0 false base) = true ∧
    laneN (draw 5 0 1 base) 4 5 % 2 = 1 ∧ laneN (draw 5 (2 ^ 31) 0 base) 4 5 % 2 = 0 ∧ laneN (draw 5 (2 ^ 31) 0 base) 4 3 / 2 ^ 31 = 1 ∧
    laneN (draw (2 ^ 31) 0 0 base) 4 2 % 2 ^ 31 = 0 ∧ laneN (draw (2 ^ 31) 0 0 base) 4 3 / 2 ^ 31 = 0 ∧ laneN (draw 5 0 0 base) 4 2 % 2 ^ 31 ≠ 0 ∧
    okE (drawChildren (ctxAt .v0 (draw 5 0 0 base)) false 6 0 (draw 5 0 0 base)) = true ∧
    okE (readOpnd (ctxAt .v0 one) 0 false one) = true ∧ slotShare one (partOf one (cur one)) 3 = true ∧ slotShare one 0 16 = false ∧ slotShare one 0 15 = true ∧
    ringHas one 3 = 0 ∧ 1 ≤ ringHas ({ one with dev := { one.dev with rings := [(3, 1)] } } : State) 3 ∧ 4095 < 4096 := by decide +kernel

/-- A fill card of 64 bytes from G8 on. -/
def withCard : State := regs [(8, 0), (9, p2 0x20000), (10, 64), (11, 7)] base
/-- A card without peers, canopy rows, commit rows or a reduction, and without a counter, passes where its regions do; what p
says of its regions and of the state then holds of what it leaves. -/
theorem cardPasses_plain (s : State) (k : Card) (p : List JRegion → State → Bool) (h1 : k.op ≠ 0x106) (h2 : k.op ≠ 0x107) (h3 : k.op ≠ 0x108)
    (h4 : k.op ≠ 0x112) (h5 : k.op ≠ 0x103)
    (h : okB (locsCheck (ctxAt .c s) (k.srcs ++ k.idxs ++ k.dsts) s) (fun r => p r.1 r.2) = true) :
    ∃ u foot, CardPasses s k 0 u (0, []) foot ∧ p foot u = true := by
  obtain ⟨⟨f, u⟩, e, q⟩ := okB_spec _ _ h
  refine ⟨u, f, ⟨0, s, s, u, f, [], [], rfl, ?_, ?_, ?_, fun x => absurd x h4, ?_, ?_⟩, q⟩
  · simp [h1, h2]
  · simpa [h1] using e
  · simp [h3, h2]
  · simp [h4]
  · simp [h5]
/-- A copy card of 64 bytes that reads path 0's 0x20000, and the bytes buffered there. -/
def copyCard (s : State) : State := regs [(8, 0x20000), (9, p2 0x30000), (10, 64), (11, 0)] s
def copyLate (foot : List JRegion) (e : BufByte) : Bool := !e.prov && readsByte (cur (copyCard base)) foot e
/-- How a copy card whose checks pass meets the buffered bytes: 1 it waits for its own provisional ones, 2 a job holds the
others back, 3 it is accepted. -/
def copyEnd (s : State) (foot : List JRegion) (u : State) : Nat :=
  if (cur s).prov && u.gv.wbuf.any (fun e => e.task == (cur s).task && readsByte (cur s) foot e) then 1
  else if published (copyLate foot) (publish (copyLate foot) u) then 3 else 2
theorem test_hyp_JobCardsAreAccepted : jobSpec (.xfill q0 8 0 1 false) = some (q0, 0x105, 8, 0, 1, false) ∧ jobSpec (.xconv q0 8 0 1 false) = some (q0, 0x104, 8, 0, 1, false) ∧
    guardOn (cur withCard) q0 = true ∧ (cur withCard).prov = false ∧ ((cur (provi withCard)).prov = true ∧ 0x106 ∈ [0x106, 0x107, 0x111, 0x112]) ∧ cardOkBits (cardOf (regs [(10, 0)] withCard) 0x105 8) = false ∧
    cardOkBits (cardOf withCard 0x105 8) = true ∧ 0x105 ≠ 0x104 ∧ (∃ u foot, CardPasses withCard (cardOf withCard 0x105 8) 0 u (0, []) foot ∧ true = true) ∧
    64 ≤ (modGv withCard (fun g => { g with jobs := List.replicate 64 {} })).gv.jobs.length ∧ withCard.gv.jobs.length < 64 ∧ withCard.gv.wbuf = [] ∧
    fmtCheck (cur withCard) 16 = .ok () :=
  ⟨rfl, rfl, by decide +kernel, by decide +kernel, ⟨by decide +kernel, by decide⟩, by decide +kernel, by decide +kernel, by decide,
    cardPasses_plain _ _ (fun _ _ => true) (by decide) (by decide) (by decide) (by decide) (by decide) (by decide +kernel), by decide +kernel, by decide +kernel, by decide +kernel, rfl⟩

/-- The card reads a buffered byte of its own provisional task, one that a job holds back, one that goes home, and none. -/
theorem test_hyp_JobCardsAreAccepted_buffered : jobSpec (.xcopy q0 8 0 1 false) = some (q0, 0x100, 8, 0, 1, false) ∧
    (let s := copyCard (modGv (provi base) (fun g => { g with wbuf := [{ oneByte with prov := true }] })); cardOkBits (cardOf s 0x100 8) = true ∧
     ∃ u foot, CardPasses s (cardOf s 0x100 8) 0 u (0, []) foot ∧ (copyEnd s foot u == 1) = true) ∧
    (let s := copyCard heldStore; ∃ u foot, CardPasses s (cardOf s 0x100 8) 0 u (0, []) foot ∧ (copyEnd s foot u == 2) = true) ∧
    (let s := copyCard (modGv base (fun g => { g with wbuf := [oneByte] }))
     ∃ u foot, CardPasses s (cardOf s 0x100 8) 0 u (0, []) foot ∧ (copyEnd s foot u == 3) = true) :=
  ⟨rfl, ⟨by decide +kernel, cardPasses_plain _ _ (fun f u => copyEnd _ f u == 1) (by decide) (by decide) (by decide) (by decide) (by decide) (by decide +kernel)⟩,
    cardPasses_plain _ _ (fun f u => copyEnd _ f u == 2) (by decide) (by decide) (by decide) (by decide) (by decide) (by decide +kernel),
    cardPasses_plain _ _ (fun f u => copyEnd _ f u == 3) (by decide) (by decide) (by decide) (by decide) (by decide) (by decide +kernel)⟩

/-- A presentation of point 5: slot map row 0 naming slot 3, one residual row 1, 32 elements from 0. -/
def withTap : State :=
  setRow (onL (fun l => { l with op := lset l.op 9 32 }) (regs [(8, 2 ^ 19 + 2 ^ 8 + 5), (9, 32 * 2 ^ 20), (10, p2 0x20000), (11, 7)] withSlots)) 0 (0x80000003 :: List.replicate 31 0)
theorem test_hyp_TapAndShapeOps : guardOn (cur withTap) q0 = true ∧ (cur withTap).prov = false ∧ tapFieldsOk 0 0 = false ∧
    (let w0 := (gRead (cur withTap) 8).toNat
     let w1 := (gRead (cur withTap) 9).toNat
     let c := tapCard w0 w1
     let l := launchOf withTap (cur withTap).launch
     tapFieldsOk w0 w1 = true ∧ tapDeclared l c.point = true ∧ tapDeclared (launchOf withSlots 0) c.point = false ∧
     tapEn withTap (tapTab l) c.point = true ∧ tapStage withTap (tapTab l) c.point = c.stage ∧ tapEn withTap (tapTab l) 6 = false ∧
     c.off + c.len ≤ tapHid withTap (tapTab l) c.point ∧ rowB withTap c.map = true ∧ rowB withTap c.first = true ∧
     rowB withTap (c.first + c.count - 1) = true ∧ hasArrived withTap l = false ∧
     tapFullFor withTap (cur withTap).launch l (tapKeys withTap (cur withTap).launch (tapNprb withTap (tapTab l) c.point) c) c.point = false ∧
     okB (tapVectors (fun k => tapWord withTap (tapTab l) c.point (4 + 2 * k)) c.off c.len (List.range (tapNprb withTap (tapTab l) c.point)) withTap)
       (fun r => okE (tapVectors (fun e => steerWord r.2 (steerTab l) e 0) c.off c.len
         (((List.range c.count).filterMap (fun i => (tapSlot withTap c i).bind (fun k =>
           if bit (slotWord r.2 k 0).toNat 29 then none else (slotEntry r.2 k).filter (bit (tapWord r.2 (tapTab l) c.point 1))))).eraseDups) r.2)) = true) ∧
    64 ≤ gNat (regs [(2, 64)] base) 2 ∧ gNat (regs [(2, 63)] base) 2 < 64 ∧ (launchOf base 0).shaped = false ∧ (launchOf base 0).resolved = true ∧
    (let a := (gRead (cur withTap) 10).toNat
     a % 8 = 0 ∧ okE (addrCheck .ld a 8) = true ∧ pathOf a = 2 ∧ bits (gRead (cur withTap) 11).toNat 31 25 = 0 ∧
     bits (gRead (cur (regs [(11, 2 ^ 25)] withTap)) 11).toNat 31 25 ≠ 0 ∧ okB (xlateOp .st a withTap) (fun r => !storesWait (publish (ofStream withTap.sel) r.2) withTap.sel) = true ∧ withTap.gv.shres = []) ∧
    (cur (provi withTap)).prov = true ∧
    okB (xlateOp .st (p2 0x20000) heldStore) (fun r => storesWait (publish (ofStream heldStore.sel) r.2) heldStore.sel) = true ∧ heldStore.gv.shres = [] ∧
    (let s := modGv base (fun g => { g with shres := [{ pa := 0x20000, val := 7 }] }); storesWait s false = false ∧ s.gv.shres = [] ++ { pa := 0x20000, val := 7 } :: []) ∧
    (let s := publish (ofStream false) (modGv heldStore (fun g => { g with shres := [{ pa := 0x20000, val := 7 }, { strm := true, pa := 0x20008, val := 9 }] }))
     storesWait s false = true ∧ storesWait s true = false ∧ s.gv.shres = [{ pa := 0x20000, val := 7 }] ++ { strm := true, pa := 0x20008, val := 9 } :: []) := by decide +kernel

/-- The same with slot 3 steered by entry 0, which STEERMASK allows. -/
def withSteer : State := { withTap with dev := { withTap.dev with
  tap := rset 0 withTap.dev.tap 101 1, steer := [(0, w64 (p2 0x21000))], slotSteer := [(3, 1)], slotAlpha := [(3, 0x3F800000)] } }
theorem test_hyp_TapAndShapeOps_steered :
    let s := withSteer
    let c := tapCard (gRead (cur s) 8).toNat (gRead (cur s) 9).toNat
    let l := launchOf s 0
    let tab := tapTab l
    let np := tapNprb s tab c.point
    tapEn s tab c.point = true ∧ tapStage s tab c.point = c.stage ∧ 0 < np ∧ 0 < c.count ∧ tapSlot s c 0 = some 3 ∧ slotEntry s 3 = some 0 ∧
    (slotWord s 3 0).getLsbD 29 = false ∧ bit (tapWord s tab c.point 1) 0 = true ∧ (∃ i, i < 2 ∧ tapSlot s c i = none) ∧
    okB (tapVectors (fun k => tapWord s tab c.point (4 + 2 * k)) c.off c.len (List.range np) s)
      (fun r => okB (tapVectors (fun e => steerWord r.2 (steerTab l) e 0) c.off c.len [0] r.2) (fun q => decide (0 < q.1.length))) = true := by decide +kernel
/-- A finite code of FP32 is at most the largest value, and the largest is a code. -/
theorem largest_FP32 (s : Bool) : IsLargest fFP32 s ((2 ^ 24 - 1) * 2 ^ 104) := by
  constructor
  · refine ⟨(if s then 2 ^ 31 else 0) + (2 ^ 31 - 2 ^ 23 - 1), ?_, 2 ^ 24 - 1, 104, ?_, ?_⟩
    · cases s <;> decide
    · cases s <;> decide +kernel
    · norm_num
  · rintro c u ⟨hc, m, e, hd, rfl⟩
    have hm : m ≤ 2 ^ 24 - 1 ∧ e ≤ 104 := by
      have h1 : c % 8388608 < 8388608 := Nat.mod_lt _ (by norm_num)
      have h2 : c / 8388608 % 256 < 256 := Nat.mod_lt _ (by norm_num)
      simp only [decF, fFP32, beq_iff_eq, Bool.and_eq_true, decide_eq_true_eq] at hd
      norm_num at hd
      split_ifs at hd <;> simp at hd <;> omega
    have h : (m : ℚ) ≤ 16777215 := by
      have h0 : (m : ℚ) ≤ ((2 ^ 24 - 1 : ℕ) : ℚ) := by exact_mod_cast hm.1
      norm_num at h0
      exact_mod_cast h0
    have h3 : (2 : ℚ) ^ e ≤ 2 ^ (104 : ℤ) := zpow_le_zpow_right₀ (by norm_num) hm.2
    calc (m : ℚ) * 2 ^ e ≤ 16777215 * 2 ^ (104 : ℤ) := mul_le_mul h h3 (by positivity) (by norm_num)
      _ = _ := by norm_num
/-- A partial of one product 1, of no product, and a steered element 1 + 1 × 0, of zeros, and one that leaves the format. -/
theorem test_hyp_TapAndShapeOps_sums : ([0x3F80] : List Nat).length = [0x3F800000].length ∧ (decF (resFmt true) 0x3F80).isSpecial = false ∧
    (f32 0x3F800000).isSpecial = false ∧ ratOf (decF (resFmt true) 0x3F80) * ratOf (f32 0x3F800000) = 1 ∧
    IsStep fE8M31 1 ((2 : ℚ) ^ (-31 : Int)) ∧ Nearest fE8M31 1 ((2 : ℚ) ^ (-31 : Int)) (2 ^ 31) ∧ IsLargest fE8M31 false ((2 ^ 32 - 1) * 2 ^ 96) ∧
    ratOf (decF (resFmt false) 0x3F800000) + ratOf (f32 0x3F800000) * ratOf (f32 0) = 1 ∧ IsStep fFP32 1 ((2 : ℚ) ^ (-23 : Int)) ∧
    Nearest fFP32 1 ((2 : ℚ) ^ (-23 : Int)) (2 ^ 23) ∧ IsLargest fFP32 false ((2 ^ 24 - 1) * 2 ^ 104) ∧
    ratOf (decF (resFmt false) 0) + ratOf (f32 0) * ratOf (f32 0) = 0 ∧
    ratOf (decF (resFmt false) 0x7F7FFFFF) + ratOf (f32 0x3F800000) * ratOf (f32 0x7F7FFFFF) = (2 ^ 24 - 1) * 2 ^ 105 ∧
    IsStep fFP32 ((2 ^ 24 - 1) * 2 ^ 105) ((2 : ℚ) ^ (105 : Int)) ∧ Nearest fFP32 ((2 ^ 24 - 1) * 2 ^ 105) ((2 : ℚ) ^ (105 : Int)) (2 ^ 24 - 1) ∧
    ((2 : ℚ) ^ 24 - 1) * 2 ^ 104 < ((2 ^ 24 - 1 : Nat) : ℚ) * (2 : ℚ) ^ (105 : Int) := by
  have h1 : decF (resFmt true) 0x3F80 = .fin false 128 (-7) := by decide +kernel
  have h2 : f32 0x3F800000 = .fin false (2 ^ 23) (-23) := by decide +kernel
  have h3 : decF (resFmt false) 0x3F800000 = .fin false (2 ^ 23) (-23) := by decide +kernel
  have h4 : f32 0 = .fin false 0 (-149) := by decide +kernel
  have h5 : decF (resFmt false) 0 = .fin false 0 (-149) := by decide +kernel
  have h6 : decF (resFmt false) 0x7F7FFFFF = .fin false (2 ^ 24 - 1) 104 := by decide +kernel
  have h7 : f32 0x7F7FFFFF = .fin false (2 ^ 24 - 1) 104 := by decide +kernel
  rw [h1, h2, h3, h4, h5, h6, h7]
  refine ⟨rfl, rfl, rfl, ?_, test_hyp_BlockStepsAndRoundings_sum.1, test_hyp_BlockStepsAndRoundings_sum.2.1, largest_E8M31 false, ?_, ?_, ?_,
    largest_FP32 false, ?_, ?_, ?_, ?_, ?_⟩
  · norm_num [ratOf]
  · norm_num [ratOf]
  · simp only [IsStep, fFP32]; exact ⟨0, by norm_num, by norm_num, by norm_num⟩
  · norm_num [Nearest]
  · norm_num [ratOf]
  · norm_num [ratOf]
  · simp only [IsStep, fFP32]; exact ⟨128, by norm_num, by norm_num, by norm_num⟩
  · norm_num [Nearest]
  · norm_num

/-- How an issue ends: 0 fault, 1 wait, 2 commit. -/
def endKind (e : IssueEnd) : Nat := match e with | .fault _ _ => 0 | .stall _ => 1 | .commit _ => 2
def addHdr : Word := 0x8080000000000000
def addOps : List Word := [0x0000000420C00000]
/-- Two VADDs of a salvaged Grove, in v0 and in v1. -/
def vecHdr : Word := 0x8030000000000000
def vecOps : List Word := encode (.vadd q0 .fp32 2 0 1 false) ++ encode (.vadd q0 .fp32 3 0 1 false)
def salvaged : State := withSel true (modGv twoStreams (fun g => { g with salvaged := true }))
/-- Stream 1 is secondary and has been denied 63 cycles. -/
def deniedOut : State := { twoStreams with st1 := { twoStreams.st1 with denied := 63 } }
theorem test_hyp_BundleIssueAndForcedIssue : canIssue (withSel true base) = false ∧ canIssue (withSel false base) = true ∧ base.gv.salvaged = false ∧
    endKind (issueEnd addHdr addOps (withSel false base)) = 2 ∧
    endKind (issueEnd 0x8004000000000000 [0x000050008A090000] (withSel false (regs [(17, 5), (18, p2 0x20000)] base))) = 1 ∧
    endKind (issueEnd 0x8080000000000000 [0x0000620000000000] (withSel false base)) = 0 ∧ collides (withSel false base) [0] = false ∧
    collides (withSel true (modGv twoStreams (fun g => { g with issued := some (0, false, 1) }))) [0] = true ∧
    endKind (issueEnd addHdr addOps (withSel true (modGv twoStreams (fun g => { g with issued := some (0, false, 1) })))) ≠ 1 ∧
    forcedDue (withSel (!base.gv.primary) base) addHdr addOps = false ∧ forcedDue (withSel (!deniedOut.gv.primary) deniedOut) addHdr addOps = true ∧
    endKind (issueEnd addHdr addOps (withSel (!deniedOut.gv.primary) deniedOut)) = 2 ∧
    (canIssue salvaged = true ∧ salvaged.gv.salvaged = true ∧ ((contribs (cur salvaged) vecHdr vecOps).map (fun k => k.pos)) = [.v0, .v1] ∧
     skips (cur salvaged) vecHdr = false ∧ (cur salvaged).half = false ∧
     (bundleFault (cur salvaged) vecHdr vecOps (contribs (cur salvaged) vecHdr vecOps)).isNone = true ∧
     endKind (issueEnd vecHdr vecOps salvaged) = 2 ∧ collides salvaged [posNum .v0] = false ∧
     collides (modGv salvaged (fun g => { g with issued := some (0, false, 2 ^ posNum .v0) })) [posNum .v0] = true) ∧
    (let s := modCur salvaged (fun c => { c with half := true }); endKind (issueEnd vecHdr vecOps s) = 2 ∧ (cur s).half = true ∧ canIssue s = true) ∧
    (cur (withSel (!deniedOut.gv.primary) deniedOut)).half = false ∧ deniedOut.gv.salvaged = false ∧
    overrunDue (strm base false) = false ∧ overrunDue { base.st0 with segOn := true, used := 65536 } = true ∧
    (contribs (cur salvaged) 0x8010000000000000 (encode (.vadd q0 .fp32 3 0 1 false))).map (fun k => k.pos) = [.v1] ∧
    endKind (issueEnd 0x8010000000000000 (encode (.vadd q0 .fp32 3 0 1 false)) salvaged) = 2 ∧
    (let s := modCur salvaged (fun c => { c with overrun := true })
     (bundleFault (cur s) vecHdr vecOps (contribs (cur s) vecHdr vecOps)).isSome = true ∧ endKind (issueEnd vecHdr vecOps s) = 0 ∧
     ((contribs (cur s) vecHdr vecOps).map (fun k => k.pos)) = [.v0, .v1]) ∧
    deniedOut.gv.primary = false ∧ (strm deniedOut false).status = .running ∧ (strm deniedOut false).idleSeen = none ∧ (strm deniedOut false).ending = false := by decide +kernel

/-- Stream 0 idle, and a ready record of the placed launch in queue 0. -/
def withRecord : State := { base with st0 := {}, dev := { base.dev with queues := [(0, { bound := some 0, entries := [{ released := true, checked := true, readyAt := some 0 }] })] } }
/-- A faulted task without an MRF window to be saved, with one free context slot. -/
def toSave : State := { (modCur base (fun c => { c with status := .faulted, saveWant := some 2, r3 := 8192 })) with dev := { base.dev with ctxarea := [(0, w64 (2 ^ 20 + 1))] } }
theorem test_hyp_ArbitrationSlicesAndSaves : hasTask (strm base false) = true ∧ (choose (tellAway { strm := true } base) true).isNone = true ∧ hasTask (strm (tellAway { strm := false } base) false) = true ∧
    someB (choose (tellAway { strm := false } withRecord) false) (fun x => x.1 == 0 && x.2.resume.isNone) = true ∧
    hasTask (strm (tellAway { strm := false } withRecord) false) = false ∧
    (let s := { base with now := 4096 }; s.gv.sliceStart + s.gv.slice ≤ s.now) ∧ base.now < base.gv.sliceStart + base.gv.slice ∧
    savesNow false base = false ∧ base.gv.heldTasks.all (fun c => c.prov || !saveReady base c) = true ∧ savesNow false toSave = true ∧
    (let s := modCur base (fun c => { c with saveWant := some 2, pend := [{}] })
     savesNow false s = false ∧ saveHolds (strm s false) = true ∧ (strm s false).status = .running ∧ s.gv.heldTasks = []) ∧
    (let s := modCur base (fun c => { c with saveWant := some 2 })
     savesNow false s = false ∧ saveHolds (strm s false) = true ∧ saveSettled s (strm s false) = true ∧ freeCtx s (partOf s (strm s false)) = none) ∧
    (let s : State := { toSave with dev := { toSave.dev with ctxarea := [(0, w64 (2 ^ 56 + 1))] } }
     savesNow false s = true ∧ freeCtx s (partOf s (strm s false)) = some 0 ∧
     (putPieces 0 (slotAddr s 0 0) (imagePieces s false (strm s false) false) (publish (saveStores (strm s false)) s)).isNone = true) ∧
    (strm toSave false).saveWant = some 2 ∧ freeCtx toSave (partOf toSave (strm toSave false)) = some 0 ∧
    (putPieces 0 (slotAddr toSave 0 0) (imagePieces toSave false (strm toSave false) false) (publish (saveStores (strm toSave false)) toSave)).isSome = true := by
  decide +kernel
theorem test_hyp_EffectiveRankAges : recRank (7 : Word) = 7 ∧ recRank (6 : Word) ≠ 7 ∧ ({ readyAt := some 0 } : QEntry).readyAt = some 0 := by decide

/-- The placed launch at a step of its boundary, its stream idle. -/
def atStep (st : LaunchStatus) : State := onL (fun l => { l with st := st }) { base with st0 := {} }
/-- A task of the placed launch's phase runs on another Grove. -/
def awayOn (s : State) : State := { s with dev := { s.dev with away := [{ tile := 3 }] } }
theorem test_hyp_PhaseStepsOfALaunch :
    (let t := settleAll (takePinned 0 [] (endAway (fun a => a.launch == 0 && a.phase == curPhase (launchOf (awayOn (atStep .active)) 0)) (awayOn (atStep .active))))
     (launchOf t 0).st = .active ∧ allArrived t (launchOf t 0) [] = true ∧ popEmpty t 0 = true) ∧
    (let t := settleAll (takePinned 0 [] (endAway (fun a => a.launch == 0 && a.phase == curPhase (launchOf base 0)) base)); popEmpty t 0 = false) ∧
    (launchOf (atStep .drain) 0).st = .drain ∧ published (drainStores 0) (publish (drainStores 0) (atStep .drain)) = true ∧
    (let s := modGv (atStep .drain) (fun g => { g with wbuf := [oneByte], jobs := [{ seq := 1, st := .running, foot := [{ lo := 0x20000, len := 64 }] }] })
     published (drainStores 0) (publish (drainStores 0) s) = false) ∧
    (launchOf (atStep .exchange) 0).st = .exchange ∧ (∀ j ∈ (atStep .exchange).gv.jobs, ¬ (j.launch = 0 ∧ j.exch = true)) ∧
    (launchOf (atStep .resolve) 0).st = .resolve ∧ (launchOf (atStep .resolve) 0).settled = true ∧
    (let s := onL (fun l => { l with settled := false }) (atStep .resolve)
     (launchOf s 0).settled = false ∧ published (lateStores 0) (publish (lateStores 0) s) = true) ∧
    (launchOf (atStep .compare) 0).st = .compare ∧ (launchOf (atStep .flip) 0).st = .flip ∧ tapSent (atStep .flip) 0 = true ∧
    laterRecs { (atStep .flip) with dev := { (atStep .flip).dev with queues := [(0, { entries := [{ w3 := 4096 }] })] } } 0 = true ∧
    (launchOf (atStep .faulted) 0).st = .faulted ∧ tasksOf (atStep .faulted) 0 = false ∧ mayEnd (atStep .faulted) 0 = true ∧
    (cmdq (atStep .faulted) (launchOf (atStep .faulted) 0).cmdq).chain.active ≠ some 0 ∧ (launchOf (atStep .flip) 0).stalled = false ∧ (launchOf (atStep .evicted) 0).st = .evicted ∧
    (let s : State := { (atStep .flip) with dev := { (atStep .flip).dev with ringWait := [{ ring := ringKey 0 0 0, words := [w64 (0x90 * 2 ^ 48)] }] } }
     (launchOf s 0).st = .flip ∧ tapSent s 0 = false ∧ (launchOf s 0).stalled = false) ∧
    exchangeDone (modGv (atStep .exchange) (fun g => { g with jobs := [{ exch := true }] })) 0 = false := by decide +kernel
/-- Neither a record, nor a task, nor a shape, nor a tile is left of the placed launch. -/
def noneLeft (s : State) : Bool := !laterRecs s 0 && !tasksOf s 0 && !pendingShape (launchOf s 0) && decide ((launchOf s 0).tileEnd ≤ (launchOf s 0).tileNext)
theorem test_hyp_PhaseStepsOfALaunch_ends :
    (noneLeft (atStep .flip) = true ∧ tapSent (atStep .flip) 0 = true ∧ mayEnd (atStep .flip) 0 = true ∧
      (cmdq (atStep .flip) (launchOf (atStep .flip) 0).cmdq).chain.active ≠ some 0) ∧
    (let s := modGv (atStep .flip) (fun g => { g with jobs := [{ seq := 1 }] }); noneLeft s = true ∧ tapSent s 0 = true ∧ mayEnd s 0 = false) ∧
    ((launchOf (atStep .waitJobs) 0).st = .waitJobs ∧ mayEnd (atStep .waitJobs) 0 = true) ∧
    (let q : CmdQ := { cur := some { q := 0, opc := 1, nw := 1, cmpl := false, fnc := false, tag := 0, caddr := 0, pay := [] }, chain := { active := some 0 } }
     let s : State := { (atStep .flip) with dev := { (atStep .flip).dev with cmdqs := [(0, q)], queues := [(0, { bound := some 0 })] } }
     noneLeft s = true ∧ tapSent s 0 = true ∧ mayEnd s 0 = true ∧ (launchOf s 0).cmdq = 0 ∧ (cmdq s 0).chain.active = some 0 ∧ (cmdq s 0).chain.shadow = none ∧
     (cmdq s 0).chain.bad = none ∧ (cmdq s 0).chain.todo = [] ∧ (queueOf s (opQueue (launchOf s 0))).bound = some 0 ∧ waitingOps (cmdq s 0) = [] ∧
     s.dev.recovering = false ∧ someB (cmdq s 0).cur (fun p => p.opc == 1) = true) := by decide +kernel
/-- A shaped launch whose shape word stands at 0x20000: ten tiles, arrived. -/
def withShape : State :=
  putWord (onL (fun l => { l with op := lset (lset l.op 0 (l.op.getD 0 0 ||| w64 (2 ^ 31))) 1 (w64 (2 ^ 32 + 2 ^ 16 + 64)), gx := 64, shaped := true, resolved := false, shapePa := 0x20000 }) base) .dev 0x20000 (w64 (2 ^ 32 + 10))
/-- A packet of command queue 0 without a completion record. -/
def pkt (opc : Nat) (pay : List Word) : Pkt :=
  { q := 0, opc := opc, nw := pay.length + 1, cmpl := false, fnc := false, tag := 0, caddr := 0, pay := pay }
/-- Command queue 0 performs a LAUNCH with a chain. -/
def withChain (c : Chain) : State := { base with dev := { base.dev with ptab := rset 0 (rset 0 base.dev.ptab 5 4) 2 1, cmdqs := [(0, { cur := some (pkt 1 []), chain := c })] } }
theorem test_hyp_ShapesResolveAndOperatorsExpand : shapeArrived base 0 = false ∧ shapeArrived withShape 0 = true ∧ chainReady base 0 = false ∧
    (let s := withChain { active := some 0, todo := [placedOp] }
     chainReady s 0 = true ∧ freeSlot s = some 1 ∧ expandStatus s 0 placedOp = stOk ∧ expandStatus s 0 (lset placedOp 12 1) ≠ stOk ∧
     chainReady (withChain { active := some 0, todo := [lset placedOp 12 1] }) 0 = true) ∧
    (let s := onL (fun l => { l with st := .loaded }) (withChain { shadow := some 0 })
     chainReady s 0 = true ∧ (cmdq s 0).chain.active = none ∧ (cmdq s 0).chain.hold = false ∧ s.dev.recovering = false ∧ (cmdq s 0).chain.shadow = some 0 ∧
     gridOk (launchFrom s 0 (launchOf s 0).op) = true ∧ opShp (launchFrom s 0 (launchOf s 0).op) = false ∧ (cmdq s 0).part ≠ mgmtPart) := by decide +kernel
/-- A fill of 64 bytes in the sequencer. -/
def fillJob : Job := { seq := 7, op := 0x105, cw1 := w64 (p2 0x20000), cw2 := 64, cw3 := 7, foot := [{ lo := 0x20000, len := 64, wr := true }] }
def withJob (j : Job) : State := modGv base (fun g => { g with jobs := [j] })
theorem test_hyp_JobEventsRunCards : (jobOf base 7).isNone = true ∧ (jobOf (withJob fillJob) 7).isSome = true ∧
    jobStarts (withJob fillJob) { fillJob with st := .running } = false ∧ jobStarts (withJob fillJob) fillJob = true ∧ fillJob.tries < 2 ∧ fillJob.prov = false ∧
    okE (jobRun fillJob (withJob fillJob)) = true ∧ submits fillJob = false ∧
    (let j : Job := { seq := 7, op := 0x110, st := .running, cw0 := w64 (p2 0x20000), cw1 := w64 (p2 0x30000), cw2 := w64 (2 ^ 32 + 2 ^ 16 + 1) }
     submitReady (withJob j) j = true ∧ okE (locsPlaces j (jobCard j).dsts (withJob j)) = true ∧ submitReady (withJob j) { j with asks := [1] } = true ∧
     (∀ i ∈ (withJob j).gv.jobs, submits i = true → i.seq < 7 → (launchOf (withJob j) i.launch).part ≠ (launchOf (withJob j) j.launch).part) ∧
     (let s : State := { (withJob j) with asked := [{ id := 1, line := 1024, n := 1 }] }; submitReady s { j with asks := [1] } = false)) ∧
    (let j := { fillJob with st := .running, lost := true, tries := 1 }; jobOf (withJob j) 7 = some j ∧ j.lost = true ∧ j.tries < 2) ∧
    (let j := { fillJob with prov := true }
     okB (jobRun j (withJob { j with red := List.replicate (2 ^ 17) {} })) (fun r => decide (2 ^ 20 < stagedBytes (withJob { j with red := List.replicate (2 ^ 17) {} }) + heldSize r.1.out)) = true ∧
     okB (jobRun j (withJob j)) (fun r => decide (stagedBytes (withJob j) + heldSize r.1.out ≤ 2 ^ 20)) = true ∧ jobStarts (withJob j) j = true) ∧
    jobFinishes (withJob fillJob) fillJob = false ∧ jobFinishes base { fillJob with st := .running } = true ∧
    jobFinishes base { fillJob with st := .running, prov := true } = true ∧
    (let j : Job := { seq := 7, op := 0x106, st := .running, cw0 := w64 (p2 0x20000), cw1 := w64 (p2 0x30000), cw2 := 4, send := [1, 2, 3, 4] }
     jobFinishes base j = true ∧ (collResult j []).isSome = true ∧ okE (locsPlaces j (jobCard j).dsts base) = true ∧ fabricJob j = true ∧
     (collResult { j with peer := 1, cw3 := w64 (2 ^ 40) } []).isNone = true) ∧
    fabricJob { fillJob with op := 0x107, st := .running } = true ∧ fabricJob fillJob = false ∧
    (∀ p ∈ base.dev.live, ¬ 0 < bits (ptw base p 12) 10 0) ∧ (peerPart base ⟨0, 0, 0⟩).isNone = true ∧
    (let s : State := { base with dev := { base.dev with peers := [(0, w64 (2 ^ 62))], ptab := rset 0 (rset 0 (rset 0 base.dev.ptab 12 1) 13 (w64 0x40000)) 14 64 } }
     peerPart s ⟨0, 0, 0⟩ = some 0 ∧ 0 ∈ s.dev.live ∧ 0 < bits (ptw s 0 12) 10 0 ∧ bits (peerWord s 0 0 0) 63 62 = 1 ∧ bits (peerWord s 0 0 0) 31 0 = 0 ∧
     peerWord s 0 0 1 = 0 ∧ peerWord s 0 0 2 = 0 ∧ (peerPart s ⟨1, 0, 0⟩).isNone = true ∧ (peerPart s ⟨0, 0, 1⟩).isNone = true ∧ ptw s 0 14 < 1 + 64 ∧ 0 + 64 ≤ ptw s 0 14 ∧ (devStore 0 (ptw s 0 13 + 0) [1] s).isSome = true) := by decide +kernel
/-- An XRED of two FP32 elements, with none, one or two staged. -/
def redJob : Job := { seq := 7, op := 0x103, cw0 := w64 (p2 0x20000), cw1 := w64 (p2 0x30000), cw2 := w64 (16 * 2 ^ 52 + 2 * 2 ^ 24) }
/-- An SPALLOC that names slot 1. -/
def allocJob : Job := { seq := 7, op := 0x111, cw0 := w64 (p2 0x20000), cw1 := w64 (p2 0x30000), cw2 := w64 (9 * 2 ^ 16 + 1) }
/-- An XCANW of one row. -/
def canwJob : Job := { seq := 7, op := 0x108, cw0 := w64 (p2 0x20000), cw2 := 1, task := 9 }
/-- A GCMT that runs over rows. -/
def gcmtJob (rows : List (List Lane)) : Job := { seq := 7, op := 0x112, st := .running, rows := rows }
def jobIn (j : Job) (s : State) : State := modGv s (fun g => { g with jobs := [j] })
theorem test_hyp_JobEventsRunCards_kinds :
    (jobStarts (withJob redJob) redJob = true ∧ redJob.st = .queued ∧ stagedBytes (withJob redJob) + 8 * 2 ≤ 2 ^ 20 ∧ redChunk redJob = [0, 1] ∧
      (redStage [0, 1] { redJob with lost := false } (withJob redJob)).2.1.isNone = true) ∧
    (let j := { redJob with st := .running, wait := [0], red := [{}] }; jobStarts (withJob j) j = true ∧ j.wait.length < (redChunk j).length ∧ j.fail ≠ 3) ∧
    (let j := { redJob with red := List.replicate (2 ^ 17) {} }; jobStarts (withJob j) j = true ∧ 2 ^ 20 < stagedBytes (withJob j) + 8 * (redChunk j).length) ∧
    (let j := { redJob with st := .running, wait := [0, 1] }; jobStarts (withJob j) j = true ∧ j.wait.length = (redChunk j).length ∧ j.fail ≠ 3 ∧ j.prov = false) ∧
    (let s := putWord withSlots .dev 0x20000 (w64 (2 ^ 31 + 1))
     jobStarts (jobIn allocJob s) allocJob = true ∧ okE (locsPlaces allocJob (jobCard allocJob).dsts (jobIn allocJob s)) = true ∧
     okB (readLocs allocJob (jobCard allocJob).srcs (jobIn allocJob s)) (fun r => spallocSlots r.1 (bits allocJob.cw2.toNat 12 0) == [1]) = true ∧
     slotShare (jobIn allocJob s) (launchOf (jobIn allocJob s) 0).part 1 = true) ∧
    (let s := putWord withSlots .dev 0x20000 (w64 (2 ^ 31 + 100))
     jobStarts (jobIn allocJob s) allocJob = true ∧ slotShare (jobIn allocJob s) (launchOf (jobIn allocJob s) 0).part 100 = false ∧
     okB (readLocs allocJob (jobCard allocJob).srcs (jobIn allocJob s)) (fun r => spallocSlots r.1 (bits allocJob.cw2.toNat 12 0) == [100]) = true) ∧
    (let j := { canwJob with st := .running }
     jobStarts (jobIn canwJob withHandles) canwJob = true ∧ jobStarts (jobIn j withHandles) j = true ∧ canwJob.lost = false ∧
     okE (readLocs canwJob [⟨bit canwJob.cw2.toNat 63, canwJob.cw0.toNat, 8192 * canwJob.done, 8192, false, 1, false⟩] (jobIn canwJob withHandles)) = true) ∧
    (let r : List Lane := 0x80001002 :: 77 :: List.replicate 30 0
     let j (rs : List (List Lane)) := gcmtJob rs
     let up (rs : List (List Lane)) := jobStarts (jobIn (j rs) withSlots) (j rs) = true
     up [r] ∧ rowValid r = true ∧ rowBad (jobIn (j [r]) withSlots) (launchOf withSlots 0).part [] r = false ∧ (j [r]).done < (j [r]).rows.length ∧
     up [0x80001064 :: r] ∧ rowBad withSlots (launchOf withSlots 0).part [] (0x80001064 :: r) = true ∧ rowValid (0x80001064 :: r) = true ∧
     up [0 :: r] ∧ rowValid (0 :: r) = false ∧ up [] ∧ (j []).done = (j []).rows.length) ∧
    (let j := { redJob with st := .running, lost := true, red := [{ lines := [3] }, { elem := 1, lines := [4] }], lostLines := [3] }
     jobOf (withJob j) 7 = some j ∧ j.tries < 2 ∧ (replayed j).red.length = 1) ∧
    (let j : Job := { seq := 7, op := 0x110, st := .running, cw0 := w64 (p2 0x20000), cw1 := w64 (p2 0x30000), cw2 := w64 (2 ^ 32 + 2 ^ 16 + 1), prov := true }
     let s := withJob { j with red := List.replicate (2 ^ 17) {} }
     submitReady s j = true ∧ okB (locsPlaces j (jobCard j).dsts s) (fun r => decide (2 ^ 20 < stagedBytes s + 1 ∧ 0 < r.1.length)) = true) ∧
    slotEligible (putSlotWord withSlots 1 0 (w64 (2 ^ 31))) 1 = true ∧ slotEligible withSlots 1 = false := by decide +kernel
def oneStack (k : Stack) (h : WHandle) : State := { base with dev := { base.dev with orstk := [(0, k)], wh := [(5, h)] } }
/-- A read of page 0 of handle 5. -/
def aRead : PageRead := { handle := 5, page := 0, lpn := 3 }
def aReq : WHandle := { st := whRequested, hbm := true, npage := 1, base := 0x40000 }
theorem test_hyp_OrchardEventsMoveHandlesAndBlocks :
    (nextRead (retryRooms base) (stackOf (retryRooms base) 0)).isNone = true ∧
    (let u := retryRooms (oneStack { reads := [aRead] } aReq)
     nextRead u (stackOf u 0) = some aRead ∧ aRead.lpn ∉ (stackOf u 0).lost ∧ (stackOf u 0).stkfail = false) ∧
    (let u := retryRooms (oneStack { reads := [aRead], lost := [3] } aReq); nextRead u (stackOf u 0) = some aRead ∧ aRead.lpn ∈ (stackOf u 0).lost) ∧
    (let u := retryRooms (oneStack { reads := [aRead], stkfail := true } aReq); nextRead u (stackOf u 0) = some aRead ∧ (stackOf u 0).stkfail = true) ∧
    (let s := oneStack { reads := [aRead, { aRead with page := 1, issued := true }] } { aReq with st := whInFlight, npage := 2 }
     (∀ r ∈ (stackOf s 0).reads, r.writes = none ∧ liveRead s r = true) ∧ ((stackOf s 0).reads.filter (fun r => r.writes.isNone)).length ≠ 0 ∧
     (∀ r ∈ (stackOf s 0).reads, r.handle ≠ 6)) ∧
    (stackOf base 0).reads = [] ∧
    (let r := { aRead with issued := true, writes := some [] }
     let s := oneStack { reads := [r] } { aReq with st := whInFlight }
     (stackOf s 0).reads.find? (rowsWritten s) = some r) ∧
    (let r := { aRead with issued := true }
     let s := oneStack { reads := [r] } { aReq with st := whInFlight }
     (stackOf s 0).reads.find? (rowsWritten s) = none ∧ (stackOf s 0).reads.find? (fun r => r.issued && r.writes.isNone) = some r ∧ liveRead s r = true ∧
     (stackOf s 0).reads.find? (fun r => r.issued && r.writes.isNone && canLand s r) = some r ∧ (whOf s r.handle).hbm = true ∧ (whOf s r.handle).st = whInFlight ∧
     (r.page :: (whOf s r.handle).landed.filter (fun p => p != r.page)).length = (whOf s r.handle).npage) ∧
    evictionOver base (whOf base 5) = false ∧ evictionOver (oneStack {} { aReq with st := whEvicting }) { aReq with st := whEvicting } = true ∧
    evictionOver (oneStack {} { aReq with st := whEvicting, demand := true }) { aReq with st := whEvicting, demand := true } = true ∧
    nextReloc (stackOf base 0) = none ∧ nextReloc { relocs := [{ lblk := 2 }] } = some { lblk := 2 } ∧
    leastErased { freeFrom := 139264 } (freePool { freeFrom := 139264 }) = none ∧ leastErased { freeFrom := 139264, free := [9] } (freePool { freeFrom := 139264, free := [9] }) = some 9 ∧
    (let s := oneStack { reads := [{ aRead with issued := true, order := 4 }] } { aReq with st := whInFlight, order := 5 }
     ∀ r ∈ (stackOf s 0).reads, liveRead s r = false) ∧
    running { relocs := [{ lblk := 2, stage := 1 }] } = some { lblk := 2, stage := 1 } ∧ running ({} : Stack) = none ∧
    erasable ({} : Stack) = none ∧ erasable { relocs := [{ lblk := 2, stage := 2 }] } = some { lblk := 2, stage := 2 } := by decide +kernel
def onePc (p : Pc) : State := { base with dev := { base.dev with hbm := [(0, p)] } }
theorem test_hyp_HbmAndThermalEvents : rget 0 ({ openRow := [(1, 6)] } : Pc).openRow 1 = 5 + 1 ∧ rget 0 ({} : Pc).openRow 1 ≠ 5 + 1 ∧
    rget 0 ({} : Pc).mc (8192 * 1 + 5) + 1 < ({} : Pc).mat ∧ ({} : Pc).mat ≤ rget 0 ({ mc := [(8197, 1023)] } : Pc).mc (8192 * 1 + 5) + 1 ∧
    ¬ (8 < 8) ∧ (7 < 8 ∧ 127 < 128 ∧ 31 < 32 ∧ 8191 < 8192) ∧ (pcOf (onePc { failed := true }) 0 (chanPc 0)).failed = true ∧ (pcOf base 0 (chanPc 0)).failed = false ∧
    3 ∈ (pcOf (onePc { retiredBanks := [3] }) 0 0).retiredBanks ∧ 3 ∉ (pcOf base 0 0).retiredBanks ∧ mustWait base 0 0 { bank := 3, evt := .write } = false ∧
    mustWait (onePc { retraining := true }) 0 0 { bank := 3, evt := .write } = true ∧ mustWait (onePc { replay := some {} }) 0 0 { bank := 3 } = true ∧
    mustWait (onePc { retiredBanks := [3] }) 0 0 { bank := 3, evt := .write } = false ∧ windowOver base 0 0 3 = false ∧ windowOver { (onePc { busy := [(3, 5)] }) with now := 10 } 0 0 3 = true ∧
    (pcOf (onePc { busy := [(3, 5)] }) 0 0).wait = [] ∧ rowIdle base 0 0 3 = false ∧
    rowIdle { (onePc { openRow := [(3, 1)] }) with now := 100000 } 0 0 3 = true ∧ reloadBank (pcOf base 0 0) = none ∧
    reloadBank { poison := [3], reloading := true } = some 3 ∧ (pcOf (onePc { poison := [3] }) 0 0).wait = [] ∧
    (let s := onePc { poison := [3], reloadTries := 2, wait := [{ bank := 3, evt := .write }] }
     (pcOf s 0 0).wait = [{ bank := 3, evt := .write }] ∧ (pcOf s 0 0).replay = none ∧ inWindow s 0 0 3 = false ∧ reloadBank (pcOf s 0 0) = some 3) ∧ ({} : Pc).reloadTries < 2 ∧ 2 ≤ ({ reloadTries := 2 } : Pc).reloadTries ∧
    ({} : Pc).retraining = false ∧ ({} : Pc).replay = none ∧ ({ replay := some {}, replays := 7 } : Pc).replays < 8 ∧ 8 ≤ ({ replay := some {}, replays := 8 } : Pc).replays ∧
    (askOf base 0 0 3 0).isNone = true ∧ askOf ({ base with asked := [{ id := 7, line := 0, n := 1, want := [0] }] } : State) 0 0 0 0 = some { id := 7, line := 0, n := 1, want := [0] } ∧
    evtError (.uncorrectable 3) = true ∧ evtError .ok = false ∧ (pcOf (onePc { retraining := true }) 0 (chanPc 1)).retraining = true ∧
    ({} : Pc).retries < 2 ∧ 2 ≤ ({ retries := 2 } : Pc).retries ∧ 448 ≤ 448 ∧ 448 % 64 = 0 ∧ 2 ≤ 2 ∧ 15 < 16 ∧ base.dev.inletHot = false ∧ 15 ≠ base.gv.id % 16 ∧
    0 = base.gv.id % 16 ∧ 45 < 46 ∧ 39 < 40 ∧
    (let hot (tin : Nat) (s : State) : Bool := decide (45 < tin % 256) || (s.dev.inletHot && !decide (tin % 256 < 40))
     let s : State := { base with dev := { base.dev with inletHot := true } }
     hot 46 base = true ∧ hot 45 base = false ∧ (hot 40 s = true ∧ 40 % 256 ≤ 45) ∧ hot 39 s = false) := by decide +kernel

/-- The placed partition with four work queues, sixteen slots, ASID 0, handles 0 to 7, and queues owned by the supervisor. -/
def withQ (c : CmdQ) : State := { base with dev := { base.dev with ptab := rset 0 (rset 0 (rset 0 (rset 0 base.dev.ptab 3 8) 4 16) 5 4) 2 1, cmdqs := [(0, c)] } }
def idleQ : State := withQ { owner := true }
/-- The packet may be performed and passes its own checks. -/
def performsB (s : State) (p : Pkt) : Bool := mayPerform s p && nwOk p && payOk p && caddrOk p && accepted s p
theorem performsB_spec (s : State) (p : Pkt) (h : performsB s p = true) : Performs s p := by
  simp only [performsB, Bool.and_eq_true] at h
  exact ⟨h.1.1.1.1, h.1.1.1.2, h.1.1.2, h.1.2, h.2⟩
def loads8 (part a : Nat) (s : State) : Bool := (devLoad part a 8 s).1.isSome
/-- An image of type 1 without a payload. -/
def emptyImage : List Byte := natLe 4 0x5A534C50 ++ natLe 4 1 ++ natLe 4 9 ++ natLe 4 512 ++ sha256 [] ++ List.replicate 464 0
/-- What the image of PATCH's second case needs besides what the vendor keeps secret: a signature that is valid. -/
theorem test_hyp_patchImage (h : Config.signatureValid (emptyImage.take 512) = true) (k : Config.minSvn 1 ≤ 9) : imageAccepted emptyImage = true := by
  have e : imageField emptyImage 4 = 1 := by decide +kernel
  have f : imageField emptyImage 8 = 9 := by decide +kernel
  have g : (decide (512 ≤ emptyImage.length) && imageField emptyImage 0 == 0x5A534C50 && imageField emptyImage 12 == emptyImage.length &&
    sha256 (emptyImage.drop 512) == (emptyImage.drop 16).take 32 && ((emptyImage.drop 48).take 80).all (fun b => b == 0)) = true := by decide +kernel
  simp only [Bool.and_eq_true] at g
  unfold imageAccepted
  simp only [e, f, h, k, g, Bool.and_true, decide_true, beq_self_eq_true, Bool.true_or]
theorem test_hyp_PacketsOfEveryQueueComplete :
    (let p := { pkt 0x14 [w64 (8 * 2 ^ 23), 0x40000] with nw := 4 }
     mayPerform (withQ {}) p = true ∧ (nwOk p && payOk p && caddrOk p) = true ∧ accepted (withQ {}) p = false) ∧
    mayPerform (withQ { ctl := 1 }) (pkt 0 []) = false ∧ mayPerform idleQ (pkt 0 []) = true ∧ nwOk (pkt 0 []) = false ∧
    (cmdq (withQ { cur := some (pkt 0 [0]) }) 0).cur = some (pkt 0 [0]) ∧ (pkt 0 [0]).cmpl = false ∧
    performsB idleQ { pkt 0 [] with nw := 2 } = true ∧ performsB idleQ { pkt 3 [w64 (p2 0x20000), 1, 5] with nw := 5 } = true ∧
    payN (pkt 3 [w64 (p2 0x20004), 1, 5]) 0 % 8 ≠ 0 ∧ payN (pkt 3 [w64 (p2 0x20000), 1, 5]) 0 % 8 = 0 ∧
    (devStore 0 (p2 0x20000) (natLe 8 5) idleQ).isSome = true ∧ loads8 0 (p2 0x20000) idleQ = true ∧
    performsB idleQ { pkt 4 [w64 (p2 0x20000), 1, 2] with nw := 5 } = true ∧ someB (devLoad 0 (p2 0x20000) 8 idleQ).1 (fun bs => leW bs == 0) = true ∧
    performsB idleQ { pkt 5 [w64 (p2 0x20000), w64 (p2 0x30000), 8] with nw := 5 } = true ∧ (hcopySource 0 (p2 0x20000) 8 idleQ).1.isSome = true ∧
    performsB idleQ { pkt 0x20 [w64 (p2 0x20000), 512] with nw := 4, q := 63 } = true ∧
    (devLoad (cqPart idleQ 63) (p2 0x20000) 512 idleQ).1.isSome = true ∧ imageAccepted [] = false ∧
    performsB idleQ { pkt 0x21 [w64 (p2 0x20000), w64 (p2 0x30000)] with nw := 4 } = true ∧ (devLoad 0 (p2 0x20000) 32 idleQ).1.isSome = true ∧
    payN (pkt 3 [0, 1, 5]) 0 = 0 ∧ performsB idleQ { pkt 6 [0] with nw := 3 } = true ∧ fenceOpen idleQ (pkt 6 [1]) = true ∧
    (let s : State := { idleQ with dev := { idleQ.dev with cmdqs := [(0, { owner := true, cur := some (pkt 6 [2]), pseq := 2 }), (1, { cur := some (pkt 4 []), pseq := 1 })] } }
     fenceOpen s (pkt 6 [2]) = false ∧ mayPerform s (pkt 6 [2]) = true) ∧
    performsB idleQ { pkt 0x1A [0, w64 (p2 0x20000)] with nw := 4 } = true ∧ (devStore 0 (p2 0x20000) (natLe 64 0) idleQ).isSome = true := by decide +kernel
/-- The placed page may be read and not written. -/
def readOnly : State := putWord idleQ .dev 0x3000 0x37
/-- An address of path 7. -/
def p7 (a : Nat) : Nat := 7 * 2 ^ 60 + a
/-- The access fails, and is not held back. -/
def failsB (r : Option (List Byte) × State) : Bool := r.1.isNone && !r.2.dev.waits
theorem test_hyp_PacketsOfEveryQueueComplete_fails :
    performsB idleQ { pkt 3 [w64 (p7 0x20000), 1, 5] with nw := 5 } = true ∧ payN (pkt 3 [w64 (p7 0x20000), 1, 5]) 0 % 8 = 0 ∧
    (devStore 0 (p7 0x20000) (natLe 8 5) idleQ).isNone = true ∧ failsB (devLoad 0 (p7 0x20000) 8 idleQ) = true ∧
    failsB (hcopySource 0 (p7 0x20000) 8 idleQ) = true ∧ failsB (devLoad 0 (p7 0x20000) 512 idleQ) = true ∧ failsB (devLoad 0 (p7 0x20000) 32 idleQ) = true ∧
    performsB idleQ { pkt 5 [w64 (p7 0x20000), w64 (p2 0x30000), 8] with nw := 5 } = true ∧
    performsB idleQ { pkt 5 [w64 (p2 0x20000), w64 (p2 0x30004), 8] with nw := 5 } = true ∧ (p2 0x30004) % 8 ≠ 0 ∧
    performsB idleQ { pkt 5 [w64 (p2 0x20000), w64 (p7 0x30000), 8] with nw := 5 } = true ∧ (devStore 0 (p7 0x30000) (natLe 8 0) idleQ).isNone = true ∧
    loads8 0 (p2 0x20000) readOnly = true ∧ (devStore 0 (p2 0x20000) (natLe 8 5) readOnly).isNone = true ∧
    performsB readOnly { pkt 3 [w64 (p2 0x20000), 1, 5] with nw := 5 } = true ∧
    performsB idleQ { pkt 0x20 [w64 (p7 0x20000), 512] with nw := 4, q := 63 } = true ∧
    performsB idleQ { pkt 0x21 [w64 (p7 0x20000), w64 (p2 0x30000)] with nw := 4 } = true ∧
    performsB idleQ { pkt 0x21 [w64 (p2 0x20000), w64 (p2 0x30004)] with nw := 4 } = true ∧
    performsB idleQ { pkt 0x1A [0, w64 (p7 0x20000)] with nw := 4 } = true ∧ (devStore 0 (p7 0x20000) (natLe 64 0) idleQ).isNone = true ∧
    performsB idleQ { pkt 0x1A [0, w64 (p2 0x20004)] with nw := 4 } = true := by decide +kernel
def steerPkt : Pkt := { pkt 0x12 [1, 0, 32] with nw := 5 }
def pointPkt : Pkt := { pkt 0x12 (w64 (5 * 2 ^ 8) :: w64 (2 ^ 63 + 32 * 2 ^ 36) :: List.replicate 19 0) with nw := 23 }
def sptPkt : Pkt := { pkt 0x13 [3, 0, 0, 0, 0] with nw := 7 }
/-- Versions of the tables differ from those that the placed operator holds. -/
def olderHeld : State := { idleQ with dev := { idleQ.dev with tapCur := [(0, 1)], steerCur := [(0, 1)], sptCur := [(0, 1)] } }
def predPkt : Pkt := { pkt 2 [w64 (p2 0x20000), 0xFF, 0, 0] with nw := 6 }
theorem test_hyp_ConfigurationPacketsComplete_busy :
    (let p := { pkt 0x15 [w64 (2 ^ 16 + 5), 0, 1, w64 (2 ^ 60 + 0x40000)] with nw := 6 }
     let at5 (ws : List (Nat × WHandle)) : State := { idleQ with dev := { idleQ.dev with ptab := rset 0 idleQ.dev.ptab 11 (w64 (131072 * 2 ^ 8 + 1)), wh := ws } }
     let other := at5 [(6, { st := whPinned, hbm := true, npage := 1, base := 2 ^ 60 + 0x40000, refs := 1, roomy := true })]
     performsB idleQ p = true ∧ handleShare idleQ 0 (hbHandle p) = true ∧
     (whOf (at5 []) (hbHandle p)).st ≠ whFaulted ∧ (whOf (at5 []) (hbHandle p)).st ≠ whResident ∧
     (whOf (at5 [(5, { st := whResident, refs := 1 })]) (hbHandle p)).refs ≠ 0 ∧ (whOf idleQ (hbHandle p)).st = whInvalid ∧ placeOk (beginPacket p idleQ) p = false ∧
     performsB other p = true ∧ (whOf other (hbHandle p)).st = whInvalid ∧ placeOk (beginPacket p other) p = true ∧
     (bindHandle (hbHandle p) (hbWanted (beginPacket p other) p) [] (beginPacket p other)).isNone = true) := by
  (repeat' apply And.intro) <;> decide +kernel
theorem test_hyp_ConfigurationPacketsComplete :
    (cmdq base 0).cur = none ∧
    (let s := withQ { owner := true, cur := some predPkt, pseq := 1 }
     (cmdq s 0).cur = some predPkt ∧ mayPerform s predPkt = true ∧ predPkt.opc = 2 ∧ s.dev.recovering = false ∧
     ({ s with dev := { s.dev with recovering := true } } : State).dev.recovering = true ∧
     (parseArms predPkt s).1 = some true ∧ (wordAt (parseArms predPkt s).2 predPkt 0).1.isSome = true) ∧
    (let p := { pkt 4 [w64 (p2 0x20000), 0, 0] with nw := 5 }
     let s := withQ { cur := some p, pseq := 1 }
     (cmdq s 0).cur = some p ∧ mayPerform s p = true ∧ someB (wordAt s p 0).1 (fun w => decide (payN p 1 ≤ w.toNat)) = true) ∧
    (let p := { pkt 1 (1 :: placedOp) with nw := 19 }
     let s := { (withQ { owner := true }) with dev := { (withQ { owner := true }).dev with launches := [] } }
     performsB s p = true ∧ (cmdq s 0).cur = none ∧ (cmdq s 0).opTaken = {} ∧ accepted (beginPacket p s) p = true ∧ launchOps p = [placedOp] ∧ freeSlot s = some 0 ∧
     expandStatus (modCq (beginPacket p s) 0 (fun c => { c with chain := { todo := [placedOp] } })) 0 placedOp = stOk) ∧
    (let p := { pkt 1 (1 :: lset placedOp 0 (w64 (2 ^ 32 + 2 ^ 30))) with nw := 19 }
     let s := withQ {}
     mayPerform s p = true ∧ (nwOk p && payOk p && caddrOk p) = true ∧ p.opc = 1 ∧ (cmdq s 0).cur = none ∧ accepted s p = false) ∧
    (let p := { pkt 2 [w64 (p2 0x20000), 0, 0, 2 ^ 8] with nw := 6 }
     performsB idleQ p = true ∧ (parseArms p (beginPacket p idleQ)).1 = none ∧
     (let s := putWord (withQ { owner := true, base := 0x40000, tail := 16 }) .dev 0x40000 (w64 (2 ^ 57 + 2 * 2 ^ 48))
      performsB s p = true ∧ (parseArms p (beginPacket p s)).1 = some false)) ∧
    performsB idleQ { pkt 0x10 [w64 3, 0, 0, 0] with nw := 6 } = true ∧ slotShare idleQ 0 (bits (payN (pkt 0x10 [15, 0, 0, 0]) 0) 11 0) = true ∧
    slotShare idleQ 0 (bits (payN (pkt 0x10 [16, 0, 0, 0]) 0) 11 0) = false ∧
    performsB idleQ pointPkt = true ∧ pointOk (beginPacket pointPkt idleQ) pointPkt = true ∧ pointOk idleQ (pkt 0x12 [0, w64 (3 * 2 ^ 60)]) = false ∧
    tableWaits olderHeld 0 1 (fun l => l.tapVer) = true ∧ tableWaits idleQ 0 0 (fun l => l.tapVer) = false ∧ pointPkt.pay.length = 21 ∧
    pointOk (beginPacket pointPkt olderHeld) pointPkt = true ∧ performsB olderHeld pointPkt = true ∧
    performsB idleQ steerPkt = true ∧ steerOk (beginPacket steerPkt idleQ) steerPkt = true ∧ steerOk idleQ (pkt 0x12 [1, 0, w64 (2 ^ 20)]) = false ∧
    tableWaits olderHeld 0 1 (fun l => l.steerVer) = true ∧ steerPkt.pay.length = 3 ∧
    performsB idleQ sptPkt = true ∧ sptOk sptPkt = true ∧ sptOk (pkt 0x13 [3, 5, 0, 0, 0]) = false ∧ tableWaits olderHeld 0 1 (fun l => l.sptVer) = true ∧ sptPkt.pay.length = 5 ∧
    (let p := { pkt 0x14 [w64 (8 * 2 ^ 23), 0x40000] with nw := 4 }
     performsB idleQ p = true ∧ pathOf (payN p 1) = 0 ∧ qualOf (payN p 1) = 0 ∧ payN p 1 % (32 * 2 ^ bits (payN p 0) 27 23) = 0 ∧
     queueShare idleQ 0 0 = true ∧ queueShare idleQ 0 4 = false ∧ (queueOf idleQ 0).bound = none ∧ (queueOf idleQ 0).entries = [] ∧
     (queueOf { idleQ with dev := { idleQ.dev with queues := [(0, { bound := some 0 })] } } 0).bound ≠ none) ∧
    (let p := { pkt 0x15 [w64 (2 ^ 16 + 5), 0, 1, w64 (2 ^ 60 + 0x40000)] with nw := 6 }
     performsB idleQ p = true ∧ handleShare idleQ 0 (hbHandle p) = true ∧ handleShare idleQ 0 8 = false ∧ bits (payN p 0) 63 17 = 0 ∧ bit (payN p 0) 13 = false ∧ bits (payN p 2) 63 16 = 0 ∧
     bit (payN p 0) 16 = true ∧ bits (payN { p with pay := [w64 (2 ^ 16 + 5), 0, 2 ^ 16, 0] } 2) 63 16 ≠ 0 ∧
     (whOf idleQ (hbHandle p)).st = whInvalid ∧
     (let s : State := { idleQ with dev := { idleQ.dev with ptab := rset 0 idleQ.dev.ptab 11 (w64 (131072 * 2 ^ 8 + 1)) } }
      placeOk (beginPacket p s) p = true ∧ (bindHandle (hbHandle p) (hbWanted (beginPacket p s) p) [] (beginPacket p s)).isSome = true) ∧
     (let s : State := { idleQ with dev := { idleQ.dev with wh := [(5, { st := whFaulted })] } }
      (whOf s (hbHandle p)).st = whFaulted ∧ (whOf s (hbHandle p)).refs = 0) ∧
     (let s : State := { idleQ with dev := { idleQ.dev with wh := [(5, { st := whResident })] } }
      (whOf s (hbHandle p)).st = whResident ∧ (whOf s (hbHandle p)).refs = 0 ∧ (whOf s (hbHandle p)).st ≠ whFaulted)) ∧
    (let p := { pkt 0x16 [w64 (4 * 2 ^ 8), w64 (p2 0x40000), w64 (p2 0x20000)] with nw := 5 }
     let key := ringKey 0 (bits (payN p 0) 1 0) (bits (payN p 0) 7 4)
     performsB idleQ p = true ∧ payN p 1 % (ringEntry key * 2 ^ bits (payN p 0) 12 8) = 0 ∧ pathOf (payN p 1) = 2 ∧ qualOf (payN p 1) = 0 ∧
     (wordAt (beginPacket p idleQ) p 2).1.isSome = true ∧ (p2 0x40000 + 64) % (ringEntry key * 2 ^ 4) ≠ 0) ∧
    (let p := { pkt 0x18 [0] with nw := 3 }
     performsB idleQ p = true ∧ cqPart idleQ 0 = cqPart idleQ (bits (payN p 0) 5 0) ∧ bit (payN p 0) 8 = false ∧ bit (payN (pkt 0x18 [256]) 0) 8 = true ∧
     performsB idleQ { pkt 0x18 [256] with nw := 3 } = true ∧
     evictionDone (evictPartition 0 0 (preemptQueue 0 (beginPacket p { idleQ with st0 := {} }))) 0 = true ∧
     evictionDone (evictPartition 0 0 (preemptQueue 0 (beginPacket p idleQ))) 0 = false ∧ cqPart (withQ { part := 1 }) 1 ≠ cqPart (withQ { part := 1 }) 0) := by
  (repeat' apply And.intro) <;> decide +kernel
/-- The queue performs the last operator of a LAUNCH, and a PRED without arms waits behind it. -/
def armsQ : State := withQ { owner := true, cur := some (pkt 1 []), chain := { active := some 0 }, ready := some predPkt }
theorem test_hyp_ShapesResolveAndOperatorsExpand_arms : chainReady armsQ 0 = false ∧ armsAhead armsQ 0 = some predPkt ∧
    (let s := putWord (withQ { owner := true, cur := some (pkt 1 []), chain := { active := some 0 }, armLeft := 1, base := 0x40000, tail := 152 }) .dev 0x40000
       (w64 (2 ^ 56 + 19 * 2 ^ 48))
     let s := (List.range 17).foldl (fun s k => putWord s .dev (0x40000 + 16 + 8 * k) ((1 :: placedOp).getD k 0)) s
     chainReady s 0 = false ∧ armsAhead s 0 = none ∧ laterOp s 0 = some placedOp ∧ freeSlot s = some 1 ∧ expandStatus s 0 placedOp = stOk) := by decide +kernel
/-- Command queue 0 over a ring at 0x40000 with a packet header in it. -/
def ringQ (hdr tail : Nat) (c : CmdQ) : State :=
  putWord (withQ { c with base := 0x40000, tail := tail }) .dev 0x40000 (w64 hdr)
theorem test_hyp_FrontEndEvents : parseDue base 0 = false ∧ parseDue (withQ { base := w64 (7 * 2 ^ 60), tail := 16 }) 0 = true ∧
    (headHdr (nextQueue 0 (withQ { base := w64 (7 * 2 ^ 60), tail := 16 })) 0).1 = none ∧ parseDue (ringQ 0 16 {}) 0 = true ∧ (headHdr (nextQueue 0 (ringQ 0 16 {})) 0).1 = some 0 ∧ hdrNw 0 < 2 ∧
    opcAssigned (hdrOpc (w64 (7 * 2 ^ 56 + 2 ^ 49))) = false ∧ parseDue (ringQ (2 ^ 49) 16 {}) 0 = true ∧ 2 ≤ hdrNw (w64 (2 ^ 49)) ∧ opcAssigned (hdrOpc (w64 (2 ^ 49))) = true ∧
    (cmdq (headHdr (nextQueue 0 (ringQ (2 ^ 49) 16 { skipNow := 2 })) 0).2 0).skipNow ≠ 0 ∧ (cmdq (headHdr (nextQueue 0 (ringQ (2 ^ 49) 16 {})) 0).2 0).skipNow = 0 ∧
    (let s := ringQ (2 ^ 49) 16 {}
     someB (cqWords 0 0 2 s).1 (fun ws => let p := pktOf 0 ws; bits (ws.getD 0 0).toNat 45 32 == 0 && nwOk p && payOk p && caddrOk p && accepted s p) = true) ∧
    (let s := ringQ (3 * 2 ^ 48) 24 {}
     parseDue s 0 = true ∧ someB (cqWords 0 0 3 s).1 (fun ws => !nwOk (pktOf 0 ws)) = true) ∧
    (let s := ringQ (0x18 * 2 ^ 56 + 3 * 2 ^ 48) 24 {}
     parseDue s 0 = true ∧ someB (cqWords 0 0 3 s).1 (fun ws => let p := pktOf 0 ws; nwOk p && payOk p && caddrOk p && !accepted s p) = true) ∧
    (∀ w ∈ base.dev.ringWait, w.ring ≠ 0) ∧
    (let s : State := { base with dev := { base.dev with evrings := [(0, { conf := true, base := w64 (p2 0x40000), cons := w64 (p2 0x20000) })], ringWait := [{ ring := 0, words := [0, 1] }] } }
     s.dev.ringWait.find? (fun w => w.ring == 0) = some { ring := 0, words := [0, 1] } ∧ (ringRoom 0 s).1 = true) ∧
    base.dev.runm < 2 ∧ 2 ≤ ({ base with dev := { base.dev with runm := 2 } } : State).dev.runm ∧ 63 < 64 ∧ 15 < 16 := by decide +kernel
/-- Partition 0 LIVE on Glade 0 with KEY domain 0, and a valid entry 1 that shares nothing with it. -/
def twoParts : State := { base with dev := { base.dev with ptab := [(0, w64 (2 ^ 63 + 1)), (1, 1), (2, 1), (10, w64 (2 ^ 32 + 2 ^ 16)), (15, 1), (16, w64 (2 ^ 63 + 2)), (17, w64 (2 ^ 32 + 1)), (18, w64 (2 ^ 32 + 1)), (24, 0x50000), (26, w64 (2 ^ 33 + 2 ^ 16)), (31, 1)] } }
theorem test_hyp_BootAndPartitionEvents : base.dev.boot = 7 ∧ State.reset.dev.boot ≠ 7 ∧ State.reset.dev.bootFail = false ∧ (0xA5 : Byte) ≠ 0 ∧
    0 ∈ base.dev.live ∧ 1 ∉ base.dev.live ∧ (readPools twoParts 1).isSome = true ∧ ptabValid twoParts 1 = true ∧ 1 ∉ twoParts.dev.live ∧
    (∀ q ∈ twoParts.dev.live, ptabClash twoParts 1 q = false) ∧ ptabClash twoParts 0 0 = true ∧ slotShare idleQ 0 15 = true ∧ handleShare idleQ 0 7 = true ∧
    (cmdq idleQ 0).part = 0 ∧ base.dev.loading = false ∧ ({ base with dev := { base.dev with loading := true } } : State).dev.loading = true ∧
    LoadMayGo base (2 ^ 42 - 16384) 1 ∧ ¬ LoadMayGo base (2 ^ 42 - 16384) 2 ∧ ¬ LoadMayGo base 0 0 := by unfold LoadMayGo; decide +kernel
theorem test_hyp_RegisterWriteEvents : bit (w64 (2 ^ 32)).toNat 32 = true ∧ bit (0 : Word).toNat 32 = false ∧ ctlStored 0 5 = some 5 ∧
    ¬ ctlExists 7 ∧ ctlReadOnly 2 ∧ nextB (exec (.pctlFlagClear 0) base) (fun _ => true) = true ∧ bits (0x11 : Word).toNat 5 4 = 1 ∧ bits (0x21 : Word).toNat 5 4 = 2 ∧
    cqHolds (cmdq base 5) = false ∧ cqHolds (cmdq (withQ { tail := 8 }) 0) = true ∧ base.dev.loading = false ∧ LoadMayGo { base with dev := { base.dev with loader := [(2, 1)] } } 0 1 ∧
    ¬ LoadMayGo base (loaderN base 1) (loaderN base 2) ∧ 0x810 < 0x1000 ∧ (partQueues base 0)[0]? = some 0 ∧ (partQueues base 1)[0]? = none ∧
    (0x1008 - 0x1000) % 64 = 8 ∧ (0x1FE8 - 0x1000) % 64 = 40 ∧ 0x800 % 8 = 0 := by
  unfold ctlExists ctlReadOnly LoadMayGo; decide +kernel
/-- Registers that an ADD of the group reads, written or lost. -/
def grouped : State := modCur base (fun c => { c with grpW := [.g 2] })
def lostOne : State := modCur base (fun c => { c with lostG := [(2, 0x20000)] })
def addPlace : Contrib := ⟨.s0, 0x0000000420C00000, 0, true⟩
theorem test_hyp_FaultEntryAndHazards : (strm base false).prov = false ∧ (strm (provi base) false).prov = true ∧ 127 < 128 ∧ 63 < 64 ∧
    opEnd .s0 (.adiff q0 1 2 3) (regs [(2, p2 5)] base) = 2 ∧ guardOn (cur base) q0 = true ∧
    endKind (issueEnd 0x8080000000000000 [0x0000620000000000] base) = 0 ∧ contribs (cur grouped) addHdr addOps = [addPlace] ∧
    (bundleFault (cur grouped) addHdr addOps [addPlace]).isNone = true ∧ skips (cur grouped) addHdr = false ∧
    (let s0 := modCur grouped (fun c => { c with blen := hLen addHdr })
     interlocked s0 [addPlace] = false ∧ capReady grouped = true ∧ (perform s0 addHdr [addPlace]).faults.length = 1) ∧
    (let s := regs [(17, 5), (18, p2 0x20000)] (openBank { openRow := some 5, tAct := some 0 } { withHandles with now := 15 })
     let ops := encode (.mldwc q0 2 19 false) ++ [0x000050008A090000]
     let ks := contribs (cur s) 0x800C000000000000 ops
     let s0 := modCur s (fun c => { c with blen := hLen 0x800C000000000000 })
     let a := perform s0 0x800C000000000000 ks
     a.stalls.length = 1 ∧ a.faults.map (fun x => x.2.code) = [.canopyEarly] ∧ interlocked s0 ks = false ∧ capReady s = true ∧
     (bundleFault (cur s) 0x800C000000000000 ops ks).isNone = true ∧ skips (cur s) 0x800C000000000000 = false) ∧
    decB .s0 addPlace.w (.add q0 1 2 3) = true ∧ (opOf (.add q0 1 2 3)).isSome = true ∧ hRpt addHdr = 0 ∧ guardReg (guardOf addPlace.w) = [] ∧
    (∃ g ∈ (foot (opCtx grouped addPlace) (.add q0 1 2 3)).rd, g ∈ (cur grouped).grpW) ∧
    hazard (cur lostOne) { st := lostOne } ⟨guardReg (guardOf addPlace.w), []⟩ = false ∧
    hazard (cur lostOne) { st := lostOne } (foot (opCtx lostOne addPlace) (.add q0 1 2 3)) = false ∧
    (foot (opCtx lostOne addPlace) (.add q0 1 2 3)).rd.findSome? (lostBy (cur lostOne)) = some 0x20000 ∧
    (∀ g ∈ guardReg (guardOf addPlace.w), lostBy (cur lostOne) g = none) := by decide +kernel

end Sys2Proof.Machine
end

section
/-!
PROOF. The effective rank of a record and the cycle from which its age counts (spec/02_execution_model.md, R45). Of the parts of the
end of a cycle only `markReady` touches the work queues.
-/

namespace Sys2Proof.Machine

/-! ## The effective rank -/

theorem effRank_of_rank_seven (s : State) {e : QEntry} (h : recRank e.w2 = 7) : effRank s e = 7 := if_pos h

theorem effRank_of_rank_ne_seven (s : State) {e : QEntry} (h : recRank e.w2 ≠ 7) :
    effRank s e = min 6 (recRank e.w2 + (s.now - e.readyAt.getD s.now) / 2 ^ 20) := if_neg h

theorem effRank_le_six (s : State) {e : QEntry} (h : recRank e.w2 ≠ 7) : effRank s e ≤ 6 := by
  rw [effRank_of_rank_ne_seven s h]
  exact Nat.min_le_left _ _

/-! ## Readiness followed over a cycle -/

/-- A record as the end of the cycle leaves it: its age counts on while it is ready, from now where it was not (R45). -/
def followReady (s : State) (e : QEntry) : QEntry :=
  { e with readyAt := if recReady s e = true then some (e.readyAt.getD s.now) else none }

/-- A table all of whose entries are changed by f reads as changed by f, where f keeps the unlisted entry. -/
theorem rget_map {f : α → α} {d : α} (hd : f d = d) (m : RMap α) (k : Nat) :
    rget d (m.map (fun x => (x.1, f x.2))) k = f (rget d m k) := by
  induction m with
  | nil => exact hd.symm
  | cons x r ih =>
    obtain ⟨i, v⟩ := x
    by_cases h : i = k
    · simp [rget, h]
    · simp [rget, h, ih]

theorem markReady_queues (s : State) :
    (markReady s).dev.queues = s.dev.queues.map (fun x => (x.1, { x.2 with entries := x.2.entries.map (followReady s) })) := by
  have h : followReady s = fun e =>
      if recReady s e then { e with readyAt := some (e.readyAt.getD s.now) } else { e with readyAt := none } := by
    funext e
    unfold followReady
    split <;> rfl
  rw [h]
  rfl

theorem queueOf_markReady (s : State) (q : Nat) :
    queueOf (markReady s) q = { queueOf s q with entries := (queueOf s q).entries.map (followReady s) } := by
  simp only [queueOf, markReady_queues]
  exact rget_map (f := fun k : Queue => { k with entries := k.entries.map (followReady s) }) rfl _ _

/-! ## The rest of the end of a cycle leaves the queues -/

@[simp] theorem modBank_dev (s : State) (k : Nat) (f : Bank → Bank) : (modBank s k f).dev = s.dev := rfl
@[simp] theorem takeBus_dev (n : Nat) (s : State) : (takeBus n s).dev = s.dev := rfl
@[simp] theorem followColumn_dev (s : State) : (followColumn s).dev = s.dev := rfl

@[simp] theorem tickHbm_queues (s : State) : (tickHbm s).dev.queues = s.dev.queues := by
  unfold tickHbm
  split <;> rfl

@[simp] theorem engineStep_dev (s : State) (bank : Nat) : (engineStep s bank).dev = s.dev := by
  fun_cases engineStep s bank <;> simp [*]

@[simp] theorem engineTick_dev (s : State) : (engineTick s).dev = s.dev :=
  List.foldlRecOn (motive := fun t => t.dev = s.dev) _ engineStep rfl
    (fun t ht bank _ => (engineStep_dev t bank).trans ht)

theorem tick_queues (s : State) : (tick s).dev.queues = (markReady s).dev.queues := by
  simp [tick]

/-- The end of a cycle changes a queue's records as R45 says of their ages, and in nothing else. -/
theorem queueOf_tick (s : State) (q : Nat) :
    queueOf (tick s) q = { queueOf s q with entries := (queueOf s q).entries.map (followReady s) } := by
  rw [← queueOf_markReady]
  simp only [queueOf, tick_queues]

/-- Settles O49: the rank by its two cases, the age by what the end of a cycle makes of a queue. -/
theorem effectiveRankAges : Obligations.EffectiveRankAges := by
  refine ⟨fun s e h => effRank_of_rank_seven s h, fun s e t h hready => ?_, fun s e h => effRank_le_six s h, fun s q => ?_⟩
  · rw [effRank_of_rank_ne_seven s h, hready, Option.getD_some]
  · rw [queueOf_tick]
    rfl

end Sys2Proof.Machine
end

section
/-!
PROOF. What a MOVS leaves of the walks of the ports (spec/03_registers_operands.md, R81): an enabled MOVS of a register that exists
and may be written is the commit of `ctlWrite`, and a commit between two issues touches no walk.
-/

namespace Sys2Proof.Machine

/-! ## An enabled MOVS that meets no fault -/

@[simp] theorem need_true (c : FCode) (cause : Nat) (addr : Word) : need true c cause addr = .ok () := rfl

/-- An enabled MOVS of a control register that exists and may be written is the commit of its write. -/
theorem exec_movs_ok {q : Guard} {a : Reg} {num : BitVec 12} {s : State} (hq : guardOn (cur s) q = true)
    (hk : ctlKnown num.toNat = true) (hw : ctlMayWrite (cur s).level num.toNat = true) :
    exec (.movs q a num) s = .next (commitOne (ctlWrite s s.sel num.toNat (gOf s a))) := by
  refine issueOne_ok .s0 q (opMovs a num) s _ hq ?_
  simp only [opMovs, ctxAt, cur_seen, gr, hk, hw, need_true]
  rfl

/-! ## The registers that bind the ports: PORTMAP and the words of the parameter sets -/

theorem ctlWrite_portmap (s : State) (b : Bool) (v : Word) :
    ctlWrite s b 3 v = setStrm s b (writePortmap (strm s b) v) := rfl

theorem ctlRead_ps (s : State) (b : Bool) {m : Nat} (hlo : 0x80 ≤ m) (hhi : m ≤ 0xFF) :
    ctlRead s b m = some (rget 0 (strm s b).ps (m - 0x80) &&& psMask (m % 8)) := by
  unfold ctlRead
  simp (disch := omega) only [Bool.and_eq_true, decide_eq_true_eq, if_neg, if_pos]

theorem ctlKnown_ps {m : Nat} (hlo : 0x80 ≤ m) (hhi : m ≤ 0xFF) : ctlKnown m = true := by
  simp [ctlKnown, ctlRead_ps _ _ hlo hhi]

theorem ctlMayWrite_ps (level : Nat) {m : Nat} (hlo : 0x80 ≤ m) (hhi : m ≤ 0xFF) : ctlMayWrite level m = true := by
  unfold ctlMayWrite
  simp (disch := omega) only [Bool.or_eq_true, decide_eq_true_eq, if_neg]

theorem ctlWrite_ps (s : State) (b : Bool) (v : Word) {n k : Nat} (hn : n < 16) (hk : k < 8) :
    ctlWrite s b (0x80 + 8 * n + k) v = setStrm s b (writePs (strm s b) n k v) := by
  have hset : (0x80 + 8 * n + k - 0x80) / 8 = n := by omega
  have hword : (0x80 + 8 * n + k - 0x80) % 8 = k := by omega
  unfold ctlWrite
  simp (disch := omega) only [Bool.and_eq_true, decide_eq_true_eq, if_neg, if_pos, hset, hword]

/-! ## The walks -/

/-- Entries taken out of a table read as its unlisted ones; the others read as before. -/
theorem rget_foldl_rdel (d : α) (ks : List Nat) (m : RMap α) (i : Nat) :
    rget d (ks.foldl rdel m) i = if i ∈ ks then d else rget d m i := by
  induction ks generalizing m with
  | nil => simp
  | cons k ks ih =>
    rw [List.foldl_cons, ih, rget_rdel]
    by_cases h : i ∈ ks <;> simp [h]

/-- The walk of a port in a table from which the ports below 8 that P selects are taken out. -/
theorem rget_walk_restart (P : Nat → Bool) (m : RMap Walk) {p : Nat} (hp : p < 8) :
    rget {} (((List.range 8).filter P).foldl rdel m) p = if P p = true then Walk.start else rget {} m p := by
  rw [rget_foldl_rdel]
  simp [hp, Walk.start]

theorem writePortmap_walk (c : Stream) (v : Word) {p : Nat} (hp : p < 8) :
    rget {} (writePortmap c v).walk p =
      if bits (writePortmap c v).portmap.toNat (8 * p + 7) (8 * p) ≠ bits c.portmap.toNat (8 * p + 7) (8 * p) then Walk.start
      else rget {} c.walk p := by
  simp only [writePortmap, rget_walk_restart _ _ hp, bne_iff_ne, ne_comm]

theorem writePs_walk (c : Stream) (n k : Nat) (v : Word) {p : Nat} (hp : p < 8) :
    rget {} (writePs c n k v).walk p =
      if bits c.portmap.toNat (8 * p + 3) (8 * p) = n then Walk.start else rget {} c.walk p := by
  simp only [writePs, rget_walk_restart _ _ hp, beq_iff_eq]

/-! ## The commit -/

/-- A commit with no end and no save wanted leaves the ports' bindings and walks. -/
theorem commitOne_ports {s : State} (he : (cur s).ending = false) (hs : (cur s).saveWant = none) :
    (cur (commitOne s)).portmap = (cur s).portmap ∧ (cur (commitOne s)).walk = (cur s).walk := by
  rw [commitOne_plain s he hs, cur_modCur]
  exact ⟨rfl, rfl⟩

/-- Where the write of an enabled MOVS changes the acting stream alone, to c, and nothing of c ends its task or asks for its save,
the ports are bound and walk on as in c. -/
theorem exec_movs_ports {q : Guard} {a : Reg} {num : BitVec 12} {s : State} {c : Stream} (hq : guardOn (cur s) q = true)
    (hk : ctlKnown num.toNat = true) (hw : ctlMayWrite (cur s).level num.toNat = true)
    (hc : ctlWrite s s.sel num.toNat (gOf s a) = setCur s c) (he : c.ending = false) (hs : c.saveWant = none) :
    ∃ t, exec (.movs q a num) s = .next t ∧ (cur t).portmap = c.portmap ∧ (cur t).walk = c.walk := by
  refine ⟨_, exec_movs_ok hq hk hw, ?_⟩
  rw [hc]
  simpa using commitOne_ports (s := setCur s c) (by simpa using he) (by simpa using hs)

/-- Settles O12: the MOVS is the commit of its write, and the write takes the restarted walks out of the table. -/
theorem portWalksStartAgain : Obligations.PortWalksStartAgain := by
  intro q a s p hq hquiet hp
  obtain ⟨-, -, -, -, -, hend, -, hsave, -⟩ := hquiet
  constructor
  · obtain ⟨t, ht, hmap, hwalk⟩ := exec_movs_ports (num := 3) (c := writePortmap (cur s) (gOf s a)) hq rfl rfl
      (ctlWrite_portmap _ _ _) hend hsave
    exact ⟨t, ht, by rw [hmap, hwalk, writePortmap_walk _ _ hp]⟩
  · intro n k hn hk
    have hnum : (BitVec.ofNat 12 (0x80 + 8 * n + k)).toNat = 0x80 + 8 * n + k :=
      (BitVec.toNat_ofNat _ _).trans (Nat.mod_eq_of_lt (by omega))
    obtain ⟨t, ht, hmap, hwalk⟩ := exec_movs_ports (a := a) (num := BitVec.ofNat 12 (0x80 + 8 * n + k))
      (c := writePs (cur s) n k (gOf s a)) hq (ctlKnown_ps (by omega) (by omega)) (ctlMayWrite_ps _ (by omega) (by omega))
      (by rw [hnum]; exact ctlWrite_ps _ _ _ hn hk) hend hsave
    exact ⟨t, ht, hmap, by rw [hwalk, writePs_walk _ _ _ _ hp]⟩

end Sys2Proof.Machine
end

section
/-!
PROOF. The division ops (spec/11_scalar_control_instructions.md, R258). DIV and REM are those of two's complement words: the two
cases that the rule sets apart, a divisor of zero and −2^63 divided by −1, are where the quotient has no word of its own.
-/

namespace Sys2Proof.Machine

/-! ## An op that writes G[D] from two registers -/

@[simp] theorem gr_ctxAt (p : Pos) (s : State) (r : Reg) : gr (ctxAt p s) r = gOf s r := by
  simp only [gr, ctxAt, cur_seen, gOf]

/-- An enabled op of the register form answers the commit of its value: it never faults and never waits. -/
theorem issueOne_opAlu {p : Pos} {q : Guard} {f : Word → Word → Word} {d a b : Reg} {s : State} (hq : guardOn (cur s) q = true) :
    issueOne p q (opAlu f d a b) s = .next (commitOne (setG s d (f (gOf s a) (gOf s b)))) :=
  issueOne_ok p q _ s _ hq (by simp only [opAlu, gr_ctxAt])

/-! ## The signed quotient and remainder of R258 -/

/-- The quotient of DIV before it wraps (R258). -/
def signedQuot (x y : Int) : Int := if y = 0 then -1 else if x = -2 ^ 63 ∧ y = -1 then -2 ^ 63 else x.tdiv y

/-- The remainder of REM before it wraps (R258). -/
def signedRem (x y : Int) : Int := if y = 0 then x else if x = -2 ^ 63 ∧ y = -1 then 0 else x - y * x.tdiv y

theorem toInt_eq_zero_iff (b : Word) : b.toInt = 0 ↔ b = 0 := BitVec.toInt_inj (y := 0)

/-- Where −2^63 is divided by −1 the truncated quotient is 2^63, which wraps to −2^63 as R258 says. -/
theorem vDiv_eq_signedQuot (a b : Word) : vDiv a b = wrap64 (signedQuot a.toInt b.toInt) := by
  unfold vDiv signedQuot
  simp only [toInt_eq_zero_iff]
  by_cases hb : b = 0
  · simp only [if_pos hb]
    rfl
  · by_cases ho : a.toInt = -2 ^ 63 ∧ b.toInt = -1
    · simp only [if_neg hb, if_pos ho]
      rw [ho.1, ho.2]
      rfl
    · simp only [if_neg hb, if_neg ho]
      rfl

/-- The three cases of REM are one: the remainder of the truncated division, which is x itself for a divisor of zero. -/
theorem signedRem_eq_tmod (x y : Int) : signedRem x y = x.tmod y := by
  unfold signedRem
  rw [Int.tmod_def]
  split
  next hy => simp [hy]
  next =>
    split
    next ho =>
      rw [ho.1, ho.2]
      rfl
    next => rfl

theorem vRem_eq_signedRem (a b : Word) : vRem a b = wrap64 (signedRem a.toInt b.toInt) := by
  rw [signedRem_eq_tmod, Int.tmod_def]
  unfold vRem
  split
  next hb => simp [hb, wrap64]
  next => rfl

/-- The remainder of two words is a word's value, so it does not wrap. -/
theorem toInt_wrap64_signedRem (a b : Word) : (wrap64 (signedRem a.toInt b.toInt)).toInt = a.toInt.tmod b.toInt := by
  rw [signedRem_eq_tmod, ← BitVec.toInt_srem, wrap64, BitVec.ofInt_toInt]

/-- A remainder that is not zero has the sign of the dividend. -/
theorem tmod_neg_iff {x y : Int} (h : x.tmod y ≠ 0) : x.tmod y < 0 ↔ x < 0 := by
  have hsign : (x.tmod y).sign = x.sign := by
    rw [Int.sign_tmod, if_neg (fun hd => h (Int.tmod_eq_zero_of_dvd hd))]
  rw [← Int.sign_eq_neg_one_iff_neg, hsign, Int.sign_eq_neg_one_iff_neg]

/-! ## The unsigned quotient and remainder of R258 -/

theorem toNat_eq_zero_iff (b : Word) : b.toNat = 0 ↔ b = 0 := BitVec.toNat_inj (y := 0)

theorem vDivn_eq (a b : Word) : vDivn a b = BitVec.ofNat 64 (if b.toNat = 0 then 2 ^ 64 - 1 else a.toNat / b.toNat) := by
  unfold vDivn
  simp only [toNat_eq_zero_iff]
  split <;> rfl

theorem vRemn_eq (a b : Word) : vRemn a b = BitVec.ofNat 64 (if b.toNat = 0 then a.toNat else a.toNat % b.toNat) := by
  unfold vRemn
  simp only [toNat_eq_zero_iff]
  split
  · exact (BitVec.ofNat_toNat 64 a).symm
  · rfl

/-- Settles O9: each op commits its value function, which the lemmas above compare with R258. -/
theorem divisionTruncatesAndNeverFaults : Obligations.DivisionTruncatesAndNeverFaults := by
  intro q d a b s hq
  refine ⟨?_, ?_, ?_, ?_, fun hne => ?_⟩
  · exact (issueOne_opAlu hq).trans (by rw [vDiv_eq_signedQuot]; rfl)
  · exact (issueOne_opAlu hq).trans (by rw [vRem_eq_signedRem]; rfl)
  · exact (issueOne_opAlu hq).trans (by rw [vDivn_eq]; rfl)
  · exact (issueOne_opAlu hq).trans (by rw [vRemn_eq]; rfl)
  · have hrem := toInt_wrap64_signedRem (gOf s a) (gOf s b)
    exact hrem ▸ tmod_neg_iff (hrem ▸ hne)

end Sys2Proof.Machine
end

section
/-!
PROOF. Address arithmetic (spec/11_scalar_control_instructions.md, R265, R266). Each op either takes PATH_FAULT at G[A] or commits one
register; its words decode by the fields of the body formats S3 and SI (R229).
-/

namespace Sys2Proof.Machine

/-! ## Words of the register and immediate forms -/

/-- The op word with no guard of opcode c whose D and A name d and a and whose bits [27:0] are low (R229, R254). -/
def aluWord (c : Nat) (d a : Reg) (low : Nat) : Word :=
  BitVec.ofNat 64 (c * 2 ^ 40 + d.toNat * 2 ^ 34 + a.toNat * 2 ^ 28 + low)

section
variable {c : Nat} {d a : Reg} {low : Nat} (hc : c < 2 ^ 10) (hl : low < 2 ^ 28)
include hc hl

theorem toNat_aluWord : (aluWord c d a low).toNat = c * 2 ^ 40 + d.toNat * 2 ^ 34 + a.toNat * 2 ^ 28 + low := by
  have hd := d.isLt
  have ha := a.isLt
  rw [aluWord, BitVec.toNat_ofNat]
  omega

theorem opcOf_aluWord : opcOf (aluWord c d a low) = c := by
  have hd := d.isLt
  have ha := a.isLt
  rw [opcOf, toNat_aluWord hc hl]
  omega

theorem guardOf_aluWord : guardOf (aluWord c d a low) = Guard.none := by
  have hd := d.isLt
  have ha := a.isLt
  have h : (aluWord c d a low).toNat < 2 ^ 50 := by
    rw [toNat_aluWord hc hl]
    omega
  have hz {n : Nat} (hn : 50 ≤ n) : (aluWord c d a low).toNat / 2 ^ n = 0 :=
    Nat.div_eq_of_lt (h.trans_le (Nat.pow_le_pow_right (by decide) hn))
  simp (disch := decide) only [guardOf, flg, fld, hz]
  rfl

theorem fld_D_aluWord : fld (aluWord c d a low) 34 6 = d := by
  have ha := a.isLt
  apply BitVec.eq_of_toNat_eq
  rw [fld, BitVec.toNat_ofNat, toNat_aluWord hc hl]
  omega

theorem fld_A_aluWord : fld (aluWord c d a low) 28 6 = a := by
  have hd := d.isLt
  apply BitVec.eq_of_toNat_eq
  rw [fld, BitVec.toNat_ofNat, toNat_aluWord hc hl]
  omega

end

/-- IMM28 of an immediate form. -/
theorem fld_imm_aluWord {c : Nat} {d a : Reg} (imm : BitVec 28) (hc : c < 2 ^ 10) :
    fld (aluWord c d a imm.toNat) 0 28 = imm := by
  apply BitVec.eq_of_toNat_eq
  rw [fld, BitVec.toNat_ofNat, toNat_aluWord hc imm.isLt]
  omega

theorem regLow_lt (b : Reg) : b.toNat * 2 ^ 22 < 2 ^ 28 := by omega

section
variable {c : Nat} {d a b : Reg} (hc : c < 2 ^ 10)
include hc

/-- B of a register form. -/
theorem fld_B_aluWord : fld (aluWord c d a (b.toNat * 2 ^ 22)) 22 6 = b := by
  apply BitVec.eq_of_toNat_eq
  rw [fld, BitVec.toNat_ofNat, toNat_aluWord hc (regLow_lt b)]
  omega

/-- F1, F2 and the low bits of a register form that uses none of them. -/
theorem zro_aluWord : zro (aluWord c d a (b.toNat * 2 ^ 22)) 0 22 = true := by
  rw [zro, toNat_aluWord hc (regLow_lt b), beq_iff_eq]
  omega

end

/-! ## The codes -/

theorem decodeOp_s0_ok {w : Word} {i : Instr} (h : decodeS w = .ok i) (hw : wellFormed i = true) : decodeOp .s0 w = .ok i := by
  simp only [decodeOp, h, hw, if_true]

/-- An op of the register form that uses neither F1 nor F2 decodes from its code, where the table has it. -/
theorem decodeOp_regForm {c : Nat} {op : Guard → Reg → Reg → Reg → Instr} (d a b : Reg) (hc : c < 2 ^ 10)
    (htable : ∀ w, opcOf w = c → decodeS w = rsv (zro w 0 22) (op (guardOf w) (fld w 34 6) (fld w 28 6) (fld w 22 6)))
    (hwf : wellFormed (op Guard.none d a b) = true) :
    decodeOp .s0 (aluWord c d a (b.toNat * 2 ^ 22)) = .ok (op Guard.none d a b) := by
  have hl := regLow_lt b
  refine decodeOp_s0_ok ?_ hwf
  rw [htable _ (opcOf_aluWord hc hl), zro_aluWord hc, guardOf_aluWord hc hl, fld_D_aluWord hc hl, fld_A_aluWord hc hl, fld_B_aluWord hc]
  rfl

/-- An op of the immediate form that uses all of IMM28 decodes from its code, where the table has it. -/
theorem decodeOp_immForm {c : Nat} {op : Guard → Reg → Reg → BitVec 28 → Instr} (d a : Reg) (imm : BitVec 28) (hc : c < 2 ^ 10)
    (htable : ∀ w, opcOf w = c → decodeS w = rsv true (op (guardOf w) (fld w 34 6) (fld w 28 6) (fld w 0 28)))
    (hwf : wellFormed (op Guard.none d a imm) = true) :
    decodeOp .s0 (aluWord c d a imm.toNat) = .ok (op Guard.none d a imm) := by
  have hl := imm.isLt
  refine decodeOp_s0_ok ?_ hwf
  rw [htable _ (opcOf_aluWord hc hl), guardOf_aluWord hc hl, fld_D_aluWord hc hl, fld_A_aluWord hc hl, fld_imm_aluWord imm hc]
  rfl

theorem decodeOp_aadd (d a b : Reg) :
    decodeOp .s0 (aluWord 0x021 d a (b.toNat * 2 ^ 22)) = .ok (.aadd Guard.none d a b) :=
  decodeOp_regForm d a b (by decide) (fun w h => by simp only [decodeS, h]) rfl

theorem decodeOp_adiff (d a b : Reg) :
    decodeOp .s0 (aluWord 0x022 d a (b.toNat * 2 ^ 22)) = .ok (.adiff Guard.none d a b) :=
  decodeOp_regForm d a b (by decide) (fun w h => by simp only [decodeS, h]) rfl

theorem decodeOp_aaddImm (d a : Reg) (imm : BitVec 28) :
    decodeOp .s0 (aluWord 0x061 d a imm.toNat) = .ok (.aaddImm Guard.none d a imm) :=
  decodeOp_immForm d a imm (by decide) (fun w h => by simp only [decodeS, h]) rfl

theorem opcOf_eq_toNat (w : Word) : opcOf w = ((w >>> 40).setWidth 10).toNat := by
  rw [BitVec.toNat_setWidth, BitVec.toNat_ushiftRight, Nat.shiftRight_eq_div_pow, opcOf]

/-- The code that would be ADIFF's immediate form names no op. -/
theorem decodeOp_of_opc_0x062 {w : Word} (h : opcOf w = 0x062) : decodeOp .s0 w = .error .illegalOp := by
  simp only [decodeOp, decodeS, h]

/-! ## The effective address -/

/-- The sum of bits [56:0] of an address and a signed offset, which R265 tests for a carry into the path bits. -/
def lowSum (base : Word) (off : Int) : Int := (base.toNat % 2 ^ 57 : Nat) + off

theorem effAddr_out {base : Word} {off : Int} (h : lowSum base off < 0 ∨ 2 ^ 57 ≤ lowSum base off) :
    effAddr base off = .error (.fault ⟨.pathFault, 0, base⟩) :=
  if_pos ((Bool.or_eq_true _ _).mpr (h.imp decide_eq_true decide_eq_true))

theorem effAddr_in {base : Word} {off : Int} (h0 : 0 ≤ lowSum base off) (h1 : lowSum base off < 2 ^ 57) :
    effAddr base off = .ok (base.toNat / 2 ^ 57 * 2 ^ 57 + (lowSum base off).toNat) :=
  if_neg fun h => ((Bool.or_eq_true _ _).mp h).elim (fun hlt => h0.not_gt (of_decide_eq_true hlt))
    (fun hge => h1.not_ge (of_decide_eq_true hge))

/-- Bits [63:57] of a word above an offset of 57 bits. -/
theorem w64_path_add (base : Word) {z : Int} (h0 : 0 ≤ z) (h1 : z < 2 ^ 57) :
    w64 (base.toNat / 2 ^ 57 * 2 ^ 57 + z.toNat) = (base >>> 57 <<< 57) ||| wrap64 z := by
  obtain ⟨n, rfl⟩ := Int.eq_ofNat_of_zero_le h0
  have hn : n < 2 ^ 57 := by omega
  have hb := base.isLt
  apply BitVec.eq_of_toNat_eq
  simp (disch := omega) only [BitVec.toNat_or, wrap64, BitVec.ofInt_natCast, w64, BitVec.toNat_ofNat, BitVec.toNat_shiftLeft,
    BitVec.toNat_ushiftRight, Nat.shiftRight_eq_div_pow, Nat.shiftLeft_eq, Int.toNat_natCast, Nat.mod_eq_of_lt]
  rw [Nat.mul_comm]
  exact Nat.two_pow_add_eq_or_of_lt hn _

/-! ## AADD -/

/-- G[D] := the effective address of G[A] at an offset, or its fault. -/
def addrInto (d a : Reg) (off : Int) (s : State) : Except (Stop State) State :=
  (effAddr (gOf s a) off).map (fun e => setG s d (w64 e))

theorem opAadd_eq (d a b : Reg) (s : State) : opAadd d a b (ctxAt .s0 s) s = addrInto d a (gOf s b).toInt s := by
  simp only [opAadd, addrInto, gr_ctxAt]
  cases effAddr (gOf s a) (gOf s b).toInt <;> rfl

theorem opAaddImm_eq (d a : Reg) (imm : BitVec 28) (s : State) :
    opAaddImm d a imm (ctxAt .s0 s) s = addrInto d a imm.toInt s := by
  simp only [opAaddImm, addrInto, gr_ctxAt]
  cases effAddr (gOf s a) imm.toInt <;> rfl

theorem addrInto_out {d a : Reg} {off : Int} {s : State} (h : lowSum (gOf s a) off < 0 ∨ 2 ^ 57 ≤ lowSum (gOf s a) off) :
    addrInto d a off s = .error (.fault ⟨.pathFault, 0, gOf s a⟩) := by
  rw [addrInto, effAddr_out h]
  rfl

theorem addrInto_in {d a : Reg} {off : Int} {s : State} (h0 : 0 ≤ lowSum (gOf s a) off) (h1 : lowSum (gOf s a) off < 2 ^ 57) :
    addrInto d a off s = .ok (setG s d ((gOf s a >>> 57 <<< 57) ||| wrap64 (lowSum (gOf s a) off))) := by
  rw [addrInto, effAddr_in h0 h1, ← w64_path_add _ h0 h1]
  rfl

/-! ## ADIFF -/

/-- Two words have the same bits [63:57] where the quotients by 2^57 are equal. -/
theorem ushiftRight_57_eq_iff (a b : Word) : a >>> 57 = b >>> 57 ↔ a.toNat / 2 ^ 57 = b.toNat / 2 ^ 57 := by
  rw [← BitVec.toNat_inj, BitVec.toNat_ushiftRight, BitVec.toNat_ushiftRight, Nat.shiftRight_eq_div_pow, Nat.shiftRight_eq_div_pow]

theorem opAdiff_fault {d a b : Reg} {s : State} (h : gOf s a >>> 57 ≠ gOf s b >>> 57) :
    opAdiff d a b (ctxAt .s0 s) s = .error (.fault ⟨.pathFault, 0, gOf s a⟩) := by
  have hne := beq_eq_false_iff_ne.mpr (mt (ushiftRight_57_eq_iff _ _).mpr h)
  simp only [opAdiff, grN, gr_ctxAt, hne]
  rfl

theorem opAdiff_ok {d a b : Reg} {s : State} (h : gOf s a >>> 57 = gOf s b >>> 57) :
    opAdiff d a b (ctxAt .s0 s) s =
      .ok (setG s d (wrap64 (((gOf s a).toNat % 2 ^ 57 : Nat) - ((gOf s b).toNat % 2 ^ 57 : Nat)))) := by
  have heq := beq_iff_eq.mpr ((ushiftRight_57_eq_iff _ _).mp h)
  simp only [opAdiff, grN, gr_ctxAt, heq, need_true]
  rfl

/-- Settles O10: the codes by the fields of their words, the two forms of AADD as one, and ADIFF by whether the paths agree. -/
theorem addressArithmeticStaysInThePath : Obligations.AddressArithmeticStaysInThePath := by
  refine ⟨fun d a b imm => ⟨decodeOp_aadd d a b, decodeOp_aaddImm d a imm, decodeOp_adiff d a b⟩, fun w hw => ?_,
    fun q d a b imm s hq => ⟨fun i off hi => ?_, fun hne => ?_, fun heq => ?_⟩⟩
  · exact decodeOp_of_opc_0x062 (by rw [opcOf_eq_toNat, hw]; rfl)
  · obtain ⟨op, hexec, hop⟩ : ∃ op : OpM, exec i s = issueOne .s0 q op s ∧ op (ctxAt .s0 s) s = addrInto d a off s := by
      rcases hi with ⟨rfl, rfl⟩ | ⟨rfl, rfl⟩
      · exact ⟨_, rfl, opAadd_eq d a b s⟩
      · exact ⟨_, rfl, opAaddImm_eq d a imm s⟩
    rw [hexec]
    exact ⟨fun hz => issueOne_fault .s0 q op s _ hq (hop.trans (addrInto_out hz)),
      fun h0 h1 => ⟨issueOne_ok .s0 q op s _ hq (hop.trans (addrInto_in h0 h1)), onlyReg_commitOne_setG s d _⟩⟩
  · exact issueOne_fault .s0 q _ s _ hq (opAdiff_fault hne)
  · exact ⟨issueOne_ok .s0 q _ s _ hq (opAdiff_ok heq), onlyReg_commitOne_setG s d _⟩

end Sys2Proof.Machine
end
